-- ==== Sys2Proof/Word.lean ====
section
/-!
DEFINITION. The word types of the TML-2410 and the capacities its rules name.
-/

namespace Sys2Proof

/-- A byte of a descriptor, a record place or a window word. -/
abbrev Byte := BitVec 8

/-- A sequence number of a switch: 32 bits, compared modulo 2^32 (00_scope, Conventions). -/
abbrev Seq := BitVec 32

/-- A CRC-32 register or result (R74). -/
abbrev Crc := BitVec 32

/-- A port: MP0 to MP3 (R157). -/
abbrev PortId := Fin 4

/-- A chain engine of a port (R159). -/
abbrev ChainNo := Fin 4

/-- A codec lane (R165). -/
abbrev LaneNo := Fin 4

/-- A channel of the extent store (R75). -/
abbrev Channel := Fin 4

/-- Numbered things that may be absent: (number, value) pairs, the numbers strictly rising. -/
abbrev Table (α : Type) := List (Nat × α)

/-- The number of places of a table's numbers, strictly rising: the one canonical form of a table. -/
def Table.rising {α : Type} : Table α → Bool
  | [] => true
  | [_] => true
  | (k, _) :: (l, w) :: t => decide (k < l) && Table.rising ((l, w) :: t)

/-- Largest value of an unsigned 32-bit quantity. -/
def max32 : Nat := 4294967295

/-- Largest value of an unsigned 64-bit quantity. -/
def max64 : Nat := 18446744073709551615

/-- Seconds of an archive day (00_scope, Conventions). -/
def daySeconds : Nat := 86400

/-- The last archive day (00_scope, Conventions). -/
def lastDay : Nat := 49710

/-- Extents of the store (R75). -/
def extentCount : Nat := 131072

/-- Extents of one channel (R75). -/
def channelExtents : Nat := 32768

/-- Extents 0 to 3 of channel 0 are RESERVED for the journal (R75). -/
def reservedExtents : Nat := 4

/-- Body capacity of a segment in bits (04, before R59). -/
def bodyCapacity : Nat := 268402688

/-- Record limit of a segment (04, before R59). -/
def recordLimit : Nat := 1048575

/-- Places of the journal (R151). -/
def journalPlaces : Nat := 1048576

/-- Page slots of the journal ring (R149). -/
def journalSlots : Nat := 32768

/-- Page slots of one journal extent (R149). -/
def extentSlots : Nat := 8192

/-- Entries of one journal page (R149). -/
def pageEntries : Nat := 64

/-- Free places below which the journal is low (R151). -/
def lowMark : Nat := 65536

/-- The archive day of an archive second (00_scope, Conventions). -/
def dayOf (t : Nat) : Nat := t / daySeconds

/-- A saturating value: `n`, or `top` where `n` passes it (00_scope, Conventions). -/
def saturate (top n : Nat) : Nat := min n top

end Sys2Proof
end

