-- ==== Sys2Proof/Syntax.lean ====
section
/-!
DEFINITION. The commands of the TML-2410, one constructor of `Instr` for each row of spec/opcode_table.json, and the
data a command can carry.
-/

namespace Sys2Proof

/-- Where a descriptor command runs, and the two flags of its descriptor (R160). -/
structure At where
  port : PortId
  chain : ChainNo
  notify : Bool
  haltOnError : Bool
  deriving DecidableEq, Repr

/-- The buffer of a descriptor that moves one: its address, and its count of record places as written, 0 for 4,096
(12.3). -/
structure Buf where
  addr : Nat
  count : Nat
  deriving DecidableEq, Repr

/-- One value for each trained field, TD, DU and CU (R64). -/
structure Three where
  td : Nat
  du : Nat
  cu : Nat
  deriving DecidableEq, Repr

/-- A role set (R157). -/
structure RoleSet where
  intake : Bool
  retrieval : Bool
  audit : Bool
  deriving DecidableEq, Repr

/-- The strap pins: a role set for each port, the floor as its pins read, and the clock source, high for EXT (R168). -/
structure StrapPins where
  roles : Vector RoleSet 4
  floor : Nat
  ext : Bool
  deriving DecidableEq, Repr

/-- A record of Settings Memory, as the operand of POWER_ON names the damaged ones (R169). For a hold slot, `id` is what
its id field reads as (R115). -/
inductive SettingsId where
  | row (cls : Fin 8)
  | hold (slot : Fin 64) (id : Nat)
  | savedDay
  | sealCounter
  | lastSeal
  | release
  | badTable
  deriving DecidableEq, Repr

/-- A handling of one item of a projection, as written: a handling code that names none is `unnamed` (R132, R133). -/
inductive Handling where
  | deliver
  | absent
  | fill (v : Nat)
  | empty
  | unnamed
  deriving DecidableEq, Repr

/-- A projection, as named by PROJECTION_SET (R132). -/
structure Projection where
  k1 : Nat
  k2 : Nat
  fillDigit : Nat
  cell : Handling
  trunk : Handling
  units : Handling
  supp : Handling
  deriving DecidableEq, Repr

/-- A retrieval cursor: a seal serial and a record index (R125). -/
structure Cursor where
  serial : Nat
  index : Nat
  deriving DecidableEq, Repr

/-- The ten states of a catalogue entry, in the order of their codes (R87, R171). -/
inductive EntryState where
  | free | reserved | bad | writing | journaling | sealed | expiryWait | damaged | retiring | erasing
  deriving DecidableEq, Repr

/-- The segment fields of a catalogue entry (R87). -/
structure SegFields where
  source : Nat
  cls : Nat
  fileNo : Nat
  serial : Nat
  count : Nat
  bits : Nat
  firstSeq : Seq
  lastSeq : Seq
  minDay : Nat
  maxDay : Nat
  durSum : Nat
  unitsSum : Nat
  crc : Crc
  ratio : Nat
  deriving DecidableEq, Repr

/-- The values of a segment header (R73). -/
structure SegHeader where
  seg : SegFields
  base : Nat
  widths : Three
  deriving DecidableEq, Repr

/-- What a data extent holds: nothing, a header with its check and the body behind it, or contents with no valid header
(R73, R75). -/
inductive ExtentContent where
  | erased
  | segment (header : SegHeader) (check : Crc) (body : List Bool)
  | incomplete
  deriving DecidableEq, Repr

/-- How the flash answers a READ of an extent: reported failed, what the extent holds, or something else than it holds,
which is the damage that the header test and a verification look for (R83, R140). -/
inductive ReadOutcome where
  | failed
  | stored
  | returned (content : ExtentContent)
  deriving DecidableEq, Repr

/-- The nine fault kinds, in the order of their codes (R33, R171). -/
inductive FaultKind where
  | framing | source | digits | range | skew | duplicate | expired | trailerFile | store
  deriving DecidableEq, Repr

/-- A file's closing cause (R4). -/
inductive ClosingCause where
  | trailer | deadline | abandon
  deriving DecidableEq, Repr

/-- The outcome of one comparison at reconciliation (R136). -/
inductive Comparison where
  | unordered | equal | archiveHigh | archiveLow
  deriving DecidableEq, Repr

/-- A file outcome (R137). -/
inductive FileOutcome where
  | abandoned | incomplete | matched | mismatched
  deriving DecidableEq, Repr

/-- Why a gap left the list (R29). -/
inductive DropCause where
  | overflow | age
  deriving DecidableEq, Repr

/-- Why an extent went BAD (R81, R84). -/
inductive BadCause where
  | writeFailed | eraseFailed
  deriving DecidableEq, Repr

/-- Why a policy row was restored (R108). -/
inductive RestoreCause where
  | checkFailed | floor
  deriving DecidableEq, Repr

/-- Who found a segment damaged, or verified it (R141). -/
inductive Finder where
  | verify | scrub | retrieval
  deriving DecidableEq, Repr

/-- Why a segment could not be read or decoded to its end (R130, R140). -/
inductive SegFailure where
  | readFailure
  | decodeFailure (index : Nat)
  deriving DecidableEq, Repr

/-- The eight field outcomes of a verification, true for DIFFERENT, in the order of R140's table. -/
structure FieldOutcomes where
  count : Bool
  crc : Bool
  durSum : Bool
  unitsSum : Bool
  minDay : Bool
  maxDay : Bool
  firstSeq : Bool
  lastSeq : Bool
  deriving DecidableEq, Repr

/-- The pass counts of the scrub (R143). -/
structure PassCounts where
  considered : Nat
  verified : Nat
  passed : Nat
  damaged : Nat
  restored : Nat
  busy : Nat
  deriving DecidableEq, Repr

/-- The number of catalogue entries in each state (R98, R156). -/
structure StateCounts where
  free : Nat
  reserved : Nat
  bad : Nat
  writing : Nat
  journaling : Nat
  sealed : Nat
  expiryWait : Nat
  damaged : Nat
  retiring : Nat
  erasing : Nat
  deriving DecidableEq, Repr

/-- The fields of a SEALED or RECOVERED_SEAL entry (R89, R97). -/
structure SealFields where
  extent : Nat
  source : Nat
  cls : Nat
  fileNo : Nat
  serial : Nat
  count : Nat
  minDay : Nat
  maxDay : Nat
  deriving DecidableEq, Repr

/-- The fields of a FILE_CLOSED entry (R138). -/
structure ClosedFields where
  fileNo : Nat
  source : Nat
  owner : PortId
  outcome : FileOutcome
  cause : ClosingCause
  count : Comparison
  countSaturated : Bool
  duration : Comparison
  durationSaturated : Bool
  units : Comparison
  unitsSaturated : Bool
  presented : Nat
  accepted : Nat
  duplicates : Nat
  dropped : Nat
  clamped : Nat
  sticky : BitVec 9
  segmentsSealed : Nat
  trailer : Option (Nat × Seq × Seq)
  deriving DecidableEq, Repr

/-- The fields of each kind of journal entry, as its owning rule lists them (R148). -/
inductive JBody where
  | sealed (f : SealFields)
  | recoveredSeal (f : SealFields)
  | expired (extent source serial cls days retainUntil today : Nat)
  | discarded (extent source serial cls count minDay maxDay : Nat) (port : PortId)
  | damaged (extent source serial : Nat) (finder : Finder) (outcomes : FieldOutcomes) (failure : Option SegFailure)
      (port : Option PortId)
  | verified (extent serial : Nat) (finder : Finder) (restored : Bool)
  | scrubPass (passStart : Nat) (counts : PassCounts)
  | holdPlaced (id : Nat) (source : Option Nat) (a b placedDay covered tooLate : Nat) (port : PortId)
  | holdReleased (id : Nat) (source : Option Nat) (a b : Nat) (unknown : Bool) (uncovered freed : Nat) (port : PortId)
  | policyCommitted (cls previous new : Nat) (proposer endorser : PortId)
  | policyLapsed (cls days : Nat) (proposer : PortId)
  | policyRestored (cls days : Nat) (cause : RestoreCause)
  | fileClosed (f : ClosedFields)
  | gapDropped (source : Nat) (first last : Seq) (cause : DropCause) (e : Seq)
  | clockSet (previous requested applied : Nat) (clamped : Bool) (port : PortId)
  | badExtent (extent : Nat) (cause : BadCause) (serial : Option Nat)
  | restart (lastDurable : Nat) (counts : StateCounts) (recovered incomplete restoredSafe lost : Nat)
  deriving DecidableEq, Repr

/-- A journal entry: its serial, its archive time and the fields of its kind (R148). -/
structure JEntry where
  serial : Nat
  time : Nat
  body : JBody
  deriving DecidableEq, Repr

/-- An entry as it stands in a page slot: `checkHolds` says whether its entry check agrees with its other bytes (R148). -/
structure StoredEntry where
  entry : JEntry
  checkHolds : Bool
  deriving DecidableEq, Repr

/-- What a page slot holds; a slot left by a failed page write holds a page of no entries (R149, R150). -/
inductive SlotContent where
  | erased
  | page (entries : List StoredEntry)
  deriving DecidableEq, Repr

/-- How the flash answers a page READ: reported failed, what the slot holds, or something else than it holds. -/
inductive PageOutcome where
  | failed
  | stored
  | returned (content : SlotContent)
  deriving DecidableEq, Repr

/-- How far the operation in flight on a channel had come at a power-off: nothing done, cut short (for a journal page,
with its first `k` entries written), or done but not reported (R80, R84, R156). -/
inductive Cut where
  | before
  | during (k : Nat)
  | after
  deriving DecidableEq, Repr

/-- A register of the port window, as REGISTER_WRITE names it: the two cell words, or one a write does not change (the
port status word and the identification block, R157). -/
inductive WindowReg where
  | cell0
  | cell1
  | readOnly
  deriving DecidableEq, Repr

/-- The commands, one for each row of the opcode table, in the table's order. Numbers are as a command writes them: a
default written as 0 is still 0 here. -/
inductive Instr where
  | streamOpen (at_ : At) (source cls : Nat) (fill : Byte) (mask : BitVec 8) (first : Seq) (widths force : Three)
      (samples tolerance : Nat)
  | streamClose (at_ : At) (source : Nat)
  | fileOpen (at_ : At) (source fileNo minutes : Nat)
  | fileFeed (at_ : At) (buf : Buf) (source fileNo : Nat)
  | fileResume (at_ : At) (source fileNo : Nat)
  | fileAbandon (at_ : At) (source fileNo : Nat)
  | fileAdopt (at_ : At) (source fileNo : Nat)
  | streamSnapshot (at_ : At) (buf : Buf) (source : Nat)
  | streamMask (at_ : At) (source : Nat) (mask : BitVec 8) (clearSticky : Bool)
  | widthSet (at_ : At) (source : Nat) (force : Three) (tolerance : Nat)
  | gapRead (at_ : At) (buf : Buf) (source : Nat)
  | catalogueRead (at_ : At) (buf : Buf) (start : Nat) (sourceFilter : Option Nat) (stateFilter : Option Nat)
  | retrieve (at_ : At) (buf : Buf) (source : Option Nat) (a b : Nat) (cursor : Option Cursor)
  | projectionSet (at_ : At) (projection : Projection)
  | policyPropose (at_ : At) (cls days : Nat)
  | policyEndorse (at_ : At) (cls days : Nat)
  | holdPlace (at_ : At) (source : Option Nat) (a b : Nat)
  | holdRelease (at_ : At) (id : Nat)
  | clockSet (at_ : At) (value : Nat)
  | verify (at_ : At) (extent : Nat) (journalPass : Bool)
  | scrubSet (at_ : At) (enable : Bool) (start : Nat)
  | damagedDiscard (at_ : At) (extent : Nat)
  | journalRead (at_ : At) (buf : Buf) (fromSerial : Nat)
  | journalRelease (at_ : At) (serial : Nat)
  | serviceSet (at_ : At) (interval : Nat)
  | statusRead (at_ : At) (buf : Buf)
  | identify (at_ : At) (buf : Buf)
  | jump (at_ : At) (target : Nat)
  | halt (at_ : At)
  | chainStart (port : PortId) (chain mask : Byte)
  | chainStop (port : PortId) (chain mask : Byte)
  | portDrain (port : PortId) (chain mask : Byte)
  | portOpen (port : PortId) (chain mask : Byte)
  | noticeArea (port : PortId) (chain mask : Byte)
  | torn (port : PortId) (cmd chain mask : Byte)
  | registerWrite (port : PortId) (reg : WindowReg) (value : BitVec 64)
  | descriptorFetch (port : PortId) (chain : ChainNo) (bytes : Vector Byte 64)
  | descriptorFetchTimeout (port : PortId) (chain : ChainNo)
  | bufferReadTimeout (port : PortId) (chain : ChainNo)
  | linkUp (port : PortId)
  | linkDown (port : PortId)
  | functionLevelReset (port : PortId)
  | functionLevelResetEnd (port : PortId)
  | laneGrant
  | recordPlace (port : PortId) (chain : ChainNo) (bytes : Vector Byte 64)
  | stagingBufferGiven
  | fileDeadlineExpiry (file : Nat)
  | powerOn (pins : StrapPins) (damaged : List SettingsId)
  | powerOff (cut0 cut1 cut2 cut3 : Cut)
  | journalScanReadComplete (outcome : PageOutcome)
  | headerReadComplete (channel : Channel) (outcome : ReadOutcome)
  | dividerSecond
  | pulse
  | pulseWatchdogExpiry
  | policyCommit
  | scanVisit
  | sealAllocation
  | queuePlaceGiven (channel : Channel)
  | segmentWriteComplete (channel : Channel) (ok : Bool)
  | segmentReadComplete (channel : Channel) (outcome : ReadOutcome)
  | eraseComplete (channel : Channel) (ok : Bool)
  | journalPageWriteComplete (ok : Bool)
  | pageTimerExpiry
  | journalEraseComplete (ok : Bool)
  | journalPageReadComplete (outcome : PageOutcome)
  | appendWaitServed
  | pinGrant (extent : Nat)
  | decodedRecord (lane : LaneNo)
  | damageReport
  | scrubConsider
  | errorCompletion (port : PortId) (chain : ChainNo)
  deriving DecidableEq, Repr

end Sys2Proof
end

