-- ==== Sys2Proof/Decode.lean ====
section
/-!
DEFINITION. The command a word of the opcode table's bits spells.
-/

namespace Sys2Proof

/-- The table gives no row any bits: a command of the part is a cell write, an arriving descriptor or an event, so no word
spells one. A descriptor's 64 bytes are read by `Machine.descriptorCommand` (R160, R171). -/
def decodeTableWord (_nbits _w : Nat) : Option Instr := none

end Sys2Proof
end

