-- ==== Sys2Proof/Machine/State.lean ====
section
/-!
DEFINITION. The state of the TML-2410: every piece the spec gives the part, as plain data, the reasons a step can stop,
and the state after reset.
-/

namespace Sys2Proof.Machine

/-- Reasons the part stops with a fault. No rule of the spec stops the part, so no command raises one; the type is
closed and has no constructor. Safe: nothing is stopped that the spec lets go on. -/
inductive Fault where
  deriving DecidableEq, Repr

/-- Reasons a command has no meaning in the model. -/
inductive Refusal where
  /-- Raised by `exec`'s arm of a row that has no meaning yet, and by nothing else. Safe: nothing is claimed of it. -/
  | notModelled (mnemonic : String)
  deriving DecidableEq, Repr

/-! ## Power -/

/-- Whether the part is off, starting or ready (R170). -/
inductive Power where
  | off | starting | ready
  deriving DecidableEq, Repr

/-! ## Settings Memory -/

/-- An active hold in its slot (R110). -/
structure Hold where
  id : Nat
  source : Option Nat
  a : Nat
  b : Nat
  placedDay : Nat
  unknown : Bool
  deriving DecidableEq, Repr

/-- Settings Memory (R169). Each value has this one home: the active rows, the holds table, the seal serial counter, L and
the release serial that the blocks read are these, written together with the event that changes them. `damaged` names the
records whose CRC-32 does not hold: a record stays so, over a power-off too, until it is written back (log entry 20). -/
structure Settings where
  rows : Vector Nat 8
  holds : Table Hold
  savedDay : Nat
  sealCounter : Nat
  lastSeal : Nat
  release : Nat
  bad : List Nat
  damaged : List SettingsId
  deriving DecidableEq, Repr

/-- Settings Memory as shipped (R169). -/
def Settings.shipped : Settings :=
  { rows := Vector.replicate 8 0, holds := [], savedDay := 0, sealCounter := 1, lastSeal := 0, release := 0, bad := [],
    damaged := [] }

/-! ## The flash store's contents -/

/-- What the extents and the journal slots hold; an unlisted extent or slot is erased (R75, R149). -/
structure Flash where
  extents : Table ExtentContent
  pages : Table (List StoredEntry)
  deriving DecidableEq, Repr

/-! ## Streams -/

/-- A range of missing sequence numbers, both ends included (R21). -/
structure Gap where
  first : Seq
  last : Seq
  deriving DecidableEq, Repr

/-- The sequence account of a stream (R21). Bit `i` of the window is position `i`; gaps stand oldest first. -/
structure Account where
  e : Seq
  window : BitVec 256
  gaps : List Gap
  advance : Nat
  dropped : Nat
  deriving DecidableEq, Repr

/-- The last fault of a stream; what a kind does not carry is absent (R33). -/
structure LastFault where
  kind : FaultKind
  fileNo : Nat
  place : Option (Nat × Nat)
  record : Option (Seq × Nat)
  foundFile : Option Nat
  deriving DecidableEq, Repr

/-- The lock state of a trained field (R64). -/
inductive LockState where
  | untrained | locked | relocked | forced
  deriving DecidableEq, Repr

/-- The width training state of a stream: current widths, force values, observed maxima, lock states, sample count and
lock tolerance (R64). -/
structure Training where
  widths : Three
  force : Three
  maxima : Three
  lockTd : LockState
  lockDu : LockState
  lockCu : LockState
  samples : Nat
  tolerance : Nat
  deriving DecidableEq, Repr

/-- A stream slot that is IDLE or BUSY; it is BUSY when it records a file entry (R1). -/
structure Stream where
  source : Nat
  cls : Nat
  fill : Byte
  mask : BitVec 8
  sticky : BitVec 9
  lastFault : Option LastFault
  account : Account
  training : Training
  file : Option Nat
  deriving DecidableEq, Repr

/-! ## Files -/

/-- The states of a file in the file table, in the order of their codes; CLOSED frees the entry at once (R4, R171). -/
inductive FileState where
  | opened | halted | orphaned | closing | closed
  deriving DecidableEq, Repr

/-- A halt cause (R4). -/
inductive HaltCause where
  | fault | store
  deriving DecidableEq, Repr

/-- A trailer record (R171). -/
structure Trailer where
  source : Nat
  fileNo : Nat
  count : Nat
  firstSeq : Seq
  lastSeq : Seq
  duration : Nat
  units : Nat
  deriving DecidableEq, Repr

/-- A file entry in use (R4). The two saturation marks are those R135 reports. -/
structure FileEntry where
  fileNo : Nat
  stream : Nat
  owner : PortId
  state : FileState
  wasHalted : Bool
  haltCause : Option HaltCause
  closingCause : Option ClosingCause
  deadline : Nat
  presented : Nat
  accepted : Nat
  duplicates : Nat
  dropped : Nat
  clamped : Nat
  skipped : Nat
  beyond : Nat
  durSum : Nat
  durSaturated : Bool
  unitsSum : Nat
  unitsSaturated : Bool
  segsSealed : Nat
  segsInFlight : Nat
  openSeg : Option Nat
  trailer : Option Trailer
  deriving DecidableEq, Repr

/-- A reconciliation record (R135). -/
structure Recon where
  fileNo : Nat
  source : Nat
  owner : PortId
  cause : ClosingCause
  presented : Nat
  presentedSaturated : Bool
  accepted : Nat
  duplicates : Nat
  dropped : Nat
  clamped : Nat
  durSum : Nat
  durSaturated : Bool
  unitsSum : Nat
  unitsSaturated : Bool
  segsSealed : Nat
  sticky : BitVec 9
  trailer : Option Trailer
  deriving DecidableEq, Repr

/-! ## Records and the codec -/

/-- A data record as it stands at a record place, field by field; the numbers are their nibbles (R171). -/
structure RawRec where
  source : Nat
  seq : Seq
  start : Nat
  duration : Nat
  units : Nat
  callType : Nat
  cause : Nat
  callingLen : Nat
  calledLen : Nat
  calling : List Nat
  called : List Nat
  cell : Option Nat
  trunk : Option Nat
  suppCount : Nat
  supp : List Nat
  deriving DecidableEq, Repr

/-- The archived form of a record: exactly its digits, its present ids and its supplementary codes (R53). -/
structure Rec where
  source : Nat
  seq : Seq
  start : Nat
  duration : Nat
  units : Nat
  callType : Nat
  cause : Nat
  calling : List Nat
  called : List Nat
  cell : Option Nat
  trunk : Option Nat
  supp : List Nat
  deriving DecidableEq, Repr

/-- What the codec keeps of the record appended or decoded last (R47). -/
structure PrevRec where
  seq : Seq
  start : Nat
  callType : Nat
  cause : Nat
  deriving DecidableEq, Repr

/-- The predictor stack: 8 slots, each EMPTY or a head of six digits, and TOP (R49). -/
structure Stack where
  slots : Vector (Option (List Nat)) 8
  top : Nat
  deriving DecidableEq, Repr

/-- The segment summary; `crc` is the CRC register before its final exclusive OR (R62, R74). -/
structure Summary where
  count : Nat
  bits : Nat
  firstSeq : Option Seq
  lastSeq : Option Seq
  minDay : Option Nat
  maxDay : Option Nat
  durSum : Nat
  unitsSum : Nat
  crc : Crc
  deriving DecidableEq, Repr

/-- A codec context (R47). -/
structure Codec where
  prev : Option PrevRec
  base : Nat
  widths : Three
  stack : Stack
  summary : Summary
  deriving DecidableEq, Repr

/-! ## Staging and the extent store -/

/-- A staging buffer not FREE: OPEN with its codec context, or SEALING (with its attempt and target extent) or FAILED with
its header values (R69). -/
inductive BufState where
  | opened (codec : Codec)
  | sealing (header : SegHeader) (attempt : Nat) (target : Option Nat)
  | failed (header : SegHeader)
  deriving DecidableEq, Repr

/-- A staging buffer that serves a file: the stream slot, the file number, the encoded body and the buffer's state (R69). -/
structure Staging where
  stream : Nat
  fileNo : Nat
  body : List Bool
  state : BufState
  deriving DecidableEq, Repr

/-- A chain of a port. -/
structure ChainRef where
  port : PortId
  chain : ChainNo
  deriving DecidableEq, Repr

/-- Who reads a segment: the job of a chain, or the scrub. -/
inductive JobRef where
  | chain (c : ChainRef)
  | scrub
  deriving DecidableEq, Repr

/-- The Segment Stager: the buffers not FREE, the buffer wait list and the seal wait list, whose buffers stand in
increasing seal serial (R69, R71, R78). -/
structure Stager where
  bufs : Table Staging
  wait : List ChainRef
  seals : List Nat
  deriving DecidableEq, Repr

/-- Who asked for a journal page READ: the start-up scan, or a JOURNAL_READ, absent when its chain has ended. -/
inductive PageReader where
  | scan
  | job (c : Option ChainRef)
  deriving DecidableEq, Repr

/-- An operation of a channel queue (R76). A READ's `again` says that it is the retry; a segment READ whose requester
has ended has none (R83). -/
inductive StoreOp where
  | segWrite (buf extent : Nat)
  | pageWrite
  | segRead (extent : Nat) (who : Option JobRef) (again : Bool)
  | headerRead (extent : Nat) (again : Bool)
  | pageRead (slot : Nat) (who : PageReader) (again : Bool)
  | erase (extent : Nat)
  | journalErase (jext : Fin 4)
  deriving DecidableEq, Repr

/-- A request on the place wait list: an operation for the channel it needs, or a waiting seal, which can use any channel
with a FREE extent. The places of several seals are alike: the seal that takes one is the first of the seal wait list
(R76, R78). -/
inductive PlaceReq where
  | op (channel : Channel) (op : StoreOp)
  | seal
  deriving DecidableEq, Repr

/-- The Extent Store Controller: the channel queues, head first, the place wait list and STORE_FULL (R76, R79). -/
structure Store where
  queues : Vector (List StoreOp) 4
  placeWait : List PlaceReq
  full : Bool
  deriving DecidableEq, Repr

/-! ## The catalogue -/

/-- A catalogue entry (R87), with its pin wait list and the requests granted from it whose jobs have not yet gone on (R93),
its count of DAMAGED entries asked for and not yet appended (R141), and for a RETIRING entry the serial of the EXPIRED or DISCARDED entry it waits for (R122). -/
structure Entry where
  state : EntryState
  seg : Option SegFields
  pins : Nat
  holds : Nat
  sealJournal : Option Nat
  verify : Option (Nat × Bool)
  pinWait : List ChainRef
  granted : List ChainRef
  reports : Nat
  retireJournal : Option Nat
  deriving DecidableEq, Repr

/-- The FREE entry: nothing present, every count 0 (R87). -/
def Entry.free : Entry :=
  { state := .free, seg := none, pins := 0, holds := 0, sealJournal := none, verify := none, pinWait := [],
    granted := [], reports := 0, retireJournal := none }

/-! ## Clock, policy and holds -/

/-- The clock state (R99). -/
inductive ClockState where
  | internal | following | holdover
  deriving DecidableEq, Repr

/-- The archive clock; `watchdog` counts the divider seconds since the last pulse, up to 2 (R99, R107). -/
structure Clock where
  value : Nat
  state : ClockState
  watchdog : Nat
  commitPending : Bool
  commitDays : Nat
  deriving DecidableEq, Repr

/-- A staged policy row (R104). -/
inductive Staged where
  | none
  | proposed (days : Nat) (proposer : PortId)
  | endorsed (days : Nat) (proposer endorser : PortId)
  deriving DecidableEq, Repr

/-- The Retention Unit's volatile state beside the clock: the staged rows and the last assigned hold id (R104, R110). -/
structure Retention where
  staged : Vector Staged 8
  lastHoldId : Nat
  deriving DecidableEq, Repr

/-! ## Expiry Scanner -/

/-- The scan state (R116). -/
inductive ScanState where
  | idle | scanning | paused
  deriving DecidableEq, Repr

/-- The Expiry Scanner (R116). -/
structure Scanner where
  state : ScanState
  position : Nat
  rescan : Bool
  daysPending : Nat
  retired : Nat
  waited : Nat
  deriving DecidableEq, Repr

/-! ## Jobs -/

/-- The decode context of a job: the records decoded, the body bits left, and the codec context with the running summary
(R67). -/
structure Decode where
  index : Nat
  rest : List Bool
  codec : Codec
  deriving DecidableEq, Repr

/-- Where a job stands with its segment: waiting for a pin, granted one from the wait list, waiting for a queue place,
its READ queued, waiting for a lane, or decoding (R128, R139). -/
inductive SegPhase where
  | waitPin
  | pinned
  | waitPlace
  | reading
  | waitLane (header : SegHeader) (body : List Bool)
  | decoding (header : SegHeader) (decode : Decode)
  deriving DecidableEq, Repr

/-- A segment under read and decode (R128, R139, R143). -/
structure SegJob where
  extent : Nat
  serial : Nat
  phase : SegPhase
  deriving DecidableEq, Repr

/-- The class of a record's sequence number, DUPLICATE aside (R22). -/
inductive SeqClass where
  | inWindow | farAhead | lateFill
  deriving DecidableEq, Repr

/-- A record whose checks are made and which waits to be taken: its values as presented, its class, the form to archive
(absent for an EXPIRED drop), whether a default changed it, whether it needs a new segment, and the places it needs in
the journal (R11, R29). -/
structure WaitRec where
  seq : Seq
  duration : Nat
  units : Nat
  cls : SeqClass
  archive : Option Rec
  changed : Bool
  needsBuf : Bool
  places : Nat
  deriving DecidableEq, Repr

/-- A feed: the file entry it names, that file's stream slot and source id, the buffer's places, the next place, what it
has counted, whether its file has left the table, whether it holds a lane, and its waiting record (R8 to R13). -/
structure Feed where
  file : Nat
  stream : Nat
  source : Nat
  places : Nat
  next : Nat
  accepted : Nat
  duplicates : Nat
  dropped : Nat
  clamped : Nat
  skipped : Nat
  beyond : Nat
  fileGone : Bool
  laneHeld : Bool
  waiting : Option WaitRec
  deriving DecidableEq, Repr

/-- A retrieval job (R125, R131). -/
structure Retrieval where
  source : Option Nat
  a : Nat
  b : Nat
  buf : Buf
  filled : Nat
  position : Option Nat
  start : Nat
  current : Option SegJob
  lastIndex : Option Nat
  projection : Option Projection
  whole : Nat
  passedOver : Nat
  failed : Nat
  delivered : Nat
  gone : Bool
  deriving DecidableEq, Repr

/-- A verify job (R139). -/
structure Verify where
  seg : SegJob
  journalPass : Bool
  deriving DecidableEq, Repr

/-- A journal read: the next serial, the buffer, the places filled and RELEASED_SKIPPED (R154). -/
structure JournalRead where
  serial : Nat
  buf : Buf
  filled : Nat
  skipped : Bool
  deriving DecidableEq, Repr

/-- The walk of a CATALOGUE_READ: its buffer, its filters, the next extent to examine and the places filled (R95). -/
structure CatalogueRead where
  buf : Buf
  source : Option Nat
  filter : Option EntryState
  next : Nat
  filled : Nat
  deriving DecidableEq, Repr

/-- The work of a descriptor that does not end in the step that takes it. -/
inductive Job where
  | feed (f : Feed)
  | retrieval (r : Retrieval)
  | verify (v : Verify)
  | journalRead (j : JournalRead)
  | catalogueRead (w : CatalogueRead)
  deriving DecidableEq, Repr

/-! ## Audit Unit -/

/-- A retrieval's failure report (R130, R142). -/
structure Report where
  extent : Nat
  serial : Nat
  failure : SegFailure
  deriving DecidableEq, Repr

/-- The Audit Unit: reports not yet taken, oldest first, and the scrub (R142, R143). -/
structure Audit where
  reports : List Report
  enable : Bool
  pointer : Nat
  passStart : Nat
  counts : PassCounts
  scrub : Option SegJob
  deriving DecidableEq, Repr

/-! ## Journal -/

/-- The state of a page buffer (R149). -/
inductive PageState where
  | free | gathering | ready | writing
  deriving DecidableEq, Repr

/-- A page buffer (R149). -/
structure PageBuf where
  state : PageState
  entries : List JEntry
  deriving DecidableEq, Repr

/-- The state of a journal extent (R150). -/
inductive JExtState where
  | erased | current | written | erasing
  deriving DecidableEq, Repr

/-- What happens beside the append of a waiting single entry. -/
inductive AppendNote where
  /-- nothing -/
  | plain
  /-- the serial becomes the catalogue entry's seal journal serial (R89, R97) -/
  | sealEntry (extent : Nat)
  /-- the seal rejoins the seal wait list (R81) -/
  | sealAgain (buf : Nat)
  /-- the buffer becomes FAILED and STORE is raised (R82) -/
  | sealFailed (buf : Nat)
  /-- the file becomes CLOSED (R20, R138) -/
  | fileClosed (file : Nat)
  /-- the entry's report pending count falls (R141) -/
  | reported (extent : Nat)
  deriving DecidableEq, Repr

/-- A request of the append wait list: a single entry, the GAP_DROPPED places of a chain's waiting record, or the policy
commit (R152). -/
inductive AppendReq where
  | entry (body : JBody) (note : AppendNote)
  | record (c : ChainRef) (places : Nat)
  | commit (places : Nat)
  deriving DecidableEq, Repr

/-- The Journal (R148 to R156); its release serial stands in Settings Memory. -/
structure Journal where
  next : Nat
  durable : Nat
  bufs : Vector PageBuf 2
  pending : List JEntry
  writePos : Nat
  lastSlot : Option Nat
  extents : Vector JExtState 4
  pageMap : Table (List Nat)
  failures : Nat
  low : Bool
  wait : List AppendReq
  reserved : Nat
  deriving DecidableEq, Repr

/-! ## Ports -/

/-- A port state (R157). -/
inductive PortState where
  | down | opened | draining | closed
  deriving DecidableEq, Repr

/-- A cell result (R158). -/
inductive CellResult where
  | taken | starting | busy | state | argument | torn
  deriving DecidableEq, Repr

/-- A chain state (R159). -/
inductive ChainState where
  | idle | running | waiting
  deriving DecidableEq, Repr

/-- The descriptor a chain executes (R160). -/
structure Desc where
  addr : Nat
  notify : Bool
  haltOnError : Bool
  job : Option Job
  deriving DecidableEq, Repr

/-- A chain engine: a RUNNING chain without a descriptor is fetching one at its next address (R159). -/
structure Chain where
  state : ChainState
  next : Nat
  desc : Option Desc
  deriving DecidableEq, Repr

/-- A chain at power-on and at a port reset (R159). -/
def Chain.idle : Chain := { state := .idle, next := 0, desc := none }

/-- The classes of notices, in the order of their codes (R164). -/
inductive NoticeClass where
  | chain | intake | archive
  deriving DecidableEq, Repr

/-- The kinds of notices, in the order of their codes (R164, R171). -/
inductive NoticeKind where
  | descriptorDone | chainHalted | haltedOnError | fetchTimeout | fileHalted | fileClosed
  | dayRoll | storeFull | journalLow | journalClear | holdover | damagedFound
  deriving DecidableEq, Repr

/-- The object of a notice (R164). -/
inductive NoticeObject where
  | none
  | chain (c : ChainNo) (addr : Nat)
  | file (source fileNo : Nat)
  | segment (extent serial : Nat)
  | day (d : Nat)
  deriving DecidableEq, Repr

/-- A port's notice area when set: its address and its class mask (R164). -/
structure NoticeArea where
  addr : Nat
  chain : Bool
  intake : Bool
  archive : Bool
  deriving DecidableEq, Repr

/-- The cell's word 0 between writes, its marks clear: cell command, chain number and class mask as last written. -/
structure CellWord where
  cmd : Byte
  chain : Byte
  mask : Byte
  deriving DecidableEq, Repr

/-- A port context (R157); `inReset` says that a function-level reset holds the port DOWN (R163). -/
structure Port where
  state : PortState
  inReset : Bool
  cell0 : CellWord
  cell1 : BitVec 64
  lastResult : CellResult
  cellCount : Nat
  chains : Vector Chain 4
  area : Option NoticeArea
  chainNotices : Nat
  intakeNotices : Nat
  archiveNotices : Nat
  active : Projection
  pendingProj : Projection
  interval : Nat
  tag : Nat
  deriving DecidableEq, Repr

/-- The projection that delivers everything (R132). -/
def Projection.everything : Projection :=
  { k1 := 15, k2 := 20, fillDigit := 0, cell := .deliver, trunk := .deliver, units := .deliver, supp := .deliver }

/-- A port at power-on (R132, R157, R158, R159, R164, R165). -/
def Port.reset : Port :=
  { state := .down, inReset := false, cell0 := ⟨0, 0, 0⟩, cell1 := 0, lastResult := .taken, cellCount := 0,
    chains := Vector.replicate 4 Chain.idle, area := none, chainNotices := 0, intakeNotices := 0, archiveNotices := 0,
    active := Projection.everything, pendingProj := Projection.everything, interval := 16, tag := 0 }

/-- The Service Arbiter: lane holders, G, each port's waiting chains, oldest first, and the scrub's request. The service
intervals and virtual tags stand with their ports (R165). -/
structure Arbiter where
  lanes : Vector (Option JobRef) 4
  g : Nat
  waiting : Vector (List ChainNo) 4
  scrubWaits : Bool
  deriving DecidableEq, Repr

/-! ## Start-up -/

/-- Where start-up stands: scanning the journal, or reading headers (R170). -/
inductive BootStage where
  | scan | rebuild
  deriving DecidableEq, Repr

/-- What start-up has found: the next slot to scan, what each scanned slot holds, the next extent each channel reads, the
header read results (a header, or nothing for NO_HEADER; ERASED is not listed), and the counts for RESTART (R96, R156). -/
structure Boot where
  stage : BootStage
  slot : Nat
  scanned : Table (List StoredEntry)
  nextHeader : Vector Nat 4
  headers : Table (Option SegHeader)
  newestFound : Nat
  lost : Nat
  restored : Nat
  recovered : Nat
  incomplete : Nat
  deriving DecidableEq, Repr

/-- Nothing found yet. -/
def Boot.empty : Boot :=
  { stage := .scan, slot := 0, scanned := [], nextHeader := Vector.replicate 4 0, headers := [],
    newestFound := 0, lost := 0, restored := 0, recovered := 0, incomplete := 0 }

/-! ## What leaves the part -/

/-- Completion statuses (R160, R171). -/
inductive Status where
  | done | donePartial | illegalCommand | refusedRole | refusedArgument | refusedState | refusedFull | refusedJournal
  | haltedFault | fetchTimeout | stopped
  deriving DecidableEq, Repr

/-- Completion flags (R171). -/
structure Flags where
  trailerTaken : Bool
  clamped : Bool
  cursorGone : Bool
  releasedSkipped : Bool
  readFailed : Bool
  deriving DecidableEq, Repr

/-- No flag set. -/
def Flags.none : Flags :=
  { trailerTaken := false, clamped := false, cursorGone := false, releasedSkipped := false, readFailed := false }

/-- The state a completion reports at byte 35, where its rule reports one (R171). -/
inductive StateAfter where
  | file (s : FileState)
  | entry (s : EntryState)
  deriving DecidableEq, Repr

/-- The result fields of a completion, as the command's rule lists them. -/
inductive Results where
  | none
  | slot (n : Nat)
  | feed (accepted duplicates dropped clamped skipped beyond : Nat)
  | masks (mask : BitVec 8) (sticky : BitVec 9)
  | widths (force : Three) (tolerance : Nat)
  | gapCount (n : Nat)
  | nextExtent (n : Nat)
  | retrieval (whole passedOver failed delivered : Nat) (cursor : Option Cursor) (settled : Nat)
  | staged (days : Nat) (before : Staged)
  | hold (id covered tooLate : Nat)
  | holdsReleased (n uncovered freed : Nat)
  | clock (applied : Nat)
  | verify (outcomes : FieldOutcomes) (failure : Option SegFailure) (restored : Bool)
  | scrub (pointer : Nat) (counts : PassCounts)
  | nextSerial (n : Nat)
  | release (serial released freePlaces : Nat)
  | interval (n : Nat)
  deriving DecidableEq, Repr

/-- A completion word (R171). -/
structure Completion where
  status : Status
  flags : Flags
  mismatch : Bool
  stateAfter : Option StateAfter
  countDone : Nat
  results : Results
  deriving DecidableEq, Repr

/-- The file part of a stream context record (R45). -/
structure FileShown where
  fileNo : Nat
  state : FileState
  owner : PortId
  presented : Nat
  accepted : Nat
  duplicates : Nat
  dropped : Nat
  clamped : Nat
  skipped : Nat
  beyond : Nat
  durSum : Nat
  unitsSum : Nat
  deriving DecidableEq, Repr

/-- A stream context record (R45). -/
structure ContextShown where
  slot : Nat
  busy : Bool
  source : Nat
  e : Seq
  occupancy : Nat
  gapCount : Nat
  mask : BitVec 8
  sticky : BitVec 9
  lastFault : Option LastFault
  widths : Three
  force : Three
  tolerance : Nat
  lockTd : LockState
  lockDu : LockState
  lockCu : LockState
  file : Option FileShown
  stack : Option Stack
  deriving DecidableEq, Repr

/-- An account summary (R32). -/
structure AccountShown where
  source : Nat
  e : Seq
  advance : Nat
  occupancy : Nat
  gapCount : Nat
  dropped : Nat
  window : BitVec 256
  deriving DecidableEq, Repr

/-- A catalogue entry as CATALOGUE_READ shows it (R95). -/
structure EntryShown where
  extent : Nat
  state : EntryState
  seg : Option SegFields
  pins : Nat
  holds : Nat
  retainUntil : Option Nat
  verify : Option (Nat × Bool)
  deriving DecidableEq, Repr

/-- An identification block (R167, R171). -/
structure IdentShown where
  port : PortId
  roles : RoleSet
  ext : Bool
  floor : Nat
  deriving DecidableEq, Repr

/-- The state counts of the staging buffers (R167). -/
structure BufCounts where
  free : Nat
  opened : Nat
  sealing : Nat
  failed : Nat
  deriving DecidableEq, Repr

/-- The six places of STATUS_READ (R167). -/
inductive StatusPlace where
  | part (starting ready : Bool) (value today : Nat) (state : ClockState) (commitPending storeFull : Bool)
      (scanner : Scanner)
  | journal (free : Nat) (low full : Bool) (oldest durable release next failures : Nat)
  | policy (rows : Vector Nat 8) (staged : Vector Staged 8) (holds unknown : Nat)
  | scrub (enable : Bool) (pointer passStart : Nat) (counts : PassCounts)
  | port (state : PortState) (roles : RoleSet) (chains : Vector ChainState 4) (interval tag g chainNotices intakeNotices
      archiveNotices : Nat) (projections : Option (Projection × Projection))
  | resources (streams files : Nat) (bufs : BufCounts) (depths : Vector Nat 4) (lanesHeld : Nat)
  deriving DecidableEq, Repr

/-- What the part writes into a buffer: one place, or the two of a stream context record. -/
inductive Place where
  | record (r : Rec)
  | context (c : ContextShown)
  | account (a : AccountShown)
  | gaps (g : List Gap)
  | entry (e : EntryShown)
  | journal (e : JEntry)
  | lost (serial : Nat)
  | status (p : StatusPlace)
  | ident (i : IdentShown)
  deriving DecidableEq, Repr

/-- A posted write to a server's memory, or an MSI. The completion word is written at its descriptor's address plus 32. -/
inductive Output where
  | completion (port : PortId) (addr : Nat) (word : Completion)
  | place (port : PortId) (addr : Nat) (content : Place)
  | notice (port : PortId) (addr : Nat) (cls : NoticeClass) (kind : NoticeKind) (object : NoticeObject)
      (time count : Nat)
  | msi (port : PortId) (cls : NoticeClass)
  deriving DecidableEq, Repr

/-! ## The state -/

/-- The state of the part. `pending` is the queue of commands waiting, first in, first out; `out` is what the part has
posted to the servers, oldest first; both are the model's own. -/
structure State where
  pending : List Instr
  out : List Output
  power : Power
  straps : StrapPins
  settings : Settings
  flash : Flash
  streams : Table Stream
  files : Table FileEntry
  recons : Table Recon
  stager : Stager
  store : Store
  catalogue : Table Entry
  clock : Clock
  retention : Retention
  scanner : Scanner
  audit : Audit
  journal : Journal
  ports : Vector Port 4
  arbiter : Arbiter
  boot : Boot
  deriving DecidableEq, Repr

/-- The Journal at power-on, before its scan (R149, R150). -/
def Journal.reset : Journal :=
  { next := 1, durable := 0, bufs := Vector.replicate 2 ⟨.free, []⟩, pending := [], writePos := 0, lastSlot := none,
    extents := #v[.current, .erased, .erased, .erased], pageMap := [], failures := 0, low := false, wait := [],
    reserved := 0 }

/-- All pass counts 0 (R143). -/
def PassCounts.zero : PassCounts :=
  { considered := 0, verified := 0, passed := 0, damaged := 0, restored := 0, busy := 0 }

/-- The part with every volatile piece at its power-on value, given what power-off does not take from it: the queue, the
posted writes, the straps as last latched, Settings Memory and the flash. That the clock value stands at 0 from here until
the end of the journal scan sets it (R99, R170) is the model's choice (log entry 1). -/
def State.powerOnValues (pending : List Instr) (out : List Output) (straps : StrapPins) (settings : Settings)
    (flash : Flash) : State :=
  { pending, out, power := .off, straps, settings, flash, streams := [], files := [], recons := [],
    stager := { bufs := [], wait := [], seals := [] },
    store := { queues := Vector.replicate 4 [], placeWait := [], full := false },
    catalogue := [],
    clock := { value := 0, state := .internal, watchdog := 0, commitPending := false, commitDays := 0 },
    retention := { staged := Vector.replicate 8 .none, lastHoldId := 0 },
    scanner := { state := .idle, position := 0, rescan := false, daysPending := 0, retired := 0, waited := 0 },
    audit := { reports := [], enable := false, pointer := 0, passStart := 0, counts := PassCounts.zero, scrub := none },
    journal := Journal.reset, ports := Vector.replicate 4 Port.reset,
    arbiter := { lanes := Vector.replicate 4 none, g := 0, waiting := Vector.replicate 4 [], scrubWaits := false },
    boot := Boot.empty }

/-- The machine right after reset: the part as shipped, before its first power-on (R169; log entry 1). -/
def State.reset : State :=
  State.powerOnValues [] [] { roles := Vector.replicate 4 ⟨false, false, false⟩, floor := 0, ext := false }
    Settings.shipped { extents := [], pages := [] }

end Sys2Proof.Machine
end

