-- ==== Sys2Proof/Machine/Flags.lean ====
section
/-!
DEFINITION. Flags and codes: fault mask and sticky flags, role sets, class masks, completion flags, and the codes of R171.
-/

namespace Sys2Proof.Machine

/-- Code of a fault kind: its bit in the fault mask and in the sticky flags (R171). -/
def FaultKind.code : FaultKind → Nat
  | .framing => 0 | .source => 1 | .digits => 2 | .range => 3 | .skew => 4 | .duplicate => 5 | .expired => 6
  | .trailerFile => 7 | .store => 8

/-- Whether a fault mask masks a kind; STORE has no position and is never masked (R33). -/
def masked (mask : BitVec 8) (k : FaultKind) : Bool := mask.getLsbD (FaultKind.code k)

/-- The sticky flags with a kind's flag set (R34). -/
def raised (sticky : BitVec 9) (k : FaultKind) : BitVec 9 := sticky ||| (1#9 <<< FaultKind.code k)

/-- The mask in which every maskable kind is masked (R45). -/
def fullMask : BitVec 8 := 0xFF

/-- A role a command requires (12.7). -/
inductive Role where
  | intake | retrieval | audit | retrievalOrAudit | anyRole | anyPort
  deriving DecidableEq, Repr

/-- Whether a role set may run a command of a role (R160, 12.7). -/
def Role.admits : Role → RoleSet → Bool
  | .intake, r => r.intake
  | .retrieval, r => r.retrieval
  | .audit, r => r.audit
  | .retrievalOrAudit, r => r.retrieval || r.audit
  | .anyRole, r => r.intake || r.retrieval || r.audit
  | .anyPort, _ => true

/-- A role set as its byte (R171). -/
def roleByte (r : RoleSet) : Nat := r.intake.toNat + 2 * r.retrieval.toNat + 4 * r.audit.toNat

/-- Whether a status is an error (R160). -/
def Status.isError : Status → Bool
  | .done | .donePartial => false
  | _ => true

/-- Code of a status; never zero (R171). -/
def Status.code : Status → Nat
  | .done => 0x01 | .donePartial => 0x02 | .illegalCommand => 0x10 | .refusedRole => 0x11 | .refusedArgument => 0x12
  | .refusedState => 0x13 | .refusedFull => 0x14 | .refusedJournal => 0x15 | .haltedFault => 0x16
  | .fetchTimeout => 0x17 | .stopped => 0x18

/-- The completion flags as their byte (R171). -/
def Flags.byte (f : Flags) : Nat :=
  f.trailerTaken.toNat + 2 * f.clamped.toNat + 4 * f.cursorGone.toNat + 8 * f.releasedSkipped.toNat
    + 16 * f.readFailed.toNat

/-- Code of a cell result (R171). -/
def CellResult.code : CellResult → Nat
  | .taken => 0 | .starting => 1 | .busy => 2 | .state => 3 | .argument => 4 | .torn => 5

/-- Code of a port state (R171). -/
def PortState.code : PortState → Nat
  | .down => 0 | .opened => 1 | .draining => 2 | .closed => 3

/-- Code of a chain state (R171). -/
def ChainState.code : ChainState → Nat
  | .idle => 0 | .running => 1 | .waiting => 2

/-- Code of a file state (R171). -/
def FileState.code : FileState → Nat
  | .opened => 0 | .halted => 1 | .orphaned => 2 | .closing => 3 | .closed => 4

/-- Code of an entry state (R171). -/
def EntryState.code : EntryState → Nat
  | .free => 0 | .reserved => 1 | .bad => 2 | .writing => 3 | .journaling => 4 | .sealed => 5 | .expiryWait => 6
  | .damaged => 7 | .retiring => 8 | .erasing => 9

/-- The entry state a code names (R171). -/
def EntryState.ofCode : Nat → Option EntryState
  | 0 => some .free | 1 => some .reserved | 2 => some .bad | 3 => some .writing | 4 => some .journaling
  | 5 => some .sealed | 6 => some .expiryWait | 7 => some .damaged | 8 => some .retiring | 9 => some .erasing
  | _ => none

/-- Code of a notice class (R171). -/
def NoticeClass.code : NoticeClass → Nat
  | .chain => 0 | .intake => 1 | .archive => 2

/-- Code of a notice kind (R171). -/
def NoticeKind.code : NoticeKind → Nat
  | .descriptorDone => 1 | .chainHalted => 2 | .haltedOnError => 3 | .fetchTimeout => 4 | .fileHalted => 5
  | .fileClosed => 6 | .dayRoll => 7 | .storeFull => 8 | .journalLow => 9 | .journalClear => 10 | .holdover => 11
  | .damagedFound => 12

/-- The class of a notice kind (R164). -/
def NoticeKind.cls : NoticeKind → NoticeClass
  | .descriptorDone | .chainHalted | .haltedOnError | .fetchTimeout => .chain
  | .fileHalted | .fileClosed => .intake
  | _ => .archive

/-- Code of a journal kind (R171). -/
def JBody.code : JBody → Nat
  | .sealed _ => 1 | .recoveredSeal _ => 2 | .expired .. => 3 | .discarded .. => 4 | .damaged .. => 5
  | .verified .. => 6 | .scrubPass .. => 7 | .holdPlaced .. => 8 | .holdReleased .. => 9 | .policyCommitted .. => 10
  | .policyLapsed .. => 11 | .policyRestored .. => 12 | .fileClosed _ => 13 | .gapDropped .. => 14 | .clockSet .. => 15
  | .badExtent .. => 16 | .restart .. => 17

/-- Number of a lock state in R64's order. -/
def LockState.number : LockState → Nat
  | .untrained => 0 | .locked => 1 | .relocked => 2 | .forced => 3

/-- Number of a staged row's state in R104's order. -/
def Staged.number : Staged → Nat
  | .none => 0 | .proposed .. => 1 | .endorsed .. => 2

/-- A notice area from an address and a class mask byte: bit 0 CHAIN, bit 1 INTAKE, bit 2 ARCHIVE (R171). -/
def areaOf (addr : Nat) (mask : Byte) : NoticeArea :=
  { addr, chain := mask.getLsbD 0, intake := mask.getLsbD 1, archive := mask.getLsbD 2 }

/-- Whether an area's mask enables a class (R164). -/
def NoticeArea.enables (a : NoticeArea) : NoticeClass → Bool
  | .chain => a.chain
  | .intake => a.intake
  | .archive => a.archive

end Sys2Proof.Machine
end

