-- ==== Sys2Proof/Machine/Sequence.lean ====
section
/-!
DEFINITION. Sequence accounting: the sequence test and the marking of a stream's account (R21 to R31).
-/

namespace Sys2Proof.Machine

/-- The account at STREAM_OPEN (R21). -/
def Account.fresh (first : Seq) : Account := { e := first, window := 0, gaps := [], advance := 0, dropped := 0 }

/-- Whether a sequence number lies in a gap. -/
def Gap.holds (g : Gap) (s : Seq) : Bool := decide ((s - g.first).toNat ≤ (g.last - g.first).toNat)

/-- The window's set positions (R21). -/
def Account.occupancy (a : Account) : Nat := (List.range 256).countP (fun i => a.window.getLsbD i)

/-- The sequence test; none for DUPLICATE (R22). -/
def classify (a : Account) (s : Seq) : Option SeqClass :=
  let d := (s - a.e).toNat
  if d ≤ 255 then
    if a.advance + d ≥ 2 ^ 32 then none else if a.window.getLsbD d then none else some .inWindow
  else if d < 2 ^ 31 then
    if a.advance + d ≥ 2 ^ 32 then none else some .farAhead
  else if a.gaps.any (·.holds s) then some .lateFill else none

/-- A gap that leaves the list, and why (R27, R28). -/
structure Drop where
  gap : Gap
  cause : DropCause
  deriving DecidableEq, Repr

/-- The window advances by one while position 0 is set, at most `n` times (R24, step 2). -/
def advanceWindow : Nat → Account → Account
  | 0, a => a
  | n + 1, a =>
    if a.window.getLsbD 0 then
      advanceWindow n { a with window := a.window >>> 1, e := a.e + 1, advance := a.advance + 1 }
    else a

/-- A gap list after the removal that R27 makes of a list of 33 entries. -/
def trimGaps (gaps : List Gap) : List Gap × List Drop :=
  if 32 < gaps.length then
    match gaps with
    | g :: t => (t, [⟨g, .overflow⟩])
    | [] => ([], [])
  else (gaps, [])

/-- The entries that the ageing test leaves and removes, oldest first (R28). -/
def ageGaps (e : Seq) : List Gap → List Gap × List Drop
  | [] => ([], [])
  | g :: t =>
    if 2 ^ 30 < (e - g.first).toNat then ((ageGaps e t).1, ⟨g, .age⟩ :: (ageGaps e t).2) else (g :: t, [])

/-- The runs of clear numbers among the first `k` of a window, as offsets from E, from position `i` with `n` positions to
go and a run begun at `start` (R25, steps 1 and 2). -/
def runsFrom (w : BitVec 256) (k : Nat) : Nat → Nat → Option Nat → List (Nat × Nat)
  | 0, _, some lo => [(lo, k - 1)]
  | 0, _, none => if 256 < k then [(256, k - 1)] else []
  | n + 1, i, start =>
    if w.getLsbD i then
      match start with
      | some lo => (lo, i - 1) :: runsFrom w k n (i + 1) none
      | none => runsFrom w k n (i + 1) none
    else runsFrom w k n (i + 1) (some (start.getD i))

/-- The runs of clear numbers that leave the window when it moves forward by `k` (R25). -/
def clearRuns (w : BitVec 256) (k : Nat) : List (Nat × Nat) := runsFrom w k (min k 256) 0 none

/-- A run of offsets from E as a gap. -/
def runGap (e : Seq) (r : Nat × Nat) : Gap := { first := e + BitVec.ofNat 32 r.1, last := e + BitVec.ofNat 32 r.2 }

/-- Gaps appended one after another as the newest, each subject to R27. -/
def appendGaps : List Gap → List Gap → List Gap × List Drop
  | gaps, [] => (gaps, [])
  | gaps, g :: t =>
    let one := trimGaps (gaps ++ [g])
    let rest := appendGaps one.1 t
    (rest.1, one.2 ++ rest.2)

/-- The gap list after the runs of a shift: the first run merges with the newest entry where it follows it at once
(R25, step 2). -/
def addRuns (gaps : List Gap) (runs : List Gap) : List Gap × List Drop :=
  match gaps.getLast?, runs with
  | some newest, r :: t =>
    if r.first = newest.last + 1 then appendGaps (gaps.dropLast ++ [{ newest with last := r.last }]) t
    else appendGaps gaps runs
  | _, _ => appendGaps gaps runs

/-- The pieces a late fill leaves of the gap it lies in (R26). -/
def cutGap (g : Gap) (s : Seq) : List Gap :=
  if g.first = g.last then []
  else if s = g.first then [{ g with first := g.first + 1 }]
  else if s = g.last then [{ g with last := g.last - 1 }]
  else [{ first := g.first, last := s - 1 }, { first := s + 1, last := g.last }]

/-- The gap list with a number cut from the gap it lies in (R26). -/
def cutGaps (s : Seq) : List Gap → List Gap
  | [] => []
  | g :: t => if g.holds s then cutGap g s ++ t else g :: cutGaps s t

/-- The ageing test, made where E has changed, and the count of dropped gaps brought up to date (R27, R28). -/
def finishMark (before : Seq) (a : Account) (drops : List Drop) : Account × List Drop :=
  let aged := if a.e = before then (a.gaps, []) else ageGaps a.e a.gaps
  let all := drops ++ aged.2
  ({ a with gaps := aged.1, dropped := saturate max32 (a.dropped + all.length) }, all)

/-- The marking of a record of class IN_WINDOW (R24). -/
def markInWindow (a : Account) (s : Seq) : Account × List Drop :=
  let d := (s - a.e).toNat
  finishMark a.e (advanceWindow 256 { a with window := a.window ||| (1#256 <<< d) }) []

/-- The marking of a record of class FAR_AHEAD (R25). -/
def markFarAhead (a : Account) (s : Seq) : Account × List Drop :=
  let k := (s - a.e).toNat - 255
  let listed := addRuns a.gaps ((clearRuns a.window k).map (runGap a.e))
  let kept := if k < 256 then a.window >>> k else 0
  finishMark a.e
    (advanceWindow 256 { a with e := a.e + BitVec.ofNat 32 k, advance := a.advance + k, gaps := listed.1,
                                window := kept ||| (1#256 <<< 255) }) listed.2

/-- The marking of a record of class LATE_FILL (R26). -/
def markLateFill (a : Account) (s : Seq) : Account × List Drop :=
  let listed := trimGaps (cutGaps s a.gaps)
  finishMark a.e { a with gaps := listed.1 } listed.2

/-- The marking of a record by its class: the account after it, and the gaps it removes in the order of the removals
(R23 to R29). -/
def mark (a : Account) (c : SeqClass) (s : Seq) : Account × List Drop :=
  match c with
  | .inWindow => markInWindow a s
  | .farAhead => markFarAhead a s
  | .lateFill => markLateFill a s

end Sys2Proof.Machine
end

