-- ==== Sys2Proof/Machine/Checks.lean ====
section
/-!
DEFINITION. Record Check: the ordered checks of a data record and their masked defaults (R34 to R42).
-/

namespace Sys2Proof.Machine

/-- What the checks read: the stream's source id, mask and account, the clock value, and the active days of the stream's
class with 0 read as 4,096. -/
structure CheckInput where
  source : Nat
  mask : BitVec 8
  account : Account
  clock : Nat
  days : Nat
  deriving DecidableEq, Repr

/-- How a record comes out of the checks (R10, R34). -/
inductive CheckEnd where
  | halt (k : FaultKind)
  | dropSource
  | duplicate
  | dropExpired (c : SeqClass)
  | accept (c : SeqClass)
  deriving DecidableEq, Repr

/-- The checks made: the sticky flags, the record as the defaults left it, whether one changed it, and its outcome. -/
structure Checked where
  sticky : BitVec 9
  record : RawRec
  changed : Bool
  result : CheckEnd
  deriving DecidableEq, Repr

/-- The condition of DIGITS (R38). -/
def badDigits (r : RawRec) : Bool :=
  decide (15 < r.callingLen) || decide (20 < r.calledLen)
    || (r.calling.take (min r.callingLen 15)).any (fun d => decide (9 < d))
    || (r.called.take (min r.calledLen 20)).any (fun d => decide (9 < d))

/-- A nibble above 9 made 0 (R38). -/
def fixDigit (d : Nat) : Nat := if 9 < d then 0 else d

/-- The masked default of DIGITS (R38). -/
def fixDigits (r : RawRec) : RawRec :=
  { r with
    callingLen := min r.callingLen 15, calledLen := min r.calledLen 20,
    calling := (r.calling.take (min r.callingLen 15)).map fixDigit ++ r.calling.drop (min r.callingLen 15),
    called := (r.called.take (min r.calledLen 20)).map fixDigit ++ r.called.drop (min r.calledLen 20) }

/-- The condition of RANGE (R39). -/
def badRange (r : RawRec) : Bool :=
  decide (16777215 < r.duration) || decide (15 < r.callType) || decide (4 < r.suppCount)
    || (match r.cell with | some c => decide (2 ^ 28 ≤ c) | none => false)

/-- The masked default of RANGE (R39). -/
def fixRange (r : RawRec) : RawRec :=
  { r with duration := min r.duration 16777215, callType := min r.callType 15, suppCount := min r.suppCount 4,
           cell := r.cell.map (fun c => min c (2 ^ 28 - 1)) }

/-- The condition of SKEW (R40). -/
def skewed (clock : Nat) (r : RawRec) : Bool := decide (clock + 172800 < r.start)

/-- The condition of EXPIRED (R42). -/
def expired (clock days : Nat) (r : RawRec) : Bool := decide (dayOf r.start + days < dayOf clock)

/-- EXPIRED, the last check (R42). -/
def checkExpired (c : CheckInput) (sticky : BitVec 9) (r : RawRec) (changed : Bool) (cls : SeqClass) : Checked :=
  if expired c.clock c.days r then
    ⟨raised sticky .expired, r, changed, if masked c.mask .expired then .dropExpired cls else .halt .expired⟩
  else ⟨sticky, r, changed, .accept cls⟩

/-- The sequence test, and DUPLICATE where it finds one (R22, R41). -/
def checkSequence (c : CheckInput) (sticky : BitVec 9) (r : RawRec) (changed : Bool) : Checked :=
  match classify c.account r.seq with
  | some cls => checkExpired c sticky r changed cls
  | none =>
    ⟨raised sticky .duplicate, r, changed, if masked c.mask .duplicate then .duplicate else .halt .duplicate⟩

/-- SKEW (R40). -/
def checkSkew (c : CheckInput) (sticky : BitVec 9) (r : RawRec) (changed : Bool) : Checked :=
  if skewed c.clock r then
    if masked c.mask .skew then checkSequence c (raised sticky .skew) r changed
    else ⟨raised sticky .skew, r, changed, .halt .skew⟩
  else checkSequence c sticky r changed

/-- RANGE (R39). -/
def checkRange (c : CheckInput) (sticky : BitVec 9) (r : RawRec) (changed : Bool) : Checked :=
  if badRange r then
    if masked c.mask .range then checkSkew c (raised sticky .range) (fixRange r) true
    else ⟨raised sticky .range, r, changed, .halt .range⟩
  else checkSkew c sticky r changed

/-- DIGITS (R38). -/
def checkDigits (c : CheckInput) (sticky : BitVec 9) (r : RawRec) : Checked :=
  if badDigits r then
    if masked c.mask .digits then checkRange c (raised sticky .digits) (fixDigits r) true
    else ⟨raised sticky .digits, r, false, .halt .digits⟩
  else checkRange c sticky r false

/-- The checks of a data record in their fixed order, SOURCE first (R34, R37). -/
def checkRecord (c : CheckInput) (sticky : BitVec 9) (r : RawRec) : Checked :=
  if r.source ≠ c.source then
    ⟨raised sticky .source, r, false, if masked c.mask .source then .dropSource else .halt .source⟩
  else checkDigits c sticky r

/-- The archived form of a record as the checks left it (R53). -/
def archived (r : RawRec) : Rec :=
  { source := r.source, seq := r.seq, start := r.start, duration := r.duration, units := r.units,
    callType := r.callType, cause := r.cause, calling := r.calling.take r.callingLen,
    called := r.called.take r.calledLen, cell := r.cell, trunk := r.trunk, supp := r.supp.take r.suppCount }

end Sys2Proof.Machine
end

