-- ==== Sys2Proof/Config.lean ====
section
/-!
DEFINITION. What the spec leaves to the implementation: free values. None has a body, so no proof can see one.
-/

namespace Sys2Proof

/-- Vendor code of the identification block; the spec gives none (R167, R171; log entry 3). -/
opaque Config.vendorCode : BitVec 32

/-- Family code of the identification block; the spec gives none (R167, R171; log entry 3). -/
opaque Config.familyCode : BitVec 16

/-- Revision of the identification block; the spec gives none (R167, R171; log entry 3). -/
opaque Config.revisionCode : BitVec 8

/-- Code of a lock state in the stream context record, from its number in the order UNTRAINED, LOCKED, RELOCKED,
FORCED; R171 lists no codes for it (log entry 4). -/
opaque Config.lockStateCode : Nat → BitVec 8

/-- Code of a compared field's outcome (0 EQUAL, 1 DIFFERENT) in the completion of VERIFY; R171 lists none (log entry 4). -/
opaque Config.fieldOutcomeCode : Nat → BitVec 8

/-- Code of a failure cause (1 READ_FAILURE, 2 DECODE_FAILURE) in the completion of VERIFY; R171 lists none (log
entry 4). An absent cause is written as zero (R171) and has no code. -/
opaque Config.failureCauseCode : Nat → BitVec 8

/-- Code of a staged row's state (0 NONE, 1 PROPOSED, 2 ENDORSED) in the completion of POLICY_PROPOSE; R171 lists none
(log entry 4). -/
opaque Config.stagedCode : Nat → BitVec 8

/-- What a handling code of a PROJECTION_SET descriptor names, as a number: 0 DELIVER, 1 ABSENT, 2 FILL, 3 EMPTY,
anything else nothing; R171 lists no codes (log entry 4). -/
opaque Config.handlingNamed : BitVec 8 → Nat

/-- The byte that stands at an offset of a STATUS_READ place: from the place's number, the fields' values in their order
and the offset. R167 gives the order and no widths (log entry 5). -/
opaque Config.statusByte : Nat → List Nat → Nat → BitVec 8

/-- The byte that stands at an offset of a journal entry's kind fields: from the kind's code, the fields' values in their
order and the offset. The owning rules give the order and no widths (R148, R171; log entry 5). -/
opaque Config.kindFieldByte : Nat → List Nat → Nat → BitVec 8

/-- The start time a decode rebuilds where the previous start plus the difference falls outside 0 to 2^32 - 1, which only
a damaged body does; R67 states no value and R68 no failure for it (log entry 7). -/
opaque Config.startOutOfRange : Int → BitVec 32

end Sys2Proof
end

