-- ==== Sys2Proof/Machine/Bits.lean ====
section
/-!
DEFINITION. Bit fields, byte order and the CRC of the part.
-/

namespace Sys2Proof.Machine

/-- The number of binary digits of a value, 1 for 0 (00_scope, Conventions). -/
def bitsOf (v : Nat) : Nat := if v = 0 then 1 else Nat.log2 v + 1

/-- `n` as `w` bits, most significant first (R53). -/
def toBits : Nat → Nat → List Bool
  | 0, _ => []
  | w + 1, n => n.testBit w :: toBits w n

/-- The number whose bits these are, most significant first. -/
def fromBits (l : List Bool) : Nat := l.foldl (fun a b => 2 * a + b.toNat) 0

/-- The number in the next `w` bits and what follows them; none where fewer than `w` are left. -/
def readBits (w : Nat) (l : List Bool) : Option (Nat × List Bool) :=
  if w ≤ l.length then some (fromBits (l.take w), l.drop w) else none

/-- `n` as `w` bytes, least significant first (R171). -/
def leBytes : Nat → Nat → List Byte
  | 0, _ => []
  | w + 1, n => BitVec.ofNat 8 n :: leBytes w (n / 256)

/-- The number whose bytes these are, least significant first (R171). -/
def fromLe : List Byte → Nat
  | [] => 0
  | b :: t => b.toNat + 256 * fromLe t

/-- The number in `len` bytes at offset `off` (R171). -/
def field (bytes : List Byte) (off len : Nat) : Nat := fromLe ((bytes.drop off).take len)

/-- The byte at an offset; 0 past the end. -/
def byteAt (bytes : List Byte) (off : Nat) : Byte := bytes.getD off 0

/-- The two digits of each byte, first digit in the high nibble (R171). -/
def nibbles : List Byte → List Nat
  | [] => []
  | b :: t => b.toNat / 16 :: b.toNat % 16 :: nibbles t

/-- Digits packed two to a byte, first digit in the high nibble, an odd last digit beside a 0 (R171). -/
def packDigits : List Nat → List Byte
  | [] => []
  | [d] => [BitVec.ofNat 8 (16 * d)]
  | d :: e :: t => BitVec.ofNat 8 (16 * d + e) :: packDigits t

/-- Bytes cut or filled with zeros to a length. -/
def padTo (n : Nat) (bytes : List Byte) : List Byte := bytes.take n ++ List.replicate (n - bytes.length) 0

/-- One step of the reflected CRC register with generator 0xEDB88320 (R74). -/
def crcBit (c : Crc) : Crc := if c.getLsbD 0 then (c >>> 1) ^^^ 0xEDB88320#32 else c >>> 1

/-- The register after `n` steps. -/
def crcBits : Nat → Crc → Crc
  | 0, c => c
  | n + 1, c => crcBits n (crcBit c)

/-- A byte combined into the register, least significant bit first (R74). -/
def crcByte (c : Crc) (b : Byte) : Crc := crcBits 8 (c ^^^ b.setWidth 32)

/-- The register extended over a sequence of bytes. -/
def crcExtend (c : Crc) (bytes : List Byte) : Crc := bytes.foldl crcByte c

/-- The register's value before any byte (R74). -/
def crcInit : Crc := 0xFFFFFFFF#32

/-- The CRC that a register gives when every byte has been taken (R74). -/
def crcFinish (c : Crc) : Crc := c ^^^ 0xFFFFFFFF#32

/-- The CRC-32 of a sequence of bytes (R74). -/
def crc32 (bytes : List Byte) : Crc := crcFinish (crcExtend crcInit bytes)

end Sys2Proof.Machine
end

