-- ==== Sys2Proof/Machine/Codec.lean ====
section
/-!
DEFINITION. The Record Codec: the predictor stack, the encoded record, the segment summary, width training and decoding
(R47 to R68).
-/

namespace Sys2Proof.Machine

/-! ## Predictor stack -/

/-- The stack of a segment that opens (R49). -/
def Stack.empty : Stack := { slots := Vector.replicate 8 none, top := 0 }

/-- The slot at a depth (R49). -/
def Stack.slotAt (st : Stack) (depth : Nat) : Fin 8 := ⟨(st.top + depth) % 8, Nat.mod_lt _ (by decide)⟩

/-- What stands at a depth: a head, or nothing where the slot is EMPTY. -/
def Stack.at_ (st : Stack) (depth : Nat) : Option (List Nat) := st.slots[(st.slotAt depth).val]

/-- The smallest depth whose slot holds a head (R50). -/
def Stack.lookup (st : Stack) (head : List Nat) : Option Nat :=
  (List.range 8).find? (fun i => st.at_ i == some head)

/-- The stack after a hit at a depth: depth 0 and that depth exchanged (R50). -/
def Stack.hit (st : Stack) (depth : Nat) : Stack :=
  { st with slots := (st.slots.set (st.slotAt 0).val (st.at_ depth)).set (st.slotAt depth).val (st.at_ 0) }

/-- The stack after a miss: its head pushed (R51). -/
def Stack.push (st : Stack) (head : List Nat) : Stack :=
  let moved : Stack := { st with top := (st.top + 7) % 8 }
  { moved with slots := st.slots.set (moved.slotAt 0).val (some head) }

/-- The stack after a called number is coded (R50, R51). -/
def Stack.after (st : Stack) (called : List Nat) : Stack :=
  if called.length < 6 then st
  else match st.lookup (called.take 6) with
    | some i => st.hit i
    | none => st.push (called.take 6)

/-- The VALID slots stand at depths 0 to v - 1 and hold distinct heads (R52). -/
def Stack.law (st : Stack) : Bool :=
  let heads := (List.range 8).map st.at_
  let valid := heads.takeWhile Option.isSome
  (heads.drop valid.length).all Option.isNone && decide valid.Nodup

/-! ## The encoded record -/

/-- The start time that a record's difference is taken from (R55). -/
def Codec.previousStart (c : Codec) : Nat :=
  match c.prev with
  | some p => p.start
  | none => c.base

/-- The zigzag value of a signed difference (R55). -/
def zigzag (d : Int) : Nat := if 0 ≤ d then (2 * d).toNat else (-2 * d - 1).toNat

/-- The signed difference of a zigzag value (R67). -/
def unzigzag (z : Nat) : Int := if z % 2 = 0 then (z / 2 : Nat) else -(((z + 1) / 2 : Nat) : Int)

/-- The zigzag value of a record's start time in a context (R55). -/
def Codec.startZ (c : Codec) (r : Rec) : Nat := zigzag ((r.start : Int) - (c.previousStart : Int))

/-- A value in its short form of `w` bits, or escaped in `full` bits holding `whole` (R55, R56). -/
def shortOr (w full value whole : Nat) : List Bool :=
  if bitsOf value ≤ w then false :: toBits w value else true :: toBits full whole

/-- The sequence field (R54). -/
def encodeSeq (c : Codec) (r : Rec) : List Bool :=
  match c.prev with
  | some p => if r.seq = p.seq + 1 then [false] else true :: toBits 32 r.seq.toNat
  | none => true :: toBits 32 r.seq.toNat

/-- The type-and-cause field (R54). -/
def encodeType (c : Codec) (r : Rec) : List Bool :=
  match c.prev with
  | some p =>
    if r.callType = p.callType ∧ r.cause = p.cause then [false] else true :: (toBits 4 r.callType ++ toBits 8 r.cause)
  | none => true :: (toBits 4 r.callType ++ toBits 8 r.cause)

/-- Digits at 4 bits each (R57). -/
def encodeDigits (ds : List Nat) : List Bool := ds.flatMap (toBits 4)

/-- The called-number field (R57). -/
def encodeCalled (st : Stack) (called : List Nat) : List Bool :=
  if 6 ≤ called.length then
    match st.lookup (called.take 6) with
    | some i => true :: (toBits 3 i ++ toBits 5 called.length ++ encodeDigits (called.drop 6))
    | none => false :: (toBits 5 called.length ++ encodeDigits called)
  else false :: (toBits 5 called.length ++ encodeDigits called)

/-- An optional id of `w` bits (R58). -/
def encodeOption (w : Nat) : Option Nat → List Bool
  | none => [false]
  | some v => true :: toBits w v

/-- The encoded record: its ten fields in order (R53). -/
def encodeRec (c : Codec) (r : Rec) : List Bool :=
  encodeSeq c r
    ++ shortOr c.widths.td 32 (c.startZ r) r.start
    ++ shortOr c.widths.du 24 r.duration r.duration
    ++ shortOr c.widths.cu 32 r.units r.units
    ++ encodeType c r
    ++ (toBits 4 r.calling.length ++ encodeDigits r.calling)
    ++ encodeCalled c.stack r.called
    ++ encodeOption 28 r.cell
    ++ encodeOption 16 r.trunk
    ++ (toBits 3 r.supp.length ++ r.supp.flatMap (toBits 8))

/-- The length L of a record in a context, in bits (R53). -/
def encodedLength (c : Codec) (r : Rec) : Nat := (encodeRec c r).length

/-- The 64 bytes of a record's archived form (R53, R171). -/
def recBytes (r : Rec) : List Byte :=
  [0xD1#8, BitVec.ofNat 8 (r.cell.isSome.toNat + 2 * r.trunk.isSome.toNat)]
    ++ leBytes 2 r.source ++ leBytes 4 r.seq.toNat ++ leBytes 4 r.start ++ leBytes 4 r.duration ++ leBytes 4 r.units
    ++ leBytes 1 r.callType ++ leBytes 1 r.cause ++ leBytes 1 r.calling.length ++ leBytes 1 r.called.length
    ++ padTo 8 (packDigits r.calling) ++ padTo 10 (packDigits r.called)
    ++ leBytes 4 (r.cell.getD 0) ++ leBytes 2 (r.trunk.getD 0)
    ++ leBytes 1 r.supp.length ++ padTo 8 (r.supp.map (BitVec.ofNat 8)) ++ List.replicate 7 0

/-! ## The segment summary and the context -/

/-- The summary of a segment that opens (R62). -/
def Summary.empty : Summary :=
  { count := 0, bits := 0, firstSeq := none, lastSeq := none, minDay := none, maxDay := none, durSum := 0,
    unitsSum := 0, crc := crcInit }

/-- The summary after a record of `len` bits (R62). -/
def Summary.add (m : Summary) (r : Rec) (len : Nat) : Summary :=
  { count := m.count + 1, bits := m.bits + len,
    firstSeq := some (m.firstSeq.getD r.seq), lastSeq := some r.seq,
    minDay := some (min (m.minDay.getD (dayOf r.start)) (dayOf r.start)),
    maxDay := some (max (m.maxDay.getD (dayOf r.start)) (dayOf r.start)),
    durSum := m.durSum + r.duration, unitsSum := m.unitsSum + r.units, crc := crcExtend m.crc (recBytes r) }

/-- The context after a record of `len` bits is appended or decoded (R54, R62, R67). -/
def Codec.after (c : Codec) (r : Rec) (len : Nat) : Codec :=
  { c with prev := some { seq := r.seq, start := r.start, callType := r.callType, cause := r.cause },
           stack := c.stack.after r.called, summary := c.summary.add r len }

/-- A fresh context with a base time and widths (R48, R67). -/
def Codec.fresh (base : Nat) (widths : Three) : Codec :=
  { prev := none, base, widths, stack := Stack.empty, summary := Summary.empty }

/-- The stored ratio of a segment in per-mille (R63). -/
def storedRatio (bits count : Nat) : Nat := bits * 1000 / (count * 512)

/-- The header values of a segment handed to sealing (R60, R73). -/
def segmentHeader (source cls fileNo serial : Nat) (c : Codec) : SegHeader :=
  let m := c.summary
  { seg :=
      { source, cls, fileNo, serial, count := m.count, bits := m.bits, firstSeq := m.firstSeq.getD 0,
        lastSeq := m.lastSeq.getD 0, minDay := m.minDay.getD 0, maxDay := m.maxDay.getD 0, durSum := m.durSum,
        unitsSum := m.unitsSum, crc := crcFinish m.crc, ratio := storedRatio m.bits m.count },
    base := c.base, widths := c.widths }

/-- The bytes of a segment header other than its header check: the values in the table's order, then zeros (R73). That a
value's low byte comes first, as in the layouts of R171, is the model's choice (log entry 66). -/
def headerBytes (h : SegHeader) : List Byte :=
  let v := h.seg
  padTo 4092
    (leBytes 2 v.source ++ leBytes 1 v.cls ++ leBytes 4 v.fileNo ++ leBytes 4 v.serial ++ leBytes 4 h.base
      ++ leBytes 1 h.widths.td ++ leBytes 1 h.widths.du ++ leBytes 1 h.widths.cu
      ++ leBytes 4 v.count ++ leBytes 4 v.bits ++ leBytes 4 v.firstSeq.toNat ++ leBytes 4 v.lastSeq.toNat
      ++ leBytes 2 v.minDay ++ leBytes 2 v.maxDay ++ leBytes 8 v.durSum ++ leBytes 8 v.unitsSum
      ++ leBytes 4 v.crc.toNat ++ leBytes 2 v.ratio)

/-- The header check of a header (R73). -/
def headerCheck (h : SegHeader) : Crc := crc32 (headerBytes h)

/-- Whether a header with this check is valid (R73). -/
def validHeader (h : SegHeader) (check : Crc) : Bool :=
  decide (check = headerCheck h) && decide (1 ≤ h.seg.count) && decide (h.seg.count ≤ recordLimit)

/-! ## Width training -/

/-- The training state at STREAM_OPEN (R64). -/
def Training.fresh (widths force : Three) (samples tolerance : Nat) : Training :=
  { widths, force, maxima := ⟨1, 1, 1⟩, lockTd := .untrained, lockDu := .untrained, lockCu := .untrained, samples,
    tolerance }

/-- A force value, or the width it leaves where it is off (R48). -/
def forced (force width : Nat) : Nat := if force = 0 then width else force

/-- The training state when a segment opens: forces applied to the widths, maxima reset (R48, R64). -/
def Training.opened (t : Training) : Training :=
  { t with widths := ⟨forced t.force.td t.widths.td, forced t.force.du t.widths.du, forced t.force.cu t.widths.cu⟩,
           maxima := ⟨1, 1, 1⟩ }

/-- The observed maxima after a record with this zigzag value, the `n`-th of its segment (R64). -/
def Training.observe (t : Training) (n z : Nat) (r : Rec) : Training :=
  if n ≤ t.samples then
    { t with maxima := ⟨max t.maxima.td (min 32 (bitsOf z)), max t.maxima.du (bitsOf r.duration),
                        max t.maxima.cu (bitsOf r.units)⟩ }
  else t

/-- One field trained at a hand-off (R65). -/
def trainField (force maximum width tolerance : Nat) : Nat × LockState :=
  if force ≠ 0 then (force, .forced)
  else if maximum ≤ width + tolerance ∧ width ≤ maximum + tolerance then (width, .locked)
  else (maximum, .relocked)

/-- The training of a segment's widths at its hand-off (R65). -/
def Training.trained (t : Training) (w : Three) : Training :=
  let td := trainField t.force.td t.maxima.td w.td t.tolerance
  let du := trainField t.force.du t.maxima.du w.du t.tolerance
  let cu := trainField t.force.cu t.maxima.cu w.cu t.tolerance
  { t with widths := ⟨td.1, du.1, cu.1⟩, lockTd := td.2, lockDu := du.2, lockCu := cu.2 }

/-! ## Decoding -/

/-- A form bit and what follows it. -/
def readFlag (l : List Bool) : Option (Bool × List Bool) :=
  match l with
  | b :: t => some (b, t)
  | [] => none

/-- `n` digits; none where the body ends or a nibble is above 9 (R68). -/
def readDigits : Nat → List Bool → Option (List Nat × List Bool)
  | 0, l => some ([], l)
  | n + 1, l => do
    let (d, l) ← readBits 4 l
    if 9 < d then none
    else
      let (ds, l) ← readDigits n l
      some (d :: ds, l)

/-- `n` supplementary codes. -/
def readCodes : Nat → List Bool → Option (List Nat × List Bool)
  | 0, l => some ([], l)
  | n + 1, l => do
    let (d, l) ← readBits 8 l
    let (ds, l) ← readCodes n l
    some (d :: ds, l)

/-- The sequence field read (R54, R67). -/
def decodeSeq (c : Codec) (l : List Bool) : Option (Seq × List Bool) := do
  let (long, l) ← readFlag l
  if long then
    let (v, l) ← readBits 32 l
    some (BitVec.ofNat 32 v, l)
  else
    match c.prev with
    | some p => some (p.seq + 1, l)
    | none => none

/-- A start time rebuilt from a difference; a free value where the sum is no 32-bit number (R67; log entry 7). -/
def rebuiltStart (previous : Nat) (z : Nat) : Nat :=
  let t : Int := (previous : Int) + unzigzag z
  if 0 ≤ t ∧ t ≤ (max32 : Int) then t.toNat else (Config.startOutOfRange t).toNat

/-- The start-time field read (R55, R67). -/
def decodeStart (c : Codec) (l : List Bool) : Option (Nat × List Bool) := do
  let (escaped, l) ← readFlag l
  if escaped then readBits 32 l
  else
    let (z, l) ← readBits c.widths.td l
    some (rebuiltStart c.previousStart z, l)

/-- A duration or charged-units field read (R56). -/
def decodeShortOr (w full : Nat) (l : List Bool) : Option (Nat × List Bool) := do
  let (escaped, l) ← readFlag l
  if escaped then readBits full l else readBits w l

/-- The type-and-cause field read (R54). -/
def decodeType (c : Codec) (l : List Bool) : Option ((Nat × Nat) × List Bool) := do
  let (long, l) ← readFlag l
  if long then
    let (t, l) ← readBits 4 l
    let (k, l) ← readBits 8 l
    some ((t, k), l)
  else
    match c.prev with
    | some p => some ((p.callType, p.cause), l)
    | none => none

/-- The calling-number field read (R57). -/
def decodeCalling (l : List Bool) : Option (List Nat × List Bool) := do
  let (n, l) ← readBits 4 l
  readDigits n l

/-- The called-number field read (R57, R67, R68). -/
def decodeCalled (st : Stack) (l : List Bool) : Option (List Nat × List Bool) := do
  let (isHit, l) ← readFlag l
  if isHit then
    let (i, l) ← readBits 3 l
    let (m, l) ← readBits 5 l
    if m < 6 ∨ 20 < m then none
    else
      match st.at_ i with
      | none => none
      | some head =>
        let (ds, l) ← readDigits (m - 6) l
        some (head ++ ds, l)
  else
    let (m, l) ← readBits 5 l
    if 20 < m then none
    else
      let (ds, l) ← readDigits m l
      if 6 ≤ m ∧ (st.lookup (ds.take 6)).isSome then none else some (ds, l)

/-- An optional id read (R58). -/
def decodeOption (w : Nat) (l : List Bool) : Option (Option Nat × List Bool) := do
  let (present, l) ← readFlag l
  if present then
    let (v, l) ← readBits w l
    some (some v, l)
  else some (none, l)

/-- The supplementary codes read (R58, R68). -/
def decodeSupp (l : List Bool) : Option (List Nat × List Bool) := do
  let (n, l) ← readBits 3 l
  if 4 < n then none else readCodes n l

/-- The next record of a body and what follows it; none at a decode failure (R67, R68). -/
def decodeRec (source : Nat) (c : Codec) (l : List Bool) : Option (Rec × List Bool) := do
  let (seq, l) ← decodeSeq c l
  let (start, l) ← decodeStart c l
  let (duration, l) ← decodeShortOr c.widths.du 24 l
  let (units, l) ← decodeShortOr c.widths.cu 32 l
  let ((callType, cause), l) ← decodeType c l
  let (calling, l) ← decodeCalling l
  let (called, l) ← decodeCalled c.stack l
  let (cell, l) ← decodeOption 28 l
  let (trunk, l) ← decodeOption 16 l
  let (supp, l) ← decodeSupp l
  some ({ source, seq, start, duration, units, callType, cause, calling, called, cell, trunk, supp }, l)

/-- Whether the widths of a header are in range (R68). -/
def widthsInRange (w : Three) : Bool :=
  decide (1 ≤ w.td) && decide (w.td ≤ 32) && decide (1 ≤ w.du) && decide (w.du ≤ 24) && decide (1 ≤ w.cu)
    && decide (w.cu ≤ 32)

/-- How a decode stands after its start or a record: more to decode, ended without failure, or failed at a record index
(R67, R68). -/
inductive DecodeStep where
  | more (d : Decode)
  | whole (m : Summary)
  | failure (index : Nat)
  deriving DecidableEq, Repr

/-- A decode that stands between two records: ended where the body is consumed (R67, R68). -/
def decodeBetween (h : SegHeader) (d : Decode) : DecodeStep :=
  if d.rest.isEmpty then (if d.index = h.seg.count then .whole d.codec.summary else .failure d.index) else .more d

/-- The start of a decode of a segment: its body's first B bits, a fresh context (R67, R68). That a READ which returns a body
of fewer than B bits is decoded to that body's own end is the model's choice (log entry 49). -/
def decodeStart0 (h : SegHeader) (body : List Bool) : DecodeStep :=
  if widthsInRange h.widths then
    decodeBetween h { index := 0, rest := body.take h.seg.bits, codec := Codec.fresh h.base h.widths }
  else .failure 0

/-- The next record of a decode, with its record index, and how the decode stands after it; none at a decode failure
(R67, R68). -/
def decodeNext (h : SegHeader) (d : Decode) : Option (Rec × Decode) :=
  match decodeRec h.seg.source d.codec d.rest with
  | some (r, rest) =>
    some (r, { index := d.index + 1, rest, codec := d.codec.after r (d.rest.length - rest.length) })
  | none => none

/-- The eight comparisons of a verification (R140). -/
def compareFields (m : Summary) (v : SegFields) : FieldOutcomes :=
  { count := decide (m.count ≠ v.count), crc := decide (crcFinish m.crc ≠ v.crc),
    durSum := decide (m.durSum ≠ v.durSum), unitsSum := decide (m.unitsSum ≠ v.unitsSum),
    minDay := decide (m.minDay ≠ some v.minDay), maxDay := decide (m.maxDay ≠ some v.maxDay),
    firstSeq := decide (m.firstSeq ≠ some v.firstSeq), lastSeq := decide (m.lastSeq ≠ some v.lastSeq) }

/-- All eight outcomes DIFFERENT (R140). -/
def FieldOutcomes.different : FieldOutcomes := ⟨true, true, true, true, true, true, true, true⟩

/-- Whether all eight are EQUAL: the verification passes (R140). -/
def allEqual (o : FieldOutcomes) : Bool :=
  !(o.count || o.crc || o.durSum || o.unitsSum || o.minDay || o.maxDay || o.firstSeq || o.lastSeq)

/-! ## Projection -/

/-- A number's digits after the first `k` replaced by the fill digit (R134). -/
def fillAfter (k fillDigit : Nat) (ds : List Nat) : List Nat :=
  ds.take k ++ List.replicate (ds.length - k) fillDigit

/-- An optional id under its handling (R134). -/
def handleId (h : Handling) (v : Option Nat) : Option Nat :=
  match h with
  | .absent => none
  | .fill f => v.map (fun _ => f)
  | _ => v

/-- The record a projection delivers (R134). -/
def project (p : Projection) (r : Rec) : Rec :=
  { r with
    calling := fillAfter p.k1 p.fillDigit r.calling, called := fillAfter p.k2 p.fillDigit r.called,
    cell := handleId p.cell r.cell, trunk := handleId p.trunk r.trunk,
    units := match p.units with | .fill f => f | _ => r.units,
    supp := if p.supp = .empty then [] else r.supp }

/-- Whether every item of a projection is within its values (R132, R133). -/
def projectionInRange (p : Projection) : Bool :=
  let idOk := fun (h : Handling) (top : Nat) => match h with
    | .deliver | .absent => true
    | .fill v => decide (v ≤ top)
    | _ => false
  decide (p.k1 ≤ 15) && decide (p.k2 ≤ 20) && decide (p.fillDigit ≤ 9) && idOk p.cell (2 ^ 28 - 1)
    && idOk p.trunk 65535
    && (match p.units with | .deliver => true | .fill v => decide (v ≤ max32) | _ => false)
    && (match p.supp with | .deliver | .empty => true | _ => false)

end Sys2Proof.Machine
end

