-- ==== Sys2Proof/Machine/Operands.lean ====
section
/-!
DEFINITION. How operands are read: the defaults written as 0, the clamped readings, the bytes of a record place, of a
trailer and of a descriptor (R171).
-/

namespace Sys2Proof.Machine

/-! ## Values read through a default or a clamp -/

/-- A buffer count, 0 read as 4,096 (12.3). -/
def countRead (n : Nat) : Nat := if n = 0 then 4096 else n

/-- A number of days, 0 read as 4,096 (R104). -/
def daysRead (n : Nat) : Nat := if n = 0 then 4096 else n

/-- A retention floor, 0 read as 1 (R104). -/
def floorRead (n : Nat) : Nat := if n = 0 then 1 else n

/-- A file deadline in minutes, 0 read as 10,080 (R6). -/
def minutesRead (n : Nat) : Nat := if n = 0 then 10080 else n

/-- An initial width, 0 read as the field's maximum and a larger value as the maximum (R64). -/
def widthRead (top n : Nat) : Nat := if n = 0 then top else min n top

/-- A force value, a value above the field's maximum read as the maximum (R64). -/
def forceRead (top n : Nat) : Nat := min n top

/-- The initial widths as read (R64). -/
def widthsRead (w : Three) : Three := { td := widthRead 32 w.td, du := widthRead 24 w.du, cu := widthRead 32 w.cu }

/-- The force values as read (R64). -/
def forcesRead (f : Three) : Three := { td := forceRead 32 f.td, du := forceRead 24 f.du, cu := forceRead 32 f.cu }

/-- The sample count, clamped into 16 to 4,096 (R2). -/
def samplesRead (n : Nat) : Nat := max 16 (min n 4096)

/-- A service interval, clamped into 1 to 4,095 (R166). -/
def intervalRead (n : Nat) : Nat := if n = 0 then 1 else min n 4095

/-! ## Records at a place -/

/-- The data record that stands at a record place (R171). -/
def rawRecord (b : List Byte) : RawRec :=
  { source := field b 2 2, seq := BitVec.ofNat 32 (field b 4 4), start := field b 8 4, duration := field b 12 4,
    units := field b 16 4, callType := field b 20 1, cause := field b 21 1, callingLen := field b 22 1,
    calledLen := field b 23 1, calling := nibbles ((b.drop 24).take 8), called := nibbles ((b.drop 32).take 10),
    cell := if (byteAt b 1).getLsbD 0 then some (field b 42 4) else none,
    trunk := if (byteAt b 1).getLsbD 1 then some (field b 46 2) else none,
    suppCount := field b 48 1, supp := ((b.drop 49).take 8).map BitVec.toNat }

/-- The trailer that stands at a record place (R171). -/
def trailerAt (b : List Byte) : Trailer :=
  { source := field b 2 2, fileNo := field b 4 4, count := field b 8 4, firstSeq := BitVec.ofNat 32 (field b 12 4),
    lastSeq := BitVec.ofNat 32 (field b 16 4), duration := field b 20 8, units := field b 28 8 }

/-! ## Descriptors -/

/-- The handling that a code and a fill value name (R132; log entry 4). -/
def handlingRead (code : Byte) (v : Nat) : Handling :=
  match Config.handlingNamed code with
  | 0 => .deliver
  | 1 => .absent
  | 2 => .fill v
  | 3 => .empty
  | _ => .unnamed

/-- An optional argument, present where its bit of the presence byte is set (R171). -/
def optional {α : Type} (presence : Byte) (bit : Nat) (v : α) : Option α := if presence.getLsbD bit then some v else none

/-- The command of a descriptor's 64 bytes, by the layout of R171: arguments from byte 16 where the command moves a buffer
and from byte 4 where it moves none; none where the command code names no command. Of a flag's byte (clear sticky, journal
pass, enable), R171 gives no values: every byte but 0 reads as set, by the model's choice, as are the places of STREAM_OPEN's
arguments and the zero upper half of the address that JUMP's 32-bit field names (R46; log entry 6). -/
def descriptorCommand (port : PortId) (chain : ChainNo) (b : List Byte) : Option Instr :=
  let at_ : At := { port, chain, notify := (byteAt b 1).getLsbD 0, haltOnError := (byteAt b 1).getLsbD 1 }
  let buf : Buf := { addr := field b 8 8, count := field b 4 4 }
  let flag := fun off => decide (byteAt b off ≠ 0)
  match (byteAt b 0).toNat with
  | 0x01 => some (.streamOpen at_ (field b 4 2) (field b 6 1) (byteAt b 7) (byteAt b 8) (BitVec.ofNat 32 (field b 9 4))
      ⟨field b 13 1, field b 14 1, field b 15 1⟩ ⟨field b 16 1, field b 17 1, field b 18 1⟩ (field b 19 4) (field b 23 1))
  | 0x02 => some (.streamClose at_ (field b 4 2))
  | 0x03 => some (.fileOpen at_ (field b 4 2) (field b 6 4) (field b 10 4))
  | 0x04 => some (.fileFeed at_ buf (field b 16 2) (field b 18 4))
  | 0x05 => some (.fileResume at_ (field b 4 2) (field b 6 4))
  | 0x06 => some (.fileAbandon at_ (field b 4 2) (field b 6 4))
  | 0x07 => some (.fileAdopt at_ (field b 4 2) (field b 6 4))
  | 0x08 => some (.streamSnapshot at_ buf (field b 16 2))
  | 0x09 => some (.streamMask at_ (field b 4 2) (byteAt b 6) (flag 7))
  | 0x0A => some (.widthSet at_ (field b 4 2) ⟨field b 6 4, field b 10 4, field b 14 4⟩ (field b 18 4))
  | 0x10 => some (.gapRead at_ buf (field b 16 2))
  | 0x11 => some (.catalogueRead at_ buf (field b 17 4) (optional (byteAt b 16) 0 (field b 21 2))
      (optional (byteAt b 16) 1 (field b 23 1)))
  | 0x12 => some (.retrieve at_ buf (optional (byteAt b 16) 0 (field b 17 2)) (field b 19 2) (field b 21 2)
      (optional (byteAt b 16) 1 ⟨field b 23 4, field b 27 4⟩))
  | 0x13 => some (.projectionSet at_
      { k1 := field b 4 4, k2 := field b 8 4, fillDigit := field b 12 4,
        cell := handlingRead (byteAt b 16) (field b 17 4), trunk := handlingRead (byteAt b 21) (field b 22 4),
        units := handlingRead (byteAt b 26) (field b 27 4), supp := handlingRead (byteAt b 31) 0 })
  | 0x14 => some (.policyPropose at_ (field b 4 1) (field b 5 2))
  | 0x20 => some (.policyEndorse at_ (field b 4 1) (field b 5 2))
  | 0x21 => some (.holdPlace at_ (optional (byteAt b 4) 0 (field b 5 2)) (field b 7 2) (field b 9 2))
  | 0x22 => some (.holdRelease at_ (field b 4 4))
  | 0x23 => some (.clockSet at_ (field b 4 4))
  | 0x24 => some (.verify at_ (field b 4 4) (flag 8))
  | 0x25 => some (.scrubSet at_ (flag 4) (field b 5 4))
  | 0x26 => some (.damagedDiscard at_ (field b 4 4))
  | 0x27 => some (.journalRead at_ buf (field b 16 8))
  | 0x28 => some (.journalRelease at_ (field b 4 8))
  | 0x30 => some (.serviceSet at_ (field b 4 4))
  | 0x31 => some (.statusRead at_ buf)
  | 0x32 => some (.identify at_ buf)
  | 0x3E => some (.jump at_ (field b 4 4))
  | 0x3F => some (.halt at_)
  | _ => none

end Sys2Proof.Machine
end

