-- ==== Sys2Proof/Machine/Tables.lean ====
section
/-!
DEFINITION. Reading and writing numbered things: tables in their canonical form, and vectors of four.
-/

namespace Sys2Proof.Machine

variable {α : Type}

/-- The value at a number, where the table lists one. -/
def tget : Table α → Nat → Option α
  | [], _ => none
  | (k, v) :: t, n => if n = k then some v else tget t n

/-- The table with a value at a number. -/
def tput : Table α → Nat → α → Table α
  | [], n, v => [(n, v)]
  | (k, w) :: t, n, v =>
    if n < k then (n, v) :: (k, w) :: t else if n = k then (n, v) :: t else (k, w) :: tput t n v

/-- The table without a number. -/
def tdel : Table α → Nat → Table α
  | [], _ => []
  | (k, w) :: t, n => if n = k then tdel t n else (k, w) :: tdel t n

/-- The table with the value at a number changed, where it lists one. -/
def tmod (t : Table α) (n : Nat) (f : α → α) : Table α :=
  match tget t n with
  | some v => tput t n (f v)
  | none => t

/-- The least number from `n` up that the table does not list. -/
def lowestAbsent : Table α → Nat → Nat
  | [], n => n
  | (k, _) :: t, n => if n < k then n else if n = k then lowestAbsent t (n + 1) else lowestAbsent t n

/-- The least number below a bound that the table does not list: the lowest-numbered free slot of a table of that size. -/
def lowestFree (t : Table α) (bound : Nat) : Option Nat :=
  if lowestAbsent t 0 < bound then some (lowestAbsent t 0) else none

/-- A vector with one element changed. -/
def vmod {n : Nat} (v : Vector α n) (i : Fin n) (f : α → α) : Vector α n := v.set i.val (f v[i.val])

/-- A vector with one element replaced. -/
def vset {n : Nat} (v : Vector α n) (i : Fin n) (x : α) : Vector α n := v.set i.val x

/-- The numbers 0 to 3 in order: the ports, chains, lanes or channels. -/
def four : List (Fin 4) := [0, 1, 2, 3]

end Sys2Proof.Machine
end

