-- ==== Sys2Proof/Machine/Ops.lean ====
section
/-!
DEFINITION. Shared operations over the state: the parts of the state written whole, ports and chains, notices, the
channel queues, catalogue entries, and the Journal's appends and low state.
-/

namespace Sys2Proof.Machine

/-! ## Each part of the state written whole -/

/-- The state with `pending` replaced. -/
def State.setPending (s : State) (v : List Instr) : State := { s with pending := v }

/-- The state with `out` replaced. -/
def State.setOut (s : State) (v : List Output) : State := { s with out := v }

/-- The state with `power` replaced. -/
def State.setPower (s : State) (v : Power) : State := { s with power := v }

/-- The state with `straps` replaced. -/
def State.setStraps (s : State) (v : StrapPins) : State := { s with straps := v }

/-- The state with `settings` replaced. -/
def State.setSettings (s : State) (v : Settings) : State := { s with settings := v }

/-- The state with `flash` replaced. -/
def State.setFlash (s : State) (v : Flash) : State := { s with flash := v }

/-- The state with `streams` replaced. -/
def State.setStreams (s : State) (v : Table Stream) : State := { s with streams := v }

/-- The state with `files` replaced. -/
def State.setFiles (s : State) (v : Table FileEntry) : State := { s with files := v }

/-- The state with `recons` replaced. -/
def State.setRecons (s : State) (v : Table Recon) : State := { s with recons := v }

/-- The state with `stager` replaced. -/
def State.setStager (s : State) (v : Stager) : State := { s with stager := v }

/-- The state with `store` replaced. -/
def State.setStore (s : State) (v : Store) : State := { s with store := v }

/-- The state with `catalogue` replaced. -/
def State.setCatalogue (s : State) (v : Table Entry) : State := { s with catalogue := v }

/-- The state with `clock` replaced. -/
def State.setClock (s : State) (v : Clock) : State := { s with clock := v }

/-- The state with `retention` replaced. -/
def State.setRetention (s : State) (v : Retention) : State := { s with retention := v }

/-- The state with `scanner` replaced. -/
def State.setScanner (s : State) (v : Scanner) : State := { s with scanner := v }

/-- The state with `audit` replaced. -/
def State.setAudit (s : State) (v : Audit) : State := { s with audit := v }

/-- The state with `journal` replaced. -/
def State.setJournal (s : State) (v : Journal) : State := { s with journal := v }

/-- The state with `ports` replaced. -/
def State.setPorts (s : State) (v : Vector Port 4) : State := { s with ports := v }

/-- The state with `arbiter` replaced. -/
def State.setArbiter (s : State) (v : Arbiter) : State := { s with arbiter := v }

/-- The state with `boot` replaced. -/
def State.setBoot (s : State) (v : Boot) : State := { s with boot := v }

/-! ## Ports, chains and what they post -/

/-- A port's context. -/
def State.port (s : State) (p : PortId) : Port := s.ports[p.val]

/-- The state with a port's context changed. -/
def State.modPort (s : State) (p : PortId) (f : Port → Port) : State := s.setPorts (vmod s.ports p f)

/-- The role set of a port (R157). -/
def State.roles (s : State) (p : PortId) : RoleSet := s.straps.roles[p.val]

/-- A chain engine. -/
def State.chain (s : State) (c : ChainRef) : Chain := (s.port c.port).chains[c.chain.val]

/-- The state with a chain engine changed. -/
def State.modChain (s : State) (c : ChainRef) (f : Chain → Chain) : State :=
  s.modPort c.port (fun q => { q with chains := vmod q.chains c.chain f })

/-- The job of the descriptor a chain executes. -/
def State.job (s : State) (c : ChainRef) : Option Job := (s.chain c).desc.bind (·.job)

/-- The state with the job of a chain's descriptor set. -/
def State.setJob (s : State) (c : ChainRef) (j : Job) : State :=
  s.modChain c (fun h => { h with desc := h.desc.map (fun d => { d with job := some j }) })

/-- The state with a chain's state set. -/
def State.setChainState (s : State) (c : ChainRef) (st : ChainState) : State :=
  s.modChain c (fun h => { h with state := st })

/-- The sixteen chains. -/
def allChains : List ChainRef := four.flatMap (fun p => four.map (fun c => ⟨p, c⟩))

/-- Whether a chain is fetching a descriptor (R159). -/
def State.fetching (s : State) (c : ChainRef) : Bool :=
  decide (s.power = .ready) && decide ((s.chain c).state = .running) && (s.chain c).desc.isNone

/-- A posted write or an MSI leaves the part. -/
def State.emit (s : State) (o : Output) : State := s.setOut (s.out ++ [o])

/-- Today: the archive day of the clock value (R99). -/
def State.today (s : State) : Nat := dayOf s.clock.value

/-! ## Notices (R164) -/

/-- A port's notice count of a class. -/
def Port.noticeCount (q : Port) : NoticeClass → Nat
  | .chain => q.chainNotices
  | .intake => q.intakeNotices
  | .archive => q.archiveNotices

/-- A port with its notice count of a class increased, modulo 2^32 (R164). -/
def Port.countNotice (q : Port) : NoticeClass → Port
  | .chain => { q with chainNotices := (q.chainNotices + 1) % 2 ^ 32 }
  | .intake => { q with intakeNotices := (q.intakeNotices + 1) % 2 ^ 32 }
  | .archive => { q with archiveNotices := (q.archiveNotices + 1) % 2 ^ 32 }

/-- A notice for a port: its count always grows; the slot write and then the MSI go out where the area is set and the
class enabled (R164). -/
def State.notice (s : State) (p : PortId) (k : NoticeKind) (object : NoticeObject) : State :=
  let cls := NoticeKind.cls k
  let s := s.modPort p (fun q => q.countNotice cls)
  match (s.port p).area with
  | some a =>
    if a.enables cls then
      (s.emit (.notice p (a.addr + 64 * NoticeClass.code cls) cls k object s.clock.value
        ((s.port p).noticeCount cls))).emit (.msi p cls)
    else s
  | none => s

/-- An ARCHIVE notice for every port (R164). That `out` lists it by rising port number is the model's choice (log entry
76). -/
def State.noticeAll (s : State) (k : NoticeKind) (object : NoticeObject) : State :=
  four.foldl (fun s p => s.notice p k object) s

/-! ## Catalogue entries -/

/-- An extent's catalogue entry: RESERVED for the journal's extents, FREE where none is listed (R75, R87). -/
def State.entry (s : State) (x : Nat) : Entry :=
  if x < reservedExtents then { Entry.free with state := .reserved } else (tget s.catalogue x).getD Entry.free

/-- The state with an extent's entry replaced; the entries of the journal's extents stay RESERVED (R75). -/
def State.setEntry (s : State) (x : Nat) (e : Entry) : State :=
  if x < reservedExtents then s
  else if e = Entry.free then s.setCatalogue (tdel s.catalogue x)
  else s.setCatalogue (tput s.catalogue x e)

/-- The state with an extent's entry changed. -/
def State.modEntry (s : State) (x : Nat) (f : Entry → Entry) : State := s.setEntry x (f (s.entry x))

/-- The lowest FREE extent of a channel (R77). -/
def State.firstFree (s : State) (ch : Channel) : Option Nat :=
  let x := lowestAbsent s.catalogue (if ch.val = 0 then reservedExtents else ch.val * channelExtents)
  if x < (ch.val + 1) * channelExtents then some x else none

/-- The channel of an extent (R75). -/
def channelOf (x : Nat) : Channel := ⟨x / channelExtents % 4, Nat.mod_lt _ (by decide)⟩

/-- The active days of a class, 0 read as 4,096 (R104). -/
def State.activeDays (s : State) (cls : Nat) : Nat := daysRead (s.settings.rows.toList.getD cls 0)

/-- The retain-until day of a segment (R109). -/
def State.retainUntil (s : State) (v : SegFields) : Nat := v.maxDay + s.activeDays v.cls

/-- Whether a segment is due (R109). -/
def State.isDue (s : State) (v : SegFields) : Bool := decide (s.retainUntil v < s.today)

/-- Whether a hold covers a segment (R92). -/
def Hold.covers (h : Hold) (v : SegFields) : Bool :=
  (h.source.isNone || h.source == some v.source) && decide (h.a ≤ v.maxDay) && decide (v.minDay ≤ h.b)

/-- The number of active holds that cover a segment (R90, R92). -/
def State.coverCount (s : State) (v : SegFields) : Nat := s.settings.holds.countP (fun h => h.2.covers v)

/-! ## Channel queues (R76) -/

/-- A channel's operation queue. -/
def State.queue (s : State) (ch : Channel) : List StoreOp := s.store.queues[ch.val]

/-- The state with a channel's queue replaced. -/
def State.setQueue (s : State) (ch : Channel) (q : List StoreOp) : State :=
  s.setStore { s.store with queues := vset s.store.queues ch q }

/-- The operation in flight on a channel. -/
def State.inFlight (s : State) (ch : Channel) : Option StoreOp := (s.queue ch).head?

/-- An operation leaves its channel's queue at its completion. -/
def State.popQueue (s : State) (ch : Channel) : State := s.setQueue ch (s.queue ch).tail

/-- Whether a waiting request can use a channel (R76). -/
def State.canUse (s : State) (ch : Channel) : PlaceReq → Bool
  | .op c _ => decide (c = ch)
  | .seal => (s.firstFree ch).isSome

/-- Whether a newcomer may join a channel's queue: it has a place and no waiting request can use it (R76; log entry 8). -/
def State.placeOpen (s : State) (ch : Channel) : Bool :=
  decide ((s.queue ch).length < 16) && !s.store.placeWait.any (s.canUse ch)

/-- An operation is requested: it joins the tail of its channel's queue, or the place wait list (R76). -/
def State.request (s : State) (ch : Channel) (op : StoreOp) : State :=
  if s.placeOpen ch then s.setQueue ch (s.queue ch ++ [op])
  else s.setStore { s.store with placeWait := s.store.placeWait ++ [.op ch op] }

/-! ## Journal: capacity (R151) -/

/-- The slot that holds the oldest unreleased durable entry (R151). That it is the slot of the oldest entry which the page map
lists, where serials before it are lost, is the model's choice (log entry 80; `State.occupied` counts the lost ones all the
same). -/
def oldestSlot (release : Nat) (map : Table (List Nat)) : Option Nat :=
  (map.filterMap (fun p => ((p.2.filter (fun n => decide (release < n))).min?).map (fun n => (n, p.1)))).foldl
    (fun best c => match best with
      | some b => if c.1 < b.1 then some c else some b
      | none => some c) none |>.map Prod.snd

/-- How many entries are unreleased: the serials from the oldest unreleased one to the next serial less one, those of lost
entries among them (R148, R153, R156, step 3). -/
def State.unreleased (s : State) : Nat := s.journal.next - 1 - s.settings.release

/-- The places of the slots from the one that holds the oldest unreleased durable entry to the one most recently written
(R151). -/
def State.slotPlaces (s : State) : Nat :=
  match oldestSlot s.settings.release s.journal.pageMap, s.journal.lastSlot with
  | some o, some l => pageEntries * ((l + journalSlots - o) % journalSlots + 1)
  | _, _ => 0

/-- The occupied places: those of the slots, and the entries not yet durable (R151). They are never fewer than the unreleased
entries (R153), so where the oldest serials are lost and the slots counted hold fewer entries than are unreleased and durable,
these are counted instead (log entry 80). -/
def State.occupied (s : State) : Nat :=
  max s.slotPlaces (s.journal.durable - s.settings.release) + (s.journal.next - 1 - s.journal.durable)

/-- The free places (R151). -/
def State.freePlaces (s : State) : Nat := journalPlaces - (s.occupied + s.journal.reserved)

/-! ## Expiry Scanner signals -/

/-- A walk begins with the days carried (R117). -/
def State.beginWalk (s : State) (days : Nat) : State :=
  s.setScanner { state := if s.journal.low then .paused else .scanning, position := 0, rescan := false,
                 daysPending := days, retired := 0, waited := 0 }

/-- Whether an EXPIRY_WAIT entry stands without pins (R123). -/
def State.leftWaiting (s : State) : Bool :=
  s.catalogue.any (fun p => decide (p.2.state = .expiryWait) && decide (p.2.pins = 0))

/-- The scanner is told that the journal's low state is entered or left (R123). -/
def State.tellScanner (s : State) (low : Bool) : State :=
  if low then
    if s.scanner.state = .scanning then s.setScanner { s.scanner with state := .paused } else s
  else
    let s := if s.scanner.state = .paused then s.setScanner { s.scanner with state := .scanning } else s
    if s.leftWaiting then
      match s.scanner.state with
      | .idle => s.beginWalk 0
      | .scanning => s.setScanner { s.scanner with rescan := true }
      | .paused => s
    else s

/-- The low state decided afresh from the free places, with its notices once the part is READY (R151, R170). Where these
stand among the other posts of one event is the model's choice (log entries 67 and 68). -/
def State.decideLow (s : State) : State :=
  let low := decide (s.freePlaces < lowMark)
  if low = s.journal.low then s
  else
    let s := s.setJournal { s.journal with low }
    let s := if s.power = .ready then s.noticeAll (if low then .journalLow else .journalClear) .none else s
    s.tellScanner low

/-! ## Journal: page buffers (R149, R150) -/

/-- The buffer in a state, the lower number first. -/
def Journal.bufIn (j : Journal) (st : PageState) : Option (Fin 2) :=
  if j.bufs[0].state = st then some 0 else if j.bufs[1].state = st then some 1 else none

/-- The ready buffer whose entries are older (R149). -/
def Journal.readyBuf (j : Journal) : Option (Fin 2) :=
  if j.bufs[0].state = .ready ∧ j.bufs[1].state = .ready then
    if (j.bufs[1].entries.head?.map (·.serial)).getD 0 < (j.bufs[0].entries.head?.map (·.serial)).getD 0 then some 1
    else some 0
  else j.bufIn .ready

/-- The journal extent of a page slot (R149). -/
def slotExtent (slot : Nat) : Fin 4 := ⟨slot / extentSlots % 4, Nat.mod_lt _ (by decide)⟩

/-- Whether the slot at the write position lies in an extent that is ERASED or CURRENT (R150). -/
def Journal.slotReady (j : Journal) : Bool :=
  match j.extents[(slotExtent j.writePos).val] with
  | .erased | .current => true
  | _ => false

/-- The state with a page buffer's state changed. -/
def State.setPageState (s : State) (i : Fin 2) (st : PageState) : State :=
  s.setJournal { s.journal with bufs := vmod s.journal.bufs i (fun b => { b with state := st }) }

/-- A ready buffer becomes writing where none is writing and its slot's extent is ready; its WRITE is requested on
channel 0 (R149, R150). -/
def State.startPageWrite (s : State) : State :=
  match s.journal.bufIn .writing, s.journal.readyBuf with
  | none, some i => if s.journal.slotReady then (s.setPageState i .writing).request 0 .pageWrite else s
  | _, _ => s

/-- A free buffer becomes gathering and takes entries from the head of the pending list (R149). -/
def State.fillPage (s : State) (i : Fin 2) : State :=
  s.setJournal { s.journal with bufs := vset s.journal.bufs i ⟨.gathering, s.journal.pending.take pageEntries⟩,
                                pending := s.journal.pending.drop pageEntries }

/-- The page buffers brought on as far as they go: a full gathering buffer is closed, a free one becomes gathering where
none is (R149). -/
def State.pumpPages : Nat → State → State
  | 0, s => s
  | n + 1, s =>
    match s.journal.bufIn .gathering with
    | some i =>
      if pageEntries ≤ s.journal.bufs[i.val].entries.length then
        State.pumpPages n ((s.setPageState i .ready).startPageWrite)
      else s
    | none =>
      match s.journal.bufIn .free with
      | some i => State.pumpPages n (s.fillPage i)
      | none => s

/-- An append: the next serial, the clock value as archive time, and a place in the gathering buffer or at the tail of the
pending list (R148, R149). The low state is not decided here. -/
def State.appendRaw (s : State) (body : JBody) : State :=
  let e : JEntry := { serial := s.journal.next, time := s.clock.value, body }
  let s := s.setJournal { s.journal with next := s.journal.next + 1 }
  let s :=
    match s.journal.bufIn .gathering with
    | some i =>
      if s.journal.bufs[i.val].entries.length < pageEntries then
        s.setJournal { s.journal with
          bufs := vmod s.journal.bufs i (fun b => { b with entries := b.entries ++ [e] }) }
      else s.setJournal { s.journal with pending := s.journal.pending ++ [e] }
    | none => s.setJournal { s.journal with pending := s.journal.pending ++ [e] }
  State.pumpPages 6 s

/-- An append, with the low state decided after it (R148, R151). -/
def State.append (s : State) (body : JBody) : State := (s.appendRaw body).decideLow

/-! ## Journal: the append wait list (R152) -/

/-- The places a request needs. -/
def AppendReq.places : AppendReq → Nat
  | .entry _ _ => 1
  | .record _ n => n
  | .commit n => n

/-- Whether a request is that of a record which still waits for a staging buffer: given its places, it stays at the head and
holds them, and no request behind it is given any (R152). -/
def AppendReq.holdsBack (waiting : List ChainRef) : AppendReq → Bool
  | .record c _ => waiting.contains c
  | _ => false

/-- The places that the requests of the list need in their order, as far as places are given down it (R152). -/
def waitNeeds (waiting : List ChainRef) : List AppendReq → Nat
  | [] => 0
  | r :: t => r.places + if r.holdsBack waiting then 0 else waitNeeds waiting t

/-- Free places are reserved for the requests of the append wait list in their order, each until it has what it needs, the
head first (R152, R155, step 3). That the next request is given its places while the head, which has all of its own, still
waits for the row that appends it is the model's reading (log entry 40). -/
def State.reserveWait (s : State) : State :=
  match s.journal.wait with
  | [] => s
  | l => s.setJournal { s.journal with reserved := min (waitNeeds s.stager.wait l) (s.journal.reserved + s.freePlaces) }

/-- A request joins the tail of the append wait list (R152). That places which are free at that moment are reserved for it at
once is the model's choice (log entry 79). -/
def State.joinAppend (s : State) (r : AppendReq) : State :=
  ((s.setJournal { s.journal with wait := s.journal.wait ++ [r] }).reserveWait).decideLow

/-- The head leaves the append wait list with its reserved places (R152). -/
def State.popAppend (s : State) : State :=
  s.setJournal { s.journal with
    wait := s.journal.wait.tail,
    reserved := s.journal.reserved - (s.journal.wait.head?.map AppendReq.places).getD 0 }

/-- The requests of the append wait list, each with the reserved places that it holds, the head's dealt first (R152). -/
def dealt : Nat → List AppendReq → List (AppendReq × Nat)
  | _, [] => []
  | n, r :: t => (r, min n r.places) :: dealt (n - r.places) t

/-- Whether an append of `n` entries can be made at once: no request waits and the places are free (R152). -/
def State.canAppend (s : State) (n : Nat) : Bool := s.journal.wait.isEmpty && decide (n ≤ s.freePlaces)

/-- A chain's waiting record leaves the append wait list, and the places reserved for it become free (R152). -/
def State.leaveAppend (s : State) (c : ChainRef) : State :=
  let isMine := fun r => match r with | AppendReq.record d _ => decide (d = c) | _ => false
  match s.journal.wait with
  | [] => s
  | l =>
    let kept := (dealt s.journal.reserved l).filter (fun q => !isMine q.1)
    ((s.setJournal { s.journal with wait := kept.map Prod.fst, reserved := (kept.map Prod.snd).sum }).reserveWait).decideLow

end Sys2Proof.Machine
end

