-- ==== Sys2Proof/Machine/ChainOps.lean ====
section
/-!
DEFINITION. Shared operations on chains: orphaning, the end of a drain, completions, the wait lists and lanes a job leaves,
and the descriptor steps that stand before a command's own effect (R17, R158 to R163).
-/

namespace Sys2Proof.Machine

/-! ## Orphaning and the end of a drain -/

/-- A file when a port is lost: an OPEN or HALTED file of that owner becomes ORPHANED (R17). -/
def orphanFile (p : PortId) (f : FileEntry) : FileEntry :=
  if f.owner = p then
    match f.state with
    | .opened => { f with state := .orphaned, wasHalted := false }
    | .halted => { f with state := .orphaned, wasHalted := true }
    | _ => f
  else f

/-- Every file that a port owns is orphaned (R17). -/
def State.orphanFiles (s : State) (p : PortId) : State :=
  s.setFiles (s.files.map (fun k => (k.1, orphanFile p k.2)))

/-- Whether every chain of a port is IDLE: its EMPTY flag (R157). -/
def Port.empty (q : Port) : Bool := q.chains.toList.all (fun c => decide (c.state = .idle))

/-- A DRAINING port with no chain RUNNING or WAITING becomes CLOSED and its files are orphaned (R162). -/
def State.settleDrain (s : State) (p : PortId) : State :=
  if (s.port p).state = .draining ∧ (s.port p).empty then
    (s.modPort p (fun q => { q with state := .closed })).orphanFiles p
  else s

/-- A chain becomes IDLE; the port's drain may end by it (R159, R162). -/
def State.idleChain (s : State) (c : ChainRef) : State :=
  (s.modChain c (fun h => { h with state := .idle, desc := none })).settleDrain c.port

/-! ## Completion (R160) -/

/-- A completion with nothing beside its status and count. -/
def Completion.plain (status : Status) (count : Nat) : Completion :=
  { status, flags := Flags.none, mismatch := false, stateAfter := none, countDone := count, results := .none }

/-- A completion DONE with result fields. -/
def Completion.doneWith (results : Results) : Completion := { Completion.plain .done 0 with results }

/-- The completion word is written, the descriptor's notice follows it, and the chain goes on, or ends as its status, its
HALT_ON_ERROR flag or a drain has it (R159, R160, R161, R162, R164; log entry 9). That "fetch timeout" comes last of the
notices of one ending is the model's choice (log entry 76). -/
def State.complete (s : State) (c : ChainRef) (w : Completion) : State :=
  match (s.chain c).desc with
  | none => s
  | some d =>
    let s := s.emit (.completion c.port (d.addr + 32) w)
    let s := if d.notify then s.notice c.port .descriptorDone (.chain c.chain d.addr) else s
    let s :=
      if d.haltOnError ∧ Status.isError w.status ∧ w.status ≠ .stopped then
        (s.idleChain c).notice c.port .haltedOnError (.chain c.chain d.addr)
      else if w.status = .stopped ∨ w.status = .fetchTimeout ∨ (s.port c.port).state = .draining then s.idleChain c
      else s.modChain c (fun h => { h with state := .running, desc := none })
    if w.status = .fetchTimeout then s.notice c.port .fetchTimeout (.chain c.chain d.addr) else s

/-! ## What a job leaves when it ends -/

/-- The lanes that a job holds are given back (R165). -/
def State.freeLane (s : State) (r : JobRef) : State :=
  s.setArbiter { s.arbiter with lanes := s.arbiter.lanes.map (fun l => if l = some r then none else l) }

/-- A chain's waiting job leaves its port's list at the arbiter (R165). -/
def State.leaveArbiter (s : State) (c : ChainRef) : State :=
  s.setArbiter { s.arbiter with waiting := vmod s.arbiter.waiting c.port (fun l => l.filter (fun d => decide (d ≠ c.chain))) }

/-- Whether an operation is a READ that a job asked for. -/
def StoreOp.readOf (r : JobRef) : StoreOp → Bool
  | .segRead _ who _ => decide (who = some r)
  | .pageRead _ (.job (some c)) _ => decide (JobRef.chain c = r)
  | _ => false

/-- A queued READ with its requester gone (R83). -/
def StoreOp.orphaned : StoreOp → StoreOp
  | .segRead x _ again => .segRead x none again
  | .pageRead n (.job _) again => .pageRead n (.job none) again
  | op => op

/-- A job that ends leaves the place wait list, and its queued READs are left to be discarded (R83, R163). -/
def State.leaveStore (s : State) (r : JobRef) : State :=
  s.setStore { s.store with
    placeWait := s.store.placeWait.filter (fun q => match q with | .op _ o => !o.readOf r | .seal => true),
    queues := s.store.queues.map (fun q => q.map (fun o => if o.readOf r then o.orphaned else o)) }

/-- A job begins to wait for a lane: the tag of a port with nothing waiting rises to G, and the chain joins its port's
list (R165). -/
def State.waitForLane (s : State) (c : ChainRef) : State :=
  let s := if s.arbiter.waiting[c.port.val].isEmpty then
      s.modPort c.port (fun q => { q with tag := max q.tag s.arbiter.g })
    else s
  (s.setArbiter { s.arbiter with waiting := vmod s.arbiter.waiting c.port (· ++ [c.chain]) }).setChainState c .waiting

/-! ## Feeds (R13) -/

/-- The feed a chain runs. -/
def State.feed (s : State) (c : ChainRef) : Option Feed :=
  match s.job c with
  | some (.feed f) => some f
  | _ => none

/-- The state of a feed's file, where it is still in the file table. A feed that waits for a lane while its file leaves the
table reports no state (byte 0, which is also the code of OPEN), whether it is refused at its grant or ended by CHAIN_STOP
before it: R8 and R13 give none, and the model's choice is log entry 45. -/
def State.feedFileState (s : State) (f : Feed) : Option FileState :=
  if f.fileGone then none else (tget s.files f.file).map (·.state)

/-- The completion of a feed (R13). -/
def State.feedCompletion (s : State) (f : Feed) (status : Status) (trailerTaken : Bool) : Completion :=
  { status, flags := { Flags.none with trailerTaken }, mismatch := false,
    stateAfter := (s.feedFileState f).map StateAfter.file,
    countDone := f.accepted + f.duplicates + f.dropped,
    results := .feed f.accepted f.duplicates f.dropped f.clamped f.skipped f.beyond }

/-- A feed leaves its lane and every list it waits on (R11, R71, R152, R165). -/
def State.leaveFeed (s : State) (c : ChainRef) : State :=
  let s := (s.freeLane (.chain c)).leaveArbiter c
  let s := s.setStager { s.stager with wait := s.stager.wait.filter (fun d => decide (d ≠ c)) }
  s.leaveAppend c

/-- A feed ends at a record boundary and its completion word reports the outcome (R13). That a notice of the journal's low
state which follows from its leaving the append wait list is posted before the completion is the model's choice (log entry
67). -/
def State.endFeed (s : State) (c : ChainRef) (status : Status) (trailerTaken : Bool) : State :=
  match s.feed c with
  | some f =>
    let s := s.leaveFeed c
    s.complete c (s.feedCompletion f status trailerTaken)
  | none => s

/-- The chain whose feed of a file holds a lane. -/
def State.feedOn (s : State) (file : Nat) : Option ChainRef :=
  allChains.find? (fun c => match s.feed c with
    | some f => f.laneHeld && decide (f.file = file) && !f.fileGone
    | none => false)

/-- The feed of a file that holds a lane, if there is one, ends with a status (R11, R13). -/
def State.endFeedOf (s : State) (file : Nat) (status : Status) : State :=
  match s.feedOn file with
  | some c => s.endFeed c status false
  | none => s

/-! ## Descriptors (R160) -/

/-- The chain of a descriptor command. -/
def refOf (a : At) : ChainRef := ⟨a.port, a.chain⟩

/-- The step of an arriving descriptor up to its command's own effect: it arrives only at a chain that is fetching; the
chain's next address moves on, and the role check is made (R160, steps 1 to 3). That addresses do not wrap past the last one of
64 bits is the model's choice (log entry 83). -/
def State.descriptor (s : State) (a : At) (role : Role) (effect : State → State) : State :=
  if s.fetching (refOf a) then
    let s := s.modChain (refOf a) (fun h =>
      { h with next := h.next + 64,
               desc := some { addr := h.next, notify := a.notify, haltOnError := a.haltOnError, job := none } })
    if role.admits (s.roles a.port) then effect s else s.complete (refOf a) (Completion.plain .refusedRole 0)
  else s

/-- The same for a command that moves a buffer: a count above 4,096 does not reach the owning block (R160, step 4). -/
def State.bufferDescriptor (s : State) (a : At) (buf : Buf) (role : Role) (effect : State → State) : State :=
  s.descriptor a role (fun s =>
    if 4096 < buf.count then s.complete (refOf a) (Completion.plain .refusedArgument 0) else effect s)

/-- A command completes with a bare status and count 0. -/
def State.refuse (s : State) (a : At) (status : Status) : State := s.complete (refOf a) (Completion.plain status 0)

/-! ## The command cell (R158) -/

/-- A write of cell word 0 with both pending marks set: the cell count grows, the word stands with its marks clear, and the
command is refused while the part is STARTING, or taken where its row's test finds no refusal. `test` answers the refusal,
if any (R158; log entry 10). -/
def State.cellCommand (s : State) (p : PortId) (word : CellWord) (test : Port → Option CellResult)
    (effect : State → State) : State :=
  if s.power = .off ∨ (s.port p).state = .down then s
  else
    let s := s.modPort p (fun q => { q with cell0 := word, cellCount := (q.cellCount + 1) % 256 })
    let result := if s.power = .starting then some .starting else test (s.port p)
    match result with
    | some r => s.modPort p (fun q => { q with lastResult := r })
    | none => effect (s.modPort p (fun q => { q with lastResult := .taken }))

end Sys2Proof.Machine
end

