-- ==== Sys2Proof/Machine/FileOps.lean ====
section
/-!
DEFINITION. Shared operations on streams, files and staging buffers: counts, hand-off to sealing, reconciliation and
closing, the STORE halt, appends that carry an effect, policy commit, and the taking of a record.
-/

namespace Sys2Proof.Machine

/-! ## Streams and files -/

/-- The slot and stream that register a source id (1.1). -/
def State.findStream (s : State) (source : Nat) : Option (Nat × Stream) :=
  s.streams.find? (fun p => decide (p.2.source = source))

/-- The state with a stream changed. -/
def State.modStream (s : State) (slot : Nat) (f : Stream → Stream) : State := s.setStreams (tmod s.streams slot f)

/-- The state with a file entry changed. -/
def State.modFile (s : State) (file : Nat) (f : FileEntry → FileEntry) : State := s.setFiles (tmod s.files file f)

/-- The file that a command names by source id and file number (R7). -/
def State.findFile (s : State) (source fileNo : Nat) : Option (Nat × FileEntry) :=
  match s.findStream source with
  | some (_, st) =>
    match st.file with
    | some k =>
      match tget s.files k with
      | some f => if f.fileNo = fileNo then some (k, f) else none
      | none => none
    | none => none
  | none => none

/-- The source id of a stream slot. -/
def State.sourceOf (s : State) (slot : Nat) : Nat := ((tget s.streams slot).map (·.source)).getD 0

/-! ## Staging buffers -/

/-- The state with a staging buffer set. -/
def State.setBuf (s : State) (b : Nat) (v : Staging) : State :=
  s.setStager { s.stager with bufs := tput s.stager.bufs b v }

/-- A staging buffer becomes FREE (R70). -/
def State.freeBuf (s : State) (b : Nat) : State := s.setStager { s.stager with bufs := tdel s.stager.bufs b }

/-- The header values of a buffer past its hand-off. -/
def BufState.header : BufState → Option SegHeader
  | .opened _ => none
  | .sealing h _ _ => some h
  | .failed h => some h

/-- The seal serial of a buffer; 0 before its hand-off. -/
def Stager.serialOf (g : Stager) (b : Nat) : Nat :=
  (((tget g.bufs b).bind (fun v => v.state.header)).map (·.seg.serial)).getD 0

/-- A seal in its serial's place on the seal wait list (R78). -/
def insertSeal (g : Stager) (b : Nat) : List Nat → List Nat
  | [] => [b]
  | c :: t => if g.serialOf b < g.serialOf c then b :: c :: t else c :: insertSeal g b t

/-- Where seals stand on the place wait list, one more begins to wait at its end: a seal that waits for a queue place is on
both lists (R78). -/
def Store.sealPlace (g : Store) : Store :=
  if g.placeWait.contains .seal then { g with placeWait := g.placeWait ++ [.seal] } else g

/-- A seal joins the seal wait list in its serial's place, and the place wait list where seals stand on it (R78; log entry
24). -/
def State.joinSeals (s : State) (b : Nat) : State :=
  (s.setStager { s.stager with seals := insertSeal s.stager b s.stager.seals }).setStore s.store.sealPlace

/-! ## The last journaled seal serial (R91) -/

/-- The serials of the outstanding seals (R91). -/
def State.outstanding (s : State) : List Nat :=
  s.stager.bufs.filterMap (fun p => p.2.state.header.map (·.seg.serial))
    ++ s.catalogue.filterMap (fun p =>
        if p.2.state = .writing ∨ p.2.state = .journaling then p.2.seg.map (·.serial) else none)

/-- L recomputed: the greatest value below the counter with no outstanding serial at or below it (R91). -/
def State.recomputeL (s : State) : State :=
  let top := s.settings.sealCounter - 1
  let l := match s.outstanding.min? with
    | some m => min top (m - 1)
    | none => top
  s.setSettings { s.settings with lastSeal := l }

/-! ## Hand-off to sealing (R60, R72) -/

/-- A file's open segment is handed to sealing: its header values are fixed, its widths are trained, it takes the next seal
serial, and it joins the seal wait list (R60, R65, R72, R78). That the counter goes on past 2^32 - 1 without wrapping is the
model's choice (log entry 84). -/
def State.handOff (s : State) (file : Nat) : State :=
  match tget s.files file with
  | some f =>
    match f.openSeg with
    | some b =>
      match tget s.stager.bufs b, tget s.streams f.stream with
      | some v, some st =>
        match v.state with
        | .opened codec =>
          let header := segmentHeader st.source st.cls f.fileNo s.settings.sealCounter codec
          let s := s.modStream f.stream (fun st => { st with training := st.training.trained codec.widths })
          let s := s.setBuf b { v with state := .sealing header 1 none }
          let s := s.setSettings { s.settings with sealCounter := s.settings.sealCounter + 1 }
          let s := s.joinSeals b
          s.modFile file (fun f => { f with segsInFlight := f.segsInFlight + 1, openSeg := none })
        | _ => s
      | _, _ => s
    | none => s
  | none => s

/-- Every FAILED buffer of a file is freed and its records discarded; segments in flight falls by their number, and L is
recomputed (R16, R19, R91). -/
def State.freeFailed (s : State) (file : Nat) : State :=
  match tget s.files file with
  | some f =>
    let mine := s.stager.bufs.filter (fun p => decide (p.2.stream = f.stream) && decide (p.2.fileNo = f.fileNo)
      && (match p.2.state with | .failed _ => true | _ => false))
    if mine.isEmpty then s
    else
      let s := mine.foldl (fun s p => s.freeBuf p.1) s
      (s.modFile file (fun f => { f with segsInFlight := f.segsInFlight - mine.length })).recomputeL
  | none => s

/-! ## STORE halt (R14, R44) -/

/-- A file when STORE is raised on it: what it becomes, and whether its owner is told (R14, R17). -/
def storeHaltFile (ownerLost : Bool) (f : FileEntry) : FileEntry × Bool :=
  match f.state with
  | .opened | .halted => ({ f with state := .halted, haltCause := some .store }, true)
  | .closing =>
    if ownerLost then ({ f with state := .orphaned, wasHalted := true, haltCause := some .store }, false)
    else ({ f with state := .halted, haltCause := some .store }, true)
  | .orphaned => ({ f with wasHalted := true, haltCause := some .store }, false)
  | .closed => (f, false)

/-- STORE is raised on a stream by a segment that failed its second write: the sticky flag, the last fault, the halt, its
notice, and the end of a feed that holds a lane (R14, R44). That the notice is posted before the feed's completion is the
model's choice (log entry 48). -/
def State.raiseStore (s : State) (slot : Nat) : State :=
  match tget s.streams slot with
  | some st =>
    match st.file with
    | some k =>
      match tget s.files k with
      | some f =>
        let s := s.modStream slot (fun st =>
          { st with sticky := raised st.sticky .store,
                    lastFault := some { kind := .store, fileNo := f.fileNo, place := none, record := none,
                                        foundFile := none } })
        let q := (s.port f.owner).state
        let h := storeHaltFile (decide (q = .down) || decide (q = .closed)) f
        let s := s.modFile k (fun _ => h.1)
        let s := if h.2 then s.notice f.owner .fileHalted (.file st.source f.fileNo) else s
        s.endFeedOf k .haltedFault
      | none => s
    | none => s
  | none => s

/-! ## Closing a file (R20, R138) -/

/-- The file becomes CLOSED: its notice goes to the owner, the entry and the reconciliation record are freed, and the
stream returns to IDLE; a feed still waiting for a lane finds its file gone (R8, R20). -/
def State.closeFile (s : State) (file : Nat) : State :=
  match tget s.files file with
  | some f =>
    let s := s.notice f.owner .fileClosed (.file (s.sourceOf f.stream) f.fileNo)
    let s := s.setFiles (tdel s.files file)
    let s := s.setRecons (tdel s.recons file)
    let s := s.modStream f.stream (fun st => { st with file := none })
    allChains.foldl (fun s c => match s.feed c with
      | some g => if g.file = file then s.setJob c (.feed { g with fileGone := true }) else s
      | none => s) s
  | none => s

/-! ## Appends with an effect beside them (R152) -/

/-- What happens beside the append of a single entry whose serial is `serial`. -/
def State.applyNote (s : State) (note : AppendNote) (serial : Nat) : State :=
  match note with
  | .plain => s
  | .sealEntry x => s.modEntry x (fun e => { e with sealJournal := some serial })
  | .sealAgain b => s.joinSeals b
  | .sealFailed b =>
    match tget s.stager.bufs b with
    | some v =>
      match v.state.header with
      | some h => (s.setBuf b { v with state := .failed h }).raiseStore v.stream
      | none => s
    | none => s
  | .fileClosed k => s.closeFile k
  | .reported x => s.modEntry x (fun e => { e with reports := e.reports - 1 })

/-- A single entry is appended with its effect, and the low state is decided (R148, R151). That what the effect posts, a
"file closed" or "file halted" notice or the completion of a halted file's feed, comes before the notice of the low state is
the model's choice (log entry 67). -/
def State.appendWith (s : State) (body : JBody) (note : AppendNote) : State :=
  let serial := s.journal.next
  ((s.appendRaw body).applyNote note serial).decideLow

/-- A block asks for an append: it is made at once, or joins the append wait list (R152). -/
def State.ask (s : State) (body : JBody) (note : AppendNote) : State :=
  if s.canAppend 1 then s.appendWith body note else s.joinAppend (.entry body note)

/-! ## Reconciliation (R135 to R138) -/

/-- The comparison of a file side with the trailer side (R136). -/
def compareWith (file : Nat) : Option Nat → Comparison
  | none => .unordered
  | some t => if file = t then .equal else if t < file then .archiveHigh else .archiveLow

/-- The reconciliation record of a file at its hand-over (R135). -/
def reconOf (source : Nat) (sticky : BitVec 9) (cause : ClosingCause) (f : FileEntry) : Recon :=
  { fileNo := f.fileNo, source, owner := f.owner, cause, presented := saturate max32 f.presented,
    presentedSaturated := decide (max32 < f.presented), accepted := saturate max32 f.accepted,
    duplicates := saturate max32 f.duplicates, dropped := saturate max32 f.dropped,
    clamped := saturate max32 f.clamped, durSum := f.durSum, durSaturated := f.durSaturated, unitsSum := f.unitsSum,
    unitsSaturated := f.unitsSaturated, segsSealed := f.segsSealed, sticky, trailer := f.trailer }

/-- The file outcome (R137). -/
def Recon.outcome (r : Recon) : FileOutcome :=
  match r.cause with
  | .abandon => .abandoned
  | .deadline => .incomplete
  | .trailer =>
    if compareWith r.presented (r.trailer.map (·.count)) = .equal ∧ ¬ r.presentedSaturated
        ∧ compareWith r.durSum (r.trailer.map (·.duration)) = .equal ∧ ¬ r.durSaturated
        ∧ compareWith r.unitsSum (r.trailer.map (·.units)) = .equal ∧ ¬ r.unitsSaturated then .matched
    else .mismatched

/-- The fields of the FILE_CLOSED entry (R138). -/
def Recon.closedFields (r : Recon) : ClosedFields :=
  { fileNo := r.fileNo, source := r.source, owner := r.owner, outcome := r.outcome, cause := r.cause,
    count := compareWith r.presented (r.trailer.map (·.count)), countSaturated := r.presentedSaturated,
    duration := compareWith r.durSum (r.trailer.map (·.duration)), durationSaturated := r.durSaturated,
    units := compareWith r.unitsSum (r.trailer.map (·.units)), unitsSaturated := r.unitsSaturated,
    presented := r.presented, accepted := r.accepted, duplicates := r.duplicates, dropped := r.dropped,
    clamped := r.clamped, sticky := r.sticky, segmentsSealed := r.segsSealed,
    trailer := r.trailer.map (fun t => (t.source, t.firstSeq, t.lastSeq)) }

/-- A CLOSING file with no open segment and none in flight is handed to the Audit Unit, which fixes its reconciliation
record and asks for the FILE_CLOSED entry (R20, R135, R138). -/
def State.handOver (s : State) (file : Nat) : State :=
  match tget s.files file with
  | some f =>
    match f.closingCause, tget s.recons file with
    | some cause, none =>
      if f.state = .closing ∧ f.openSeg = none ∧ f.segsInFlight = 0 then
        let sticky := ((tget s.streams f.stream).map (·.sticky)).getD 0
        let r := reconOf (s.sourceOf f.stream) sticky cause f
        (s.setRecons (tput s.recons file r)).ask (.fileClosed r.closedFields) (.fileClosed file)
      else s
    | _, _ => s
  | none => s

/-! ## Policy commit (R107) -/

/-- The eight classes in order. -/
def classes : List (Fin 8) := [0, 1, 2, 3, 4, 5, 6, 7]

/-- The staged rows that are not NONE (R107). -/
def Retention.stagedCount (r : Retention) : Nat := r.staged.toList.countP (fun g => decide (g ≠ .none))

/-- One class at the commit (R107, step 1). -/
def State.commitClass (s : State) (i : Fin 8) : State :=
  match s.retention.staged[i.val] with
  | .none => s
  | .endorsed days proposer endorser =>
    let before := s.settings.rows[i.val]
    (s.setSettings { s.settings with rows := vset s.settings.rows i days }).appendRaw
      (.policyCommitted i.val before days proposer endorser)
  | .proposed days proposer => s.appendRaw (.policyLapsed i.val days proposer)

/-- The scanner is signalled with the days a commit carried (R117). -/
def State.signalScanner (s : State) (days : Nat) : State :=
  if s.scanner.state = .idle then s.beginWalk days
  else s.setScanner { s.scanner with rescan := true, daysPending := saturate max32 (s.scanner.daysPending + days) }

/-- The policy commit (R107). -/
def State.commitPolicy (s : State) (days : Nat) : State :=
  let s := classes.foldl (fun s i => s.commitClass i) s
  let s := s.setRetention { s.retention with staged := Vector.replicate 8 .none }
  let s := (s.setClock { s.clock with commitPending := false, commitDays := 0 }).decideLow
  s.signalScanner days

/-- The pending commit's request follows the count of staged rows (R107, R152; log entry 11). A notice of the journal's low
state that follows is posted before the completion of the command that changed a row (log entry 67). -/
def State.refreshCommit (s : State) : State :=
  if s.clock.commitPending then
    let n := s.retention.stagedCount
    ((s.setJournal { s.journal with wait := s.journal.wait.map (fun r => match r with
      | .commit _ => .commit n
      | r => r) }).reserveWait).decideLow
  else s

/-- A day roll asks for the policy commit (R101, step 3, and R107). -/
def State.askCommit (s : State) (days : Nat) : State :=
  if s.clock.commitPending then
    (s.setClock { s.clock with commitDays := s.clock.commitDays + days }).refreshCommit
  else
    let n := s.retention.stagedCount
    if n = 0 ∨ s.canAppend n then s.commitPolicy days
    else (s.setClock { s.clock with commitPending := true, commitDays := days }).joinAppend (.commit n)

/-! ## Taking a record (R10, R23, R29) -/

/-- A sum that saturates at 2^64 - 1, with the mark that it has (R10, R135). -/
def addSum (sum : Nat) (mark : Bool) (n : Nat) : Nat × Bool := (saturate max64 (sum + n), mark || decide (max64 < sum + n))

/-- How a record is taken. -/
inductive Taken where
  | accepted | duplicate | dropped
  deriving DecidableEq, Repr

/-- A file entry after a record is taken (R5, R10). -/
def FileEntry.take (f : FileEntry) (how : Taken) (duration units : Nat) (changed : Bool) : FileEntry :=
  let d := addSum f.durSum f.durSaturated duration
  let u := addSum f.unitsSum f.unitsSaturated units
  { f with presented := f.presented + 1,
           accepted := f.accepted + (if how = .accepted then 1 else 0),
           duplicates := f.duplicates + (if how = .duplicate then 1 else 0),
           dropped := f.dropped + (if how = .dropped then 1 else 0),
           clamped := f.clamped + (if how = .accepted ∧ changed then 1 else 0),
           durSum := d.1, durSaturated := d.2, unitsSum := u.1, unitsSaturated := u.2 }

/-- A feed after a record is taken (R13). -/
def Feed.take (f : Feed) (how : Taken) (changed : Bool) : Feed :=
  { f with accepted := f.accepted + (if how = .accepted then 1 else 0),
           duplicates := f.duplicates + (if how = .duplicate then 1 else 0),
           dropped := f.dropped + (if how = .dropped then 1 else 0),
           clamped := f.clamped + (if how = .accepted ∧ changed then 1 else 0),
           waiting := none }

/-- The counts of the file and of the feed change together at a taking (R10, R13). -/
def State.countTaking (s : State) (c : ChainRef) (f : Feed) (how : Taken) (duration units : Nat) (changed : Bool) :
    State :=
  (s.modFile f.file (fun g => g.take how duration units changed)).setJob c (.feed (f.take how changed))

/-- A segment opens for a file in the lowest-numbered FREE staging buffer, with a record's start time as its base time
(R48, R71). That of several buffers which one event freed the lowest-numbered goes to a feed that waited, too, is the model's
choice (log entry 77). -/
def State.openSegment (s : State) (file : Nat) (start : Nat) : State :=
  match tget s.files file, lowestFree s.stager.bufs 48 with
  | some f, some b =>
    match tget s.streams f.stream with
    | some st =>
      let t := st.training.opened
      let s := s.modStream f.stream (fun st => { st with training := t })
      let s := s.setBuf b { stream := f.stream, fileNo := f.fileNo, body := [],
                            state := .opened (Codec.fresh start t.widths) }
      s.modFile file (fun f => { f with openSeg := some b })
    | none => s
  | _, _ => s

/-- A record is encoded into a file's open segment (R53, R62, R64). -/
def State.appendRecord (s : State) (file : Nat) (r : Rec) : State :=
  match tget s.files file with
  | some f =>
    match f.openSeg with
    | some b =>
      match tget s.stager.bufs b with
      | some v =>
        match v.state with
        | .opened codec =>
          let bits := encodeRec codec r
          let codec' := codec.after r bits.length
          let s := s.setBuf b { v with body := v.body ++ bits, state := .opened codec' }
          s.modStream f.stream (fun st =>
            { st with training := st.training.observe codec'.summary.count (codec.startZ r) r })
        | _ => s
      | none => s
    | none => s
  | none => s

/-- A record taken with a marking: the account is marked and its GAP_DROPPED entries are appended, the record is encoded
if it is accepted, and the counts change, all together (R10, R23, R29). That a "journal low" notice of these entries is
posted before the completion of a feed which the taking ends is the model's choice (log entry 67). -/
def State.takeMarked (s : State) (c : ChainRef) (f : Feed) (w : WaitRec) : State :=
  match tget s.files f.file with
  | some g =>
    match tget s.streams g.stream with
    | some st =>
      let m := mark st.account w.cls w.seq
      let s := s.modStream g.stream (fun st => { st with account := m.1 })
      let s := m.2.foldl (fun s d =>
        s.appendRaw (.gapDropped st.source d.gap.first d.gap.last d.cause m.1.e)) s
      let s := match w.archive with
        | some r => (if g.openSeg.isNone then s.openSegment f.file r.start else s).appendRecord f.file r
        | none => s
      (s.countTaking c f (if w.archive.isSome then .accepted else .dropped) w.duration w.units w.changed).decideLow
    | none => s
  | none => s

/-- A feed moves on to a place, or ends DONE after its last (R9, R13). -/
def State.moveFeed (s : State) (c : ChainRef) (next : Nat) : State :=
  match s.feed c with
  | some f =>
    let s := (s.setJob c (.feed { f with next })).setChainState c .running
    if f.places ≤ next then s.endFeed c .done false else s
  | none => s

/-- A waiting record, or one that need not wait, is taken and its feed goes on. -/
def State.takeAndMove (s : State) (c : ChainRef) (f : Feed) (w : WaitRec) : State :=
  (s.takeMarked c f w).moveFeed c (f.next + 1)

/-- Whether a feed on the buffer wait list can take its record at once: it needs no journal places, or has them reserved at
the head of the append wait list, or the Journal can give them now (R71). -/
def State.feedAble (s : State) (c : ChainRef) : Bool :=
  match s.feed c with
  | some f =>
    match f.waiting with
    | some w =>
      decide (w.places = 0)
        || (match s.journal.wait with
            | .record d n :: _ => decide (d = c) && decide (n ≤ s.journal.reserved)
            | _ => false)
        || s.canAppend w.places
    | none => false
  | none => false

/-- Whether a FREE staging buffer is to be had for a chain: more are FREE than feeds before it on the buffer wait list that
can take one (R71; log entry 8). -/
def State.bufferOpen (s : State) (c : ChainRef) : Bool :=
  decide (s.stager.bufs.length + ((s.stager.wait.takeWhile (fun d => decide (d ≠ c))).filter s.feedAble).length < 48)

/-- A chain joins the buffer wait list, where it does not stand on it (R71). -/
def State.joinBufferWait (s : State) (c : ChainRef) : State :=
  if s.stager.wait.contains c then s else s.setStager { s.stager with wait := s.stager.wait ++ [c] }

/-- A record with its checks made is taken at once, or waits for a staging buffer, for journal places, or for both (R11,
R29, R59). -/
def State.takeOrWait (s : State) (c : ChainRef) (f : Feed) (w : WaitRec) : State :=
  let placesOpen := decide (w.places = 0) || s.canAppend w.places
  let bufOpen := !w.needsBuf || s.bufferOpen c
  if placesOpen && bufOpen then s.takeAndMove c f w
  else
    let s := (s.setJob c (.feed { f with waiting := some w })).setChainState c .waiting
    let s := if bufOpen then s else s.joinBufferWait c
    if placesOpen then s else s.joinAppend (.record c w.places)

end Sys2Proof.Machine
end

