-- ==== Sys2Proof/Machine/JobOps.lean ====
section
/-!
DEFINITION. Shared operations on segments under read and decode: pins, retirement and retest, reads, the retrieval job's
search and endings, the outcome of a verification, the scrub's pass, and the walk of a CATALOGUE_READ (R93 to R95, R120,
R121, R126 to R131, R139 to R145).
-/

namespace Sys2Proof.Machine

/-! ## The segment of a job -/

/-- The segment a chain's job is on. -/
def Job.seg : Job → Option SegJob
  | .retrieval r => r.current
  | .verify v => some v.seg
  | _ => none

/-- A job with its segment replaced. -/
def Job.withSeg (g : SegJob) : Job → Job
  | .retrieval r => .retrieval { r with current := some g }
  | .verify v => .verify { v with seg := g }
  | j => j

/-- The segment that a chain's job or the scrub is on. -/
def State.segJob (s : State) : JobRef → Option SegJob
  | .chain c => (s.job c).bind Job.seg
  | .scrub => s.audit.scrub

/-- The state with the segment of a job replaced. -/
def State.setSegJob (s : State) (r : JobRef) (g : SegJob) : State :=
  match r with
  | .chain c =>
    match s.job c with
    | some j => s.setJob c (j.withSeg g)
    | none => s
  | .scrub => s.setAudit { s.audit with scrub := some g }

/-- The state with the phase of a job's segment set. -/
def State.setPhase (s : State) (r : JobRef) (p : SegPhase) : State :=
  match s.segJob r with
  | some g => s.setSegJob r { g with phase := p }
  | none => s

/-- The chain of a job becomes RUNNING or WAITING; the scrub has no chain (R159). -/
def State.jobState (s : State) (r : JobRef) (st : ChainState) : State :=
  match r with
  | .chain c => s.setChainState c st
  | .scrub => s

/-! ## Retirement and retest (R120, R121) -/

/-- A due entry is retired: its EXPIRED entry is appended and it becomes RETIRING, and the retired count grows (R119,
R120, R121). That the count does not saturate at 131,072, where R116 ends its range, is the model's choice (log entry 82). -/
def State.retire (s : State) (x : Nat) (v : SegFields) : State :=
  let serial := s.journal.next
  let s := s.appendRaw (.expired x v.source v.serial v.cls (s.activeDays v.cls) (s.retainUntil v) s.today)
  let s := s.modEntry x (fun e => { e with state := .retiring, retireJournal := some serial })
  (s.setScanner { s.scanner with retired := s.scanner.retired + 1 }).decideLow

/-- The retest of an EXPIRY_WAIT entry with no pins (R121). -/
def State.retest (s : State) (x : Nat) : State :=
  match (s.entry x).seg with
  | some v =>
    if (s.entry x).state = .expiryWait ∧ (s.entry x).pins = 0 then
      if s.isDue v then (if s.journal.low then s else s.retire x v)
      else s.modEntry x (fun e => { e with state := .sealed })
    else s
  | none => s

/-! ## Pins (R93, R94) -/

/-- Whether an entry accepts a pin for a seal serial (R93). -/
def Entry.accepts (e : Entry) (serial : Nat) : Bool :=
  (decide (e.state = .sealed) || decide (e.state = .expiryWait) || decide (e.state = .damaged))
    && (match e.seg with | some v => decide (v.serial = serial) | none => false)

/-- A pin is released: the oldest waiting request is granted it, or the count falls, and an EXPIRY_WAIT entry whose count
reaches 0 is retested (R93, R94, R121). -/
def State.releasePin (s : State) (x : Nat) : State :=
  match (s.entry x).pinWait with
  | c :: t =>
    (s.modEntry x (fun e => { e with pinWait := t, granted := e.granted ++ [c] })).setPhase (.chain c) .pinned
  | [] => (s.modEntry x (fun e => { e with pins := e.pins - 1 })).retest x

/-- A segment READ is requested for a job, the first or the retry (R83, R128). -/
def State.startRead (s : State) (r : JobRef) (x : Nat) (again : Bool) : State :=
  let opened := s.placeOpen (channelOf x)
  let s := s.request (channelOf x) (.segRead x (some r) again)
  if opened then (s.setPhase r .reading).jobState r .running else (s.setPhase r .waitPlace).jobState r .waiting

/-- A job that holds its pin goes on to its read; a retrieval counts a DAMAGED segment it reaches (R128, R130, R139). -/
def State.goOnPinned (s : State) (c : ChainRef) (x : Nat) : State :=
  let s : State :=
    match s.job c with
    | some (.retrieval r) =>
      if (s.entry x).state = EntryState.damaged then s.setJob c (.retrieval { r with delivered := r.delivered + 1 }) else s
    | _ => s
  s.startRead (.chain c) x false

/-- A chain's job asks for a pin on an entry that accepts it: granted below a count of 4, or put on the pin wait list
(R93). -/
def State.askPin (s : State) (c : ChainRef) (x : Nat) : State :=
  if (s.entry x).pins < 4 then
    (s.modEntry x (fun e => { e with pins := e.pins + 1 })).goOnPinned c x
  else
    ((s.modEntry x (fun e => { e with pinWait := e.pinWait ++ [c] })).setPhase (.chain c) .waitPin).setChainState c
      .waiting

/-- A job leaves its segment: its lane, its lists and its queued READ, and its pin unless it waits for one (R83, R94,
R163, R165). -/
def State.dropSeg (s : State) (r : JobRef) : State :=
  match s.segJob r with
  | some g =>
    let s := (s.freeLane r).leaveStore r
    let s := match r with
      | .chain c => s.leaveArbiter c
      | .scrub => s.setArbiter { s.arbiter with scrubWaits := false }
    let others := fun (l : List ChainRef) => l.filter (fun d => decide (JobRef.chain d ≠ r))
    match g.phase with
    | .waitPin => s.modEntry g.extent (fun e => { e with pinWait := others e.pinWait })
    | _ => (s.modEntry g.extent (fun e => { e with granted := others e.granted })).releasePin g.extent
  | none => s

/-! ## Retrieval (R126 to R131) -/

/-- Whether a segment matches a job's source and its span overlaps the job's range (R126). -/
def Retrieval.wants (r : Retrieval) (v : SegFields) : Bool :=
  (r.source.isNone || r.source == some v.source) && decide (v.minDay ≤ r.b) && decide (r.a ≤ v.maxDay)

/-- Whether an entry is selectable for a job (R126). -/
def Retrieval.selects (r : Retrieval) (audit : Bool) (e : Entry) : Bool :=
  (decide (e.state = .sealed) || (audit && decide (e.state = .damaged)))
    && (match e.seg with | some v => r.wants v | none => false)

/-- The seal serial of an entry that a job may count or reach: one that matches it and lies above its position. -/
def Retrieval.ahead (r : Retrieval) (e : Entry) : Option Nat :=
  match e.seg with
  | some v => if r.wants v ∧ r.position.all (fun p => decide (p < v.serial)) then some v.serial else none
  | none => none

/-- The selectable entry with the least seal serial above a job's position, as (serial, extent) (R126). -/
def Retrieval.find (r : Retrieval) (audit : Bool) (cat : Table Entry) : Option (Nat × Nat) :=
  cat.foldl (fun best p =>
    match if r.selects audit p.2 then r.ahead p.2 else none, best with
    | some n, some b => if n < b.1 then some (n, p.1) else best
    | some n, none => some (n, p.1)
    | none, _ => best) none

/-- The DAMAGED entries a search on a port without AUDIT passes over: those ahead of the position and, where a segment is
found, below its serial (R126). -/
def Retrieval.passes (r : Retrieval) (cat : Table Entry) (found : Option (Nat × Nat)) : Nat :=
  cat.countP (fun p => decide (p.2.state = .damaged)
    && (match r.ahead p.2 with
        | some n => (match found with | some f => decide (n < f.1) | none => true)
        | none => false))

/-- The completion of a retrieval job (R131). -/
def Retrieval.completion (r : Retrieval) (status : Status) (cursor : Option Cursor) (settled : Nat) : Completion :=
  { status, flags := { Flags.none with cursorGone := r.gone }, mismatch := false, stateAfter := none,
    countDone := r.filled,
    results := .retrieval r.whole r.passedOver r.failed r.delivered cursor settled }

/-- The search of a retrieval job: to its next segment, or to its completion DONE (R126, R131). -/
def State.search (s : State) (c : ChainRef) : State :=
  match s.job c with
  | some (.retrieval r) =>
    let audit := (s.roles c.port).audit
    let found := r.find audit s.catalogue
    let r := { r with passedOver := r.passedOver + (if audit then 0 else r.passes s.catalogue found), start := 0,
                      lastIndex := none, current := none }
    match found with
    | some (serial, x) =>
      (s.setJob c (.retrieval { r with position := some serial, current := some ⟨x, serial, .pinned⟩ })).askPin c x
    | none => s.complete c (r.completion .done none s.settings.lastSeal)
  | _ => s

/-- The cursor test of a retrieval job with a cursor, in place of its first search (R127). -/
def State.cursorTest (s : State) (c : ChainRef) (cur : Cursor) : State :=
  match s.job c with
  | some (.retrieval r) =>
    let audit := (s.roles c.port).audit
    match s.catalogue.find? (fun p => match p.2.seg with | some v => decide (v.serial = cur.serial) | none => false) with
    | some (x, e) =>
      if r.selects audit e then
        if cur.index < (e.seg.map (·.count)).getD 0 then
          (s.setJob c (.retrieval { r with current := some ⟨x, cur.serial, .pinned⟩ })).askPin c x
        else s.search c
      else
        let passed := if !audit && decide (e.state = .damaged) then 1 else 0
        (s.setJob c (.retrieval { r with gone := true, passedOver := r.passedOver + passed })).search c
    | none => (s.setJob c (.retrieval { r with gone := true })).search c
  | _ => s

/-- The cursor that a stopped job reports (R131). -/
def Retrieval.stoppedCursor (r : Retrieval) : Cursor :=
  match r.current, r.lastIndex with
  | some g, some i => ⟨g.serial, i + 1⟩
  | some g, none => ⟨g.serial, r.start⟩
  | none, _ => ⟨r.position.getD 0, 0⟩

/-- A decoded record is delivered, or is not, and the job completes DONE_PARTIAL when its buffer is full; the flag says
whether the job goes on decoding (R129, R131). That a "journal low" notice of a retest at the pin's release is posted before
the completion is the model's choice (log entry 67). -/
def State.deliver (s : State) (c : ChainRef) (r : Retrieval) (g : SegJob) (i : Nat) (rec' : Rec) : State × Bool :=
  if i < r.start ∨ dayOf rec'.start < r.a ∨ r.b < dayOf rec'.start then (s, true)
  else
    let shaped := match r.projection with | some p => project p rec' | none => rec'
    let s := s.emit (.place c.port (r.buf.addr + 64 * r.filled) (.record shaped))
    let r := { r with filled := r.filled + 1, lastIndex := some i }
    let s := s.setJob c (.retrieval r)
    if countRead r.buf.count ≤ r.filled then
      let s := s.dropSeg (.chain c)
      (s.complete c (r.completion .donePartial (some ⟨g.serial, i + 1⟩) s.settings.lastSeal), false)
    else (s, true)

/-! ## The outcome of a verification (R140, R141) -/

/-- What a verification found: the field outcomes, and the failure that made them. -/
structure Verdict where
  outcomes : FieldOutcomes
  failure : Option SegFailure
  deriving DecidableEq, Repr

/-- A verification passes when all eight outcomes are EQUAL (R140). -/
def Verdict.passes (v : Verdict) : Bool := allEqual v.outcomes

/-- An entry is quarantined: it becomes DAMAGED, its DAMAGED entry is asked for with the report pending mark, and the
"damaged found" notice is sent (R141, R142). That a "journal low" notice of that entry is posted before it is the model's
choice (log entry 68). -/
def State.quarantine (s : State) (x source serial : Nat) (finder : Finder) (v : Verdict) (port : Option PortId) :
    State :=
  let s := s.modEntry x (fun e => { e with state := .damaged, reports := e.reports + 1 })
  let s := s.ask (.damaged x source serial finder v.outcomes v.failure port) (.reported x)
  s.noticeAll .damagedFound (.segment x serial)

/-- A verification's outcome is applied to its entry (R141). -/
def State.applyVerdict (s : State) (x : Nat) (finder : Finder) (port : Option PortId) (journalPass : Bool)
    (v : Verdict) : State :=
  let before := (s.entry x).state
  let s := s.modEntry x (fun e => { e with verify := some (s.today, v.passes) })
  match (s.entry x).seg with
  | some f =>
    if v.passes then
      if before = .damaged then
        (s.modEntry x (fun e => { e with state := .sealed })).ask (.verified x f.serial finder true) .plain
      else if journalPass then s.ask (.verified x f.serial finder false) .plain
      else s
    else if before = .damaged then s
    else s.quarantine x f.source f.serial finder v port
  | none => s

/-! ## The scrub's pass (R144, R145) -/

/-- The extent at the scrub pointer has been dealt with: the counts take it, the pointer moves on, and a pass that is
complete asks for its SCRUB_PASS entry and begins anew (R144, R145). -/
def State.scrubDone (s : State) (count : PassCounts → PassCounts) : State :=
  let a := s.audit
  let counts := count { a.counts with considered := a.counts.considered + 1 }
  let next := (a.pointer + 1) % extentCount
  if next = a.passStart then
    (s.setAudit { a with scrub := none, pointer := next, counts := PassCounts.zero }).ask (.scrubPass a.passStart counts)
      .plain
  else s.setAudit { a with scrub := none, pointer := next, counts }

/-- What a scrub verification adds to the pass counts (R144). -/
def scrubVerified (restored passed : Bool) (c : PassCounts) : PassCounts :=
  { c with verified := c.verified + 1, passed := c.passed + passed.toNat, damaged := c.damaged + (!passed).toNat,
           restored := c.restored + restored.toNat }

/-! ## The end of a read or decode -/

/-- How a job's read and decode of its segment ended (R94). -/
inductive SegEnd where
  | whole (m : Summary)
  | failed (f : SegFailure)
  deriving DecidableEq, Repr

/-- The verdict on a segment whose entry holds these fields (R140). -/
def SegEnd.verdict (v : SegFields) : SegEnd → Verdict
  | .whole m => ⟨compareFields m v, none⟩
  | .failed f => ⟨FieldOutcomes.different, some f⟩

/-- A retrieval job leaves a segment that ended whole or failed, reports a failure to the Audit Unit, and makes its next
search (R128, R129, R130). That the release of its last pin retests an EXPIRY_WAIT entry in this same step, so before the
Audit Unit takes the report, is the model's choice of the two orders that R142 allows (log entry 72). -/
def State.retrievalSegEnd (s : State) (c : ChainRef) (r : Retrieval) (g : SegJob) (e : SegEnd) : State :=
  let s := s.dropSeg (.chain c)
  match e with
  | .whole _ => (s.setJob c (.retrieval { r with whole := r.whole + 1, current := none })).search c
  | .failed f =>
    let s := s.setAudit { s.audit with reports := s.audit.reports ++ [⟨g.extent, g.serial, f⟩] }
    (s.setJob c (.retrieval { r with failed := r.failed + 1, current := none })).search c

/-- A verify job applies its outcome, releases its pin and lane, and completes DONE (R141). That the notices of its outcome
and of its release are posted before the completion (log entries 67 and 69), and that the completion carries the count done 0
(log entry 78), are the model's choices. -/
def State.verifySegEnd (s : State) (c : ChainRef) (v : Verify) (e : SegEnd) : State :=
  let x := v.seg.extent
  match (s.entry x).seg with
  | some f =>
    let verdict := e.verdict f
    let restored := verdict.passes && decide ((s.entry x).state = .damaged)
    let s := s.applyVerdict x .verify (some c.port) v.journalPass verdict
    let after := (s.entry x).state
    let s := s.dropSeg (.chain c)
    s.complete c { Completion.doneWith (.verify verdict.outcomes verdict.failure restored) with
                   stateAfter := some (.entry after) }
  | none => s

/-- A scrub verification applies its outcome, releases its pin and lane, and is counted (R144). That the EXPIRED entry of a
retest at that release is appended before the SCRUB_PASS entry of the pass it ends is the model's choice (log entry 75). -/
def State.scrubSegEnd (s : State) (g : SegJob) (e : SegEnd) : State :=
  match (s.entry g.extent).seg with
  | some f =>
    let verdict := e.verdict f
    let restored := verdict.passes && decide ((s.entry g.extent).state = .damaged)
    let s := s.applyVerdict g.extent .scrub none false verdict
    let s := s.dropSeg .scrub
    s.scrubDone (scrubVerified restored verdict.passes)
  | none => s

/-- A job's read and decode of its segment has ended (R94, R128, R139, R144). -/
def State.segEnded (s : State) (r : JobRef) (e : SegEnd) : State :=
  match r with
  | .chain c =>
    match s.job c with
    | some (.retrieval j) =>
      match j.current with
      | some g => s.retrievalSegEnd c j g e
      | none => s
    | some (.verify v) => s.verifySegEnd c v e
    | _ => s
  | .scrub =>
    match s.audit.scrub with
    | some g => s.scrubSegEnd g e
    | none => s

/-- A decode stands between two records, or has ended (R67, R68). -/
def State.decodeStands (s : State) (r : JobRef) (h : SegHeader) (d : DecodeStep) : State :=
  match d with
  | .more d => s.setPhase r (.decoding h d)
  | .whole m => s.segEnded r (.whole m)
  | .failure i => s.segEnded r (.failed (.decodeFailure i))

/-! ## The walk of a CATALOGUE_READ (R95) -/

/-- A catalogue entry as CATALOGUE_READ shows it (R95, R109). -/
def State.entryShown (s : State) (x : Nat) : EntryShown :=
  let e := s.entry x
  { extent := x, state := e.state, seg := e.seg, pins := e.pins, holds := e.holds,
    retainUntil := e.seg.map s.retainUntil, verify := e.verify }

/-- Whether an entry passes the filters of CATALOGUE_READ (R95). -/
def passesFilters (source : Option Nat) (st : Option EntryState) (e : EntryShown) : Bool :=
  (match source with | some n => e.seg.any (fun v => decide (v.source = n)) | none => true)
    && (match st with | some t => decide (e.state = t) | none => true)

/-- The completion of a walk: past the last extent it carries nothing beside its count, and an ending before that carries
the next extent (R95). -/
def CatalogueRead.completion (w : CatalogueRead) (status : Status) : Completion :=
  { Completion.plain status w.filled with results := if status = .done then .none else .nextExtent w.next }

/-- A walk once it has examined its next extent. -/
def CatalogueRead.examined (w : CatalogueRead) (shown : Bool) : CatalogueRead :=
  { w with next := w.next + 1, filled := w.filled + (if shown then 1 else 0) }

/-- The next extent of a chain's walk is examined: its entry is copied as it stands, where it passes the filters, and the
walk goes on, or ends past the last extent or with its buffer full (R95). -/
def State.walkOn (s : State) (c : ChainRef) (w : CatalogueRead) : State :=
  let e := s.entryShown w.next
  let shown := passesFilters w.source w.filter e
  let s := if shown then s.emit (.place c.port (w.buf.addr + 64 * w.filled) (.entry e)) else s
  let w := w.examined shown
  if extentCount ≤ w.next then s.complete c (w.completion .done)
  else if countRead w.buf.count ≤ w.filled then s.complete c (w.completion .donePartial)
  else s.setJob c (.catalogueRead w)

/-- The walk of a chain's CATALOGUE_READ. -/
def State.walk (s : State) (c : ChainRef) : Option CatalogueRead :=
  match s.job c with
  | some (.catalogueRead w) => some w
  | _ => none

/-- What the part does of itself while no command waits: the walk of the lowest-numbered port's lowest-numbered chain
that walks the catalogue examines one extent; with no walk in progress the part idles (R95; log entries 13 and 17). -/
def State.tick (s : State) : State :=
  match allChains.find? (fun c => (s.walk c).isSome) with
  | some c => match s.walk c with | some w => s.walkOn c w | none => s
  | none => s

end Sys2Proof.Machine
end

