-- ==== Sys2Proof/Machine/JournalOps.lean ====
section
/-!
DEFINITION. Shared operations of the Journal on its pages: durability and its reports, the write position, releases, the
journal read, and the service of the append wait list (R90, R122, R149, R150, R152, R154, R155).
-/

namespace Sys2Proof.Machine

/-! ## Durability reports (R90, R122) -/

/-- A durable seal is told to its file, where the file is still in the file table (R20, R90). -/
def State.tellFile (s : State) (v : SegFields) : State :=
  match s.findFile v.source v.fileNo with
  | some (k, _) =>
    (s.modFile k (fun f => { f with segsInFlight := f.segsInFlight - 1, segsSealed := f.segsSealed + 1 })).handOver k
  | none => s

/-- A JOURNALING entry whose seal entry is durable becomes SEALED: its hold count is set, L is recomputed, and its file is
told unless the seal was recovered at power-on (R90, R91). -/
def State.sealDurable (s : State) (x serial : Nat) (toFile : Bool) : State :=
  match (s.entry x).seg with
  | some v =>
    if (s.entry x).state = .journaling ∧ (s.entry x).sealJournal = some serial then
      let holds := s.coverCount v
      let s := s.modEntry x (fun e => { e with state := .sealed, sealJournal := none, holds })
      let s := s.recomputeL
      if toFile then s.tellFile v else s
    else s
  | none => s

/-- A RETIRING entry whose EXPIRED or DISCARDED entry is durable becomes ERASING and its ERASE is requested (R122). -/
def State.retireDurable (s : State) (x serial : Nat) : State :=
  if (s.entry x).state = .retiring ∧ (s.entry x).retireJournal = some serial then
    (s.modEntry x (fun e => { e with state := .erasing, retireJournal := none })).request (channelOf x) (.erase x)
  else s

/-- One durable entry reported to the block that waits on it (R149). The entries of a page are reported in serial order (log
entry 74). -/
def State.reportDurable (s : State) (e : JEntry) : State :=
  match e.body with
  | .sealed f => s.sealDurable f.extent e.serial true
  | .recoveredSeal f => s.sealDurable f.extent e.serial false
  | .expired x _ _ _ _ _ _ => s.retireDurable x e.serial
  | .discarded x _ _ _ _ _ _ _ => s.retireDurable x e.serial
  | _ => s

/-! ## The write position (R149, R150) -/

/-- The journal extents when the write position has moved from one slot's extent to another's: the one left is WRITTEN,
and the next is CURRENT if it is ERASED (R150). -/
def extentsAfter (extents : Vector JExtState 4) (left entered : Fin 4) : Vector JExtState 4 :=
  if left = entered then extents
  else
    let e := vset extents left .written
    if e[entered.val] = .erased then vset e entered .current else e

/-- The write position moves to the next slot of the ring (R149, R150). -/
def State.advanceWrite (s : State) : State :=
  let j := s.journal
  let next := (j.writePos + 1) % journalSlots
  s.setJournal { j with writePos := next, extents := extentsAfter j.extents (slotExtent j.writePos) (slotExtent next) }

/-- The state with what a page slot holds on the flash replaced. -/
def State.setPage (s : State) (slot : Nat) (entries : List StoredEntry) : State :=
  s.setFlash { s.flash with pages := tput s.flash.pages slot entries }

/-- A page WRITE completed without failure: its entries are durable, the write position moves on, the buffers move on, and
the durability is reported (R149). That the WRITE of the next ready page is requested before the ERASEs that the durable
EXPIRED and DISCARDED entries start (R122) is the model's choice (log entry 59). -/
def State.pageWritten (s : State) (i : Fin 2) : State :=
  let entries := s.journal.bufs[i.val].entries
  let w := s.journal.writePos
  let s := s.setPage w (entries.map (fun e => ⟨e, true⟩))
  let s := s.setJournal { s.journal with
    durable := (entries.getLast?.map (·.serial)).getD s.journal.durable,
    lastSlot := some w,
    pageMap := tput s.journal.pageMap w (entries.map (·.serial)),
    bufs := vset s.journal.bufs i ⟨.free, []⟩ }
  let s := State.pumpPages 6 (s.advanceWrite.startPageWrite)
  ((entries.foldl State.reportDurable s).reserveWait).decideLow

/-- A page WRITE failed: the slot is left unused, and the same page goes to the next slot (R150). -/
def State.pageFailed (s : State) (i : Fin 2) : State :=
  let s := s.setPage s.journal.writePos []
  let s := (s.setJournal { s.journal with failures := s.journal.failures + 1 }).advanceWrite
  (s.setPageState i .ready).startPageWrite

/-! ## Journal extents (R150) -/

/-- The part of a table that lies outside a journal extent's slots. -/
def outsideExtent {α : Type} (t : Table α) (x : Fin 4) : Table α := t.filter (fun p => decide (slotExtent p.1 ≠ x))

/-- Whether every entry a WRITTEN extent holds is released (R150). -/
def Journal.extentReleased (j : Journal) (release : Nat) (x : Fin 4) : Bool :=
  decide (j.extents[x.val] = .written)
    && j.pageMap.all (fun p => decide (slotExtent p.1 ≠ x) || p.2.all (fun n => decide (n ≤ release)))

/-- The ERASE of a journal extent is requested (R150). -/
def State.eraseJournal (s : State) (x : Fin 4) : State :=
  (s.setJournal { s.journal with extents := vset s.journal.extents x .erasing }).request 0 (.journalErase x)

/-- Every WRITTEN extent whose entries are all released has its ERASE requested (R155, step 2). That several are requested by
rising extent number is the model's choice (log entry 73). -/
def State.eraseReleased (s : State) : State :=
  four.foldl (fun s x => if s.journal.extentReleased s.settings.release x then s.eraseJournal x else s) s

/-- A journal extent's ERASE completed without failure: it is ERASED, CURRENT where it holds the write position, and a
page that waited for it is written (R150). -/
def State.journalErased (s : State) (x : Fin 4) : State :=
  let s := s.setFlash { s.flash with pages := outsideExtent s.flash.pages x }
  let st := if slotExtent s.journal.writePos = x then JExtState.current else .erased
  (s.setJournal { s.journal with extents := vset s.journal.extents x st,
                                 pageMap := outsideExtent s.journal.pageMap x }).startPageWrite

/-! ## JOURNAL_READ (R154) -/

/-- The completion of a journal read (R154). -/
def JournalRead.completion (j : JournalRead) (status : Status) (readFailed : Bool) (next : Nat) : Completion :=
  { status, flags := { Flags.none with releasedSkipped := j.skipped, readFailed }, mismatch := false,
    stateAfter := none, countDone := j.filled, results := .nextSerial next }

/-- The walk of a journal read where entries before it have been released: it continues at the oldest unreleased serial
(R154). -/
def JournalRead.skipReleased (j : JournalRead) (release : Nat) : JournalRead :=
  if j.serial ≤ release then { j with serial := release + 1, skipped := true } else j

/-- The slot that the page map lists for a serial (R156). -/
def Journal.slotOf (j : Journal) (serial : Nat) : Option Nat :=
  (j.pageMap.find? (fun p => p.2.contains serial)).map Prod.fst

/-- A page READ is requested for a journal read (R154). -/
def State.readPage (s : State) (c : ChainRef) (j : JournalRead) (slot : Nat) (again : Bool) : State :=
  let opened := s.placeOpen 0
  let s := (s.setJob c (.journalRead j)).request 0 (.pageRead slot (.job (some c)) again)
  s.setChainState c (if opened then .running else .waiting)

/-- What is written for a serial: its entry where the page holds it with a check that holds, and a lost marker otherwise
(R154). -/
def entryPlace (serial : Nat) (page : List StoredEntry) : Place :=
  match page.find? (fun e => e.checkHolds && decide (e.entry.serial = serial)) with
  | some e => .journal e.entry
  | none => .lost serial

/-- A journal read written on, with the page READ last, as far as it goes without another READ: to its end, or to the next
page it needs (R154). -/
def State.readOn : Nat → State → ChainRef → JournalRead → Option (Nat × List StoredEntry) → State
  | 0, s, _, _, _ => s
  | n + 1, s, c, j, page =>
    if s.journal.durable < j.serial then s.complete c (j.completion .done false j.serial)
    else if countRead j.buf.count ≤ j.filled then s.complete c (j.completion .donePartial false j.serial)
    else
      let written := fun (p : List StoredEntry) =>
        State.readOn n (s.emit (.place c.port (j.buf.addr + 64 * j.filled) (entryPlace j.serial p))) c
          { j with serial := j.serial + 1, filled := j.filled + 1 } page
      match s.journal.slotOf j.serial, page with
      | none, _ => written []
      | some slot, some (p, entries) => if p = slot then written entries else s.readPage c j slot false
      | some slot, none => s.readPage c j slot false

/-- The steps a journal read can need between two READs: one for each place, and one to end. -/
def readFuel : Nat := 4097

/-! ## The append wait list served (R152) -/

/-- What the requests have after the head has been served. -/
def State.nextAppend (s : State) : State := s.reserveWait.decideLow

/-- A waiting record whose places are all reserved at the head is taken, unless it still needs a staging buffer; then it
stays at the head (R71, R152). -/
def State.serveRecord (s : State) (c : ChainRef) : State :=
  match s.feed c with
  | some f =>
    match f.waiting with
    | some w =>
      if w.needsBuf && !s.bufferOpen c then (s.joinBufferWait c).nextAppend
      else
        let s := s.setStager { s.stager with wait := s.stager.wait.filter (fun d => decide (d ≠ c)) }
        (s.popAppend.takeAndMove c f w).nextAppend
    | none => s
  | none => s

/-- The head of the append wait list is appended where its places are all reserved (R152). -/
def State.serveAppend (s : State) : State :=
  match s.journal.wait with
  | r :: _ =>
    if r.places ≤ s.journal.reserved then
      match r with
      | .entry body note => (s.popAppend.appendWith body note).nextAppend
      | .record c _ => s.serveRecord c
      | .commit _ => (s.popAppend.commitPolicy s.clock.commitDays).nextAppend
    else s
  | [] => s

end Sys2Proof.Machine
end

