-- ==== Sys2Proof/Machine/PortOps.lean ====
section
/-!
DEFINITION. Shared operations of the ports and the Service Arbiter: the end of a chain by a stop, an unanswered read or a
port reset, the port reset, and the choice of a lane's next job (R11, R13, R131, R139, R154, R159, R161 to R163, R165).
-/

namespace Sys2Proof.Machine

/-! ## The end of a chain -/

/-- A chain's descriptor is ended by CHAIN_STOP at its next boundary (R13, R95, R131, R139, R154, R159). That a job's pin is
released, and its entry retested, before the completion is written (log entry 71), that a verification carries the count done 0
(log entry 78), and that a journal read reports its next serial as it stands, released meanwhile or not (log entry 85), are the
model's choices. -/
def State.stopJob (s : State) (c : ChainRef) : State :=
  match s.job c with
  | some (.feed _) => s.endFeed c .stopped false
  | some (.retrieval r) =>
    (s.dropSeg (.chain c)).complete c (r.completion .stopped (some r.stoppedCursor) s.settings.lastSeal)
  | some (.verify _) => (s.dropSeg (.chain c)).complete c (Completion.plain .stopped 0)
  | some (.journalRead j) => (s.leaveStore (.chain c)).complete c (j.completion .stopped false j.serial)
  | some (.catalogueRead w) => s.complete c (w.completion .stopped)
  | none => s.complete c (Completion.plain .stopped 0)

/-- A chain stops at a port reset: its job leaves its lists, its pin and its lane, and no completion is written (R163). -/
def State.resetJob (s : State) (c : ChainRef) : State :=
  let s :=
    match s.job c with
    | some (.feed _) => s.leaveFeed c
    | some (.retrieval _) => s.dropSeg (.chain c)
    | some (.verify _) => s.dropSeg (.chain c)
    | some (.journalRead _) => s.leaveStore (.chain c)
    | some (.catalogueRead _) => s
    | none => s
  s.modChain c (fun h => { h with state := .idle, desc := none })

/-- A fetch that is not answered, or answered with an error, ends its chain with a notice and no completion (R161). -/
def State.fetchFails (s : State) (c : ChainRef) : State :=
  if s.fetching c then (s.idleChain c).notice c.port .fetchTimeout (.chain c.chain (s.chain c).next) else s

/-- A buffer read that is not answered, or answered with an error, ends the descriptor of a feed that holds a lane, and
the verify job R139 names (R13, R139, R161). That the job's pin is released before the completion is written (log entry
71), and that the completion carries the count done 0 (log entry 78), are the model's choices. -/
def State.bufferReadFails (s : State) (c : ChainRef) : State :=
  match s.job c with
  | some (.feed f) => if f.laneHeld then s.endFeed c .fetchTimeout false else s
  | some (.verify _) => (s.dropSeg (.chain c)).complete c (Completion.plain .fetchTimeout 0)
  | _ => s

/-! ## Port reset (R163) -/

/-- A port's context after a port reset, its chains aside (R132, R158, R163, R164). -/
def Port.afterReset (q : Port) (g : Nat) : Port :=
  { q with cell0 := ⟨0, 0, 0⟩, cell1 := 0, lastResult := .taken, cellCount := 0, area := none, chainNotices := 0,
           intakeNotices := 0, archiveNotices := 0, active := Projection.everything,
           pendingProj := Projection.everything, interval := 16, tag := g }

/-- A port reset, which leaves the port DOWN (R163). That its chains stop by rising number, which fixes the order in which
their pins are released and their entries retested (R94, R121), is the model's choice (log entry 70). -/
def State.portReset (s : State) (p : PortId) : State :=
  let s := s.modPort p (fun q => { q with state := .down })
  let s := four.foldl (fun s c => s.resetJob ⟨p, c⟩) s
  (s.modPort p (fun q => q.afterReset s.arbiter.g)).orphanFiles p

/-! ## The Service Arbiter (R165) -/

/-- Whether a waiting job may be granted a lane: a feed may not while another feed of its stream holds one. A stream is its
source id's, whichever slot an opening of it takes (R3, R165; log entry 55). -/
def State.grantable (s : State) (c : ChainRef) : Bool :=
  match s.job c with
  | some (.feed f) =>
    allChains.all (fun d => match s.feed d with
      | some g => !(g.laneHeld && decide (g.source = f.source))
      | none => true)
  | some _ => true
  | none => false

/-- The oldest waiting job of a port that may be granted (R165). -/
def State.candidate (s : State) (p : PortId) : Option ChainRef :=
  ((s.arbiter.waiting[p.val].find? (fun c => s.grantable ⟨p, c⟩))).map (fun c => ⟨p, c⟩)

/-- The job the next grant goes to: of the ports with a job that may be granted, the one with the least tag, the lower
number where tags are equal (R165). -/
def State.nextGrant (s : State) : Option ChainRef :=
  four.foldl (fun best p =>
    match s.candidate p, best with
    | some c, some b => if (s.port p).tag < (s.port b.port).tag then some c else some b
    | some c, none => some c
    | none, b => b) none

/-- The free lane that a grant takes (R165). That it is the lowest-numbered one is the model's choice (log entry 62). -/
def Arbiter.freeLane (a : Arbiter) : Option LaneNo := four.find? (fun l => decide (a.lanes[l.val] = none))

/-- The cost of a waiting job, at least 1 (R165). -/
def State.cost (s : State) (c : ChainRef) : Nat :=
  match s.job c with
  | some (.feed f) => max 1 f.places
  | some j =>
    match j.seg with
    | some g => match g.phase with | .waitLane h _ => max 1 h.seg.count | _ => 1
    | none => 1
  | none => 1

/-- A tag, or G, brought down by 2^45 and no lower than 0 (R165). -/
def lowered (v : Nat) : Nat := v - 2 ^ 45

/-- A grant charges its port: G becomes the port's tag, the tag grows by cost times interval, and everything is brought
down once G has reached 2^46 (R165). -/
def State.charge (s : State) (p : PortId) (cost : Nat) : State :=
  let g := (s.port p).tag
  let s := s.modPort p (fun q => { q with tag := q.tag + cost * q.interval })
  if 2 ^ 46 ≤ g then
    (s.setPorts (s.ports.map (fun q => { q with tag := lowered q.tag }))).setArbiter
      { s.arbiter with g := lowered g }
  else s.setArbiter { s.arbiter with g }

/-- A lane is held by a job (R165). -/
def State.holdLane (s : State) (l : LaneNo) (r : JobRef) : State :=
  s.setArbiter { s.arbiter with lanes := vset s.arbiter.lanes l (some r) }

/-- The second test of a feed, at its grant: its file is still in the table, OPEN, and owned by the issuing port; if not,
the feed completes REFUSED_STATE and gives the lane back (R8). -/
def State.feedGranted (s : State) (c : ChainRef) (f : Feed) : State :=
  let open_ := !f.fileGone && (match tget s.files f.file with
    | some g => decide (g.state = .opened) && decide (g.owner = c.port)
    | none => false)
  if open_ then (s.setJob c (.feed { f with laneHeld := true })).setChainState c .running
  else s.endFeed c .refusedState false

/-- A granted segment begins its decode from its first bit (R67, R128, R139). -/
def State.decodeGranted (s : State) (r : JobRef) : State :=
  match s.segJob r with
  | some g =>
    match g.phase with
    | .waitLane h body => (s.jobState r .running).decodeStands r h (decodeStart0 h body)
    | _ => s
  | none => s

/-- The job granted a lane goes on (R8, R128, R139). -/
def State.granted (s : State) (c : ChainRef) : State :=
  match s.job c with
  | some (.feed f) => s.feedGranted c f
  | _ => s.decodeGranted (.chain c)

/-- One grant: a free lane goes to the next job of the ports, or to the scrub where no port job may be granted (R165). -/
def State.grantLane (s : State) : State :=
  match s.arbiter.freeLane with
  | some l =>
    match s.nextGrant with
    | some c => (((s.charge c.port (s.cost c)).leaveArbiter c).holdLane l (.chain c)).granted c
    | none =>
      if s.arbiter.scrubWaits then
        ((s.setArbiter { s.arbiter with scrubWaits := false }).holdLane l .scrub).decodeGranted .scrub
      else s
  | none => s

end Sys2Proof.Machine
end

