-- ==== Sys2Proof/Machine/Streams.lean ====
section
/-!
DEFINITION. The commands on streams: STREAM_OPEN, STREAM_CLOSE, STREAM_SNAPSHOT, STREAM_MASK, WIDTH_SET and GAP_READ.
-/

namespace Sys2Proof.Machine

/-- A command completes DONE with result fields. -/
def State.done (s : State) (a : At) (results : Results) : State := s.complete (refOf a) (Completion.doneWith results)

/-- Places written into a buffer from a place number on, 64 bytes each. That their addresses do not wrap past the last one of 64
bits is the model's choice (log entry 83). -/
def State.writePlaces (s : State) (port : PortId) (addr : Nat) : Nat → List Place → State
  | _, [] => s
  | i, p :: t => (s.emit (.place port (addr + 64 * i) p)).writePlaces port addr (i + 1) t

/-! ## STREAM_OPEN (R2) -/

/-- The stream that an opening sets up (R2, R21, R33, R64). -/
def Stream.opening (source cls : Nat) (fill : Byte) (mask : BitVec 8) (first : Seq) (widths force : Three)
    (samples tolerance : Nat) : Stream :=
  { source, cls, fill, mask, sticky := 0, lastFault := none, account := Account.fresh first,
    training := Training.fresh (widthsRead widths) (forcesRead force) (samplesRead samples) tolerance, file := none }

/-- STREAM_OPEN at the Intake Unit (R2). -/
def State.openStream (s : State) (a : At) (source cls : Nat) (fill : Byte) (mask : BitVec 8) (first : Seq)
    (widths force : Three) (samples tolerance : Nat) : State :=
  if 7 < cls ∨ 7 < tolerance ∨ fill = 0xD1 ∨ fill = 0xE7 then s.refuse a .refusedArgument
  else if (s.findStream source).isSome then s.refuse a .refusedState
  else match lowestFree s.streams 256 with
    | none => s.refuse a .refusedFull
    | some slot =>
      (s.setStreams (tput s.streams slot
        (Stream.opening source cls fill mask first widths force samples tolerance))).done a (.slot slot)

/-- STREAM_OPEN (R2). -/
def streamOpen (a : At) (source cls : Nat) (fill : Byte) (mask : BitVec 8) (first : Seq) (widths force : Three)
    (samples tolerance : Nat) (s : State) : State :=
  s.descriptor a .intake (fun s => s.openStream a source cls fill mask first widths force samples tolerance)

/-- The meaning of STREAM_OPEN. -/
def execStreamOpen (a : At) (source cls : Nat) (fill : Byte) (mask : BitVec 8) (first : Seq) (widths force : Three)
    (samples tolerance : Nat) (s : State) : Host.Outcome State Fault Refusal :=
  .next (streamOpen a source cls fill mask first widths force samples tolerance s)

/-! ## STREAM_CLOSE (R3) -/

/-- STREAM_CLOSE at the Intake Unit (R3). -/
def State.closeStream (s : State) (a : At) (source : Nat) : State :=
  match s.findStream source with
  | none => s.refuse a .refusedState
  | some (slot, st) =>
    if st.file.isSome then s.refuse a .refusedState else (s.setStreams (tdel s.streams slot)).done a .none

/-- STREAM_CLOSE (R3). -/
def streamClose (a : At) (source : Nat) (s : State) : State := s.descriptor a .intake (·.closeStream a source)

/-- The meaning of STREAM_CLOSE. -/
def execStreamClose (a : At) (source : Nat) (s : State) : Host.Outcome State Fault Refusal := .next (streamClose a source s)

/-! ## STREAM_SNAPSHOT (R45) -/

/-- What a stream context record shows of a file (R45). -/
def fileShown (f : FileEntry) : FileShown :=
  { fileNo := f.fileNo, state := f.state, owner := f.owner, presented := f.presented, accepted := f.accepted,
    duplicates := f.duplicates, dropped := f.dropped, clamped := f.clamped, skipped := f.skipped, beyond := f.beyond,
    durSum := f.durSum, unitsSum := f.unitsSum }

/-- The predictor stack of a file's open segment (R45). -/
def State.openStack (s : State) (f : FileEntry) : Option Stack :=
  match f.openSeg.bind (tget s.stager.bufs) with
  | some v => match v.state with | .opened codec => some codec.stack | _ => none
  | none => none

/-- A stream's context record (R45). -/
def State.contextOf (s : State) (slot : Nat) (st : Stream) : ContextShown :=
  let f := st.file.bind (tget s.files)
  { slot, busy := st.file.isSome, source := st.source, e := st.account.e, occupancy := st.account.occupancy,
    gapCount := st.account.gaps.length, mask := st.mask, sticky := st.sticky, lastFault := st.lastFault,
    widths := st.training.widths, force := st.training.force, tolerance := st.training.tolerance,
    lockTd := st.training.lockTd, lockDu := st.training.lockDu, lockCu := st.training.lockCu,
    file := f.map fileShown, stack := f.bind s.openStack }

/-- STREAM_SNAPSHOT at the Intake Unit: the context record is written, then every maskable kind is masked (R45). -/
def State.snapshot (s : State) (a : At) (buf : Buf) (source : Nat) : State :=
  if countRead buf.count < 2 then s.refuse a .refusedArgument
  else match s.findStream source with
    | none => s.refuse a .refusedState
    | some (slot, st) =>
      let s := s.emit (.place a.port buf.addr (.context (s.contextOf slot st)))
      (s.modStream slot (fun st => { st with mask := fullMask })).complete (refOf a) (Completion.plain .done 2)

/-- STREAM_SNAPSHOT (R45). -/
def streamSnapshot (a : At) (buf : Buf) (source : Nat) (s : State) : State :=
  s.bufferDescriptor a buf .intake (·.snapshot a buf source)

/-- The meaning of STREAM_SNAPSHOT. -/
def execStreamSnapshot (a : At) (buf : Buf) (source : Nat) (s : State) : Host.Outcome State Fault Refusal :=
  .next (streamSnapshot a buf source s)

/-! ## STREAM_MASK (R46) -/

/-- STREAM_MASK at the Intake Unit (R46). -/
def State.maskStream (s : State) (a : At) (source : Nat) (mask : BitVec 8) (clear : Bool) : State :=
  match s.findStream source with
  | none => s.refuse a .refusedState
  | some (slot, st) =>
    (s.modStream slot (fun st =>
      { st with mask, sticky := if clear then 0 else st.sticky,
                lastFault := if clear then none else st.lastFault })).done a (.masks st.mask st.sticky)

/-- STREAM_MASK (R46). -/
def streamMask (a : At) (source : Nat) (mask : BitVec 8) (clear : Bool) (s : State) : State :=
  s.descriptor a .intake (·.maskStream a source mask clear)

/-- The meaning of STREAM_MASK. -/
def execStreamMask (a : At) (source : Nat) (mask : BitVec 8) (clear : Bool) (s : State) :
    Host.Outcome State Fault Refusal :=
  .next (streamMask a source mask clear s)

/-! ## WIDTH_SET (R66) -/

/-- WIDTH_SET at the Record Codec (R66). -/
def State.setWidths (s : State) (a : At) (source : Nat) (force : Three) (tolerance : Nat) : State :=
  if 7 < tolerance then s.refuse a .refusedArgument
  else match s.findStream source with
    | none => s.refuse a .refusedState
    | some (slot, _) =>
      (s.modStream slot (fun st => { st with training := { st.training with force := forcesRead force, tolerance } })).done
        a (.widths (forcesRead force) tolerance)

/-- WIDTH_SET (R66). -/
def widthSet (a : At) (source : Nat) (force : Three) (tolerance : Nat) (s : State) : State :=
  s.descriptor a .intake (·.setWidths a source force tolerance)

/-- The meaning of WIDTH_SET. -/
def execWidthSet (a : At) (source : Nat) (force : Three) (tolerance : Nat) (s : State) :
    Host.Outcome State Fault Refusal :=
  .next (widthSet a source force tolerance s)

/-! ## GAP_READ (R32) -/

/-- Gap entries eight to a place, in at most `n` places (R32). -/
def gapPlaces : Nat → List Gap → List Place
  | 0, _ => []
  | _, [] => []
  | n + 1, g => .gaps (g.take 8) :: gapPlaces n (g.drop 8)

/-- A stream's account as GAP_READ shows it (R32). -/
def accountShown (st : Stream) : AccountShown :=
  { source := st.source, e := st.account.e, advance := st.account.advance, occupancy := st.account.occupancy,
    gapCount := st.account.gaps.length, dropped := st.account.dropped, window := st.account.window }

/-- The places that show an account: the summary, then its gaps, at most 5 in all (R31, R32). -/
def accountPlaces (st : Stream) : List Place := .account (accountShown st) :: gapPlaces 4 st.account.gaps

/-- GAP_READ at the Sequence Tracker (R32). -/
def State.readGaps (s : State) (a : At) (buf : Buf) (source : Nat) : State :=
  if countRead buf.count < 5 then s.refuse a .refusedArgument
  else match s.findStream source with
    | none => s.refuse a .refusedState
    | some (_, st) =>
      (s.writePlaces a.port buf.addr 0 (accountPlaces st)).complete (refOf a)
        { Completion.doneWith (.gapCount st.account.gaps.length) with countDone := (accountPlaces st).length }

/-- GAP_READ (R32). -/
def gapRead (a : At) (buf : Buf) (source : Nat) (s : State) : State :=
  s.bufferDescriptor a buf .retrievalOrAudit (·.readGaps a buf source)

/-- The meaning of GAP_READ. -/
def execGapRead (a : At) (buf : Buf) (source : Nat) (s : State) : Host.Outcome State Fault Refusal :=
  .next (gapRead a buf source s)

end Sys2Proof.Machine
end

