-- ==== Sys2Proof/Machine/Audits.lean ====
section
/-!
DEFINITION. The Audit Unit and the Journal's commands: VERIFY, SCRUB_SET, SCRUB_CONSIDER, DAMAGE_REPORT, DAMAGED_DISCARD,
JOURNAL_READ and JOURNAL_RELEASE.
-/

namespace Sys2Proof.Machine

/-! ## VERIFY (R139) -/

/-- VERIFY at the Audit Unit (R139). -/
def State.beginVerify (s : State) (a : At) (x : Nat) (journalPass : Bool) : State :=
  if extentCount ≤ x then s.refuse a .refusedArgument
  else match (s.entry x).seg with
    | some v =>
      if (s.entry x).accepts v.serial then
        (s.setJob (refOf a) (.verify { seg := ⟨x, v.serial, .pinned⟩, journalPass })).askPin (refOf a) x
      else s.refuse a .refusedState
    | none => s.refuse a .refusedState

/-- VERIFY (R139). -/
def verify (a : At) (x : Nat) (journalPass : Bool) (s : State) : State :=
  s.descriptor a .audit (·.beginVerify a x journalPass)

/-- The meaning of VERIFY. -/
def execVerify (a : At) (x : Nat) (journalPass : Bool) (s : State) : Host.Outcome State Fault Refusal :=
  .next (verify a x journalPass s)

/-! ## SCRUB_SET (R143) -/

/-- A scrub verification in progress is ended with no outcome applied (R139, R143). -/
def State.endScrub (s : State) : State :=
  let s := s.dropSeg .scrub
  s.setAudit { s.audit with scrub := none }

/-- SCRUB_SET at the Audit Unit (R143). That a "journal low" notice of a retest at the pin's release is posted before the
completion is the model's choice (log entry 67). -/
def State.setScrub (s : State) (a : At) (enable : Bool) (start : Nat) : State :=
  if extentCount ≤ start then s.refuse a .refusedArgument
  else
    let s := s.endScrub
    let pointer := s.audit.pointer
    let counts := s.audit.counts
    let s :=
      if enable then
        s.setAudit { s.audit with enable := true, pointer := start, passStart := start, counts := PassCounts.zero }
      else s.setAudit { s.audit with enable := false }
    s.done a (.scrub pointer counts)

/-- SCRUB_SET (R143). -/
def scrubSet (a : At) (enable : Bool) (start : Nat) (s : State) : State :=
  s.descriptor a .audit (·.setScrub a enable start)

/-- The meaning of SCRUB_SET. -/
def execScrubSet (a : At) (enable : Bool) (start : Nat) (s : State) : Host.Outcome State Fault Refusal :=
  .next (scrubSet a enable start s)

/-! ## SCRUB_CONSIDER (R144) -/

/-- The scrub begins the verification of an extent: it is granted the pin and requests its read (R144). -/
def State.beginScrub (s : State) (x serial : Nat) : State :=
  let s := s.modEntry x (fun e => { e with pins := e.pins + 1 })
  (s.setAudit { s.audit with scrub := some ⟨x, serial, .pinned⟩ }).startRead .scrub x false

/-- The enabled scrub considers the extent at its pointer (R144). -/
def State.considerScrub (s : State) : State :=
  if s.power = .ready ∧ s.audit.enable ∧ s.audit.scrub = none ∧ s.freePlaces ≠ 0 then
    let e := s.entry s.audit.pointer
    match e.seg with
    | some v =>
      if e.state = .sealed ∨ e.state = .damaged then
        if e.pins < 4 then s.beginScrub s.audit.pointer v.serial
        else s.scrubDone (fun c => { c with busy := c.busy + 1 })
      else s.scrubDone id
    | none => s.scrubDone id
  else s

/-- The meaning of SCRUB_CONSIDER. -/
def execScrubConsider (s : State) : Host.Outcome State Fault Refusal := .next s.considerScrub

/-! ## DAMAGE_REPORT (R142) -/

/-- The Audit Unit takes the oldest failure report: an entry in SEALED or EXPIRY_WAIT with the serial named is
quarantined (R142). That of several waiting reports the oldest is taken first is the model's choice (log entry 60). -/
def State.takeReport (s : State) : State :=
  match s.audit.reports with
  | r :: t =>
    let s := s.setAudit { s.audit with reports := t }
    match (s.entry r.extent).seg with
    | some v =>
      if v.serial = r.serial ∧ ((s.entry r.extent).state = .sealed ∨ (s.entry r.extent).state = .expiryWait) then
        s.quarantine r.extent v.source v.serial .retrieval ⟨FieldOutcomes.different, some r.failure⟩ none
      else s
    | none => s
  | [] => s

/-- The meaning of DAMAGE_REPORT. -/
def execDamageReport (s : State) : Host.Outcome State Fault Refusal := .next s.takeReport

/-! ## DAMAGED_DISCARD (R146) -/

/-- Whether an entry may be discarded, the journal aside (R146, R147). -/
def Entry.discardable (e : Entry) : Bool :=
  decide (e.state = .damaged) && decide (e.holds = 0) && decide (e.pins = 0) && decide (e.reports = 0)

/-- A DAMAGED entry is discarded: its DISCARDED entry is appended and it becomes RETIRING (R146). That a "journal low" notice
of that entry is posted before the completion is the model's choice (log entry 67). -/
def State.discard (s : State) (a : At) (x : Nat) (v : SegFields) : State :=
  let serial := s.journal.next
  let s := s.appendRaw (.discarded x v.source v.serial v.cls v.count v.minDay v.maxDay a.port)
  let s := s.modEntry x (fun e => { e with state := .retiring, retireJournal := some serial })
  s.decideLow.done a .none

/-- DAMAGED_DISCARD at the Audit Unit (R146). -/
def State.discardDamaged (s : State) (a : At) (x : Nat) : State :=
  if extentCount ≤ x then s.refuse a .refusedArgument
  else if (s.entry x).discardable then
    match (s.entry x).seg with
    | some v => if s.freePlaces = 0 then s.refuse a .refusedJournal else s.discard a x v
    | none => s.refuse a .refusedState
  else s.refuse a .refusedState

/-- DAMAGED_DISCARD (R146). -/
def damagedDiscard (a : At) (x : Nat) (s : State) : State := s.descriptor a .audit (·.discardDamaged a x)

/-- The meaning of DAMAGED_DISCARD. -/
def execDamagedDiscard (a : At) (x : Nat) (s : State) : Host.Outcome State Fault Refusal := .next (damagedDiscard a x s)

/-! ## JOURNAL_READ (R154) -/

/-- JOURNAL_READ at the Journal (R154). -/
def State.beginJournalRead (s : State) (a : At) (buf : Buf) (serial : Nat) : State :=
  let j : JournalRead := { serial, buf, filled := 0, skipped := false }
  let j := j.skipReleased s.settings.release
  State.readOn readFuel (s.setJob (refOf a) (.journalRead j)) (refOf a) j none

/-- JOURNAL_READ (R154). -/
def journalRead (a : At) (buf : Buf) (serial : Nat) (s : State) : State :=
  s.bufferDescriptor a buf .audit (·.beginJournalRead a buf serial)

/-- The meaning of JOURNAL_READ. -/
def execJournalRead (a : At) (buf : Buf) (serial : Nat) (s : State) : Host.Outcome State Fault Refusal :=
  .next (journalRead a buf serial s)

/-! ## JOURNAL_RELEASE (R155) -/

/-- A release up to an applied serial above the release serial (R155, steps 1 to 3). That its "journal clear" notice is posted
before the completion of the command is the model's choice (log entry 67). -/
def State.release (s : State) (applied : Nat) : State :=
  let s := s.setSettings { s.settings with release := applied }
  (s.eraseReleased.reserveWait).decideLow

/-- JOURNAL_RELEASE at the Journal (R155). -/
def State.takeRelease (s : State) (a : At) (serial : Nat) : State :=
  let applied := min serial s.journal.durable
  let before := s.settings.release
  let s := if applied ≤ before then s else s.release applied
  s.complete (refOf a)
    { Completion.doneWith (.release s.settings.release (s.settings.release - before) s.freePlaces) with
      flags := { Flags.none with clamped := decide (applied < serial) } }

/-- JOURNAL_RELEASE (R155). -/
def journalRelease (a : At) (serial : Nat) (s : State) : State := s.descriptor a .audit (·.takeRelease a serial)

/-- The meaning of JOURNAL_RELEASE. -/
def execJournalRelease (a : At) (serial : Nat) (s : State) : Host.Outcome State Fault Refusal :=
  .next (journalRelease a serial s)

end Sys2Proof.Machine
end

