-- ==== Sys2Proof/Machine/Files.lean ====
section
/-!
DEFINITION. The commands on files and the expiry of a file's deadline: FILE_OPEN, FILE_FEED, FILE_RESUME, FILE_ABANDON,
FILE_ADOPT and FILE_DEADLINE_EXPIRY.
-/

namespace Sys2Proof.Machine

/-! ## FILE_OPEN (R6) -/

/-- The entry of a file that opens (R6). -/
def FileEntry.opening (fileNo slot : Nat) (owner : PortId) (minutes : Nat) : FileEntry :=
  { fileNo, stream := slot, owner, state := .opened, wasHalted := false, haltCause := none, closingCause := none,
    deadline := 60 * minutesRead minutes, presented := 0, accepted := 0, duplicates := 0, dropped := 0, clamped := 0,
    skipped := 0, beyond := 0, durSum := 0, durSaturated := false, unitsSum := 0, unitsSaturated := false,
    segsSealed := 0, segsInFlight := 0, openSeg := none, trailer := none }

/-- FILE_OPEN at the Intake Unit (R6, R33). -/
def State.openFile (s : State) (a : At) (source fileNo minutes : Nat) : State :=
  if 10080 < minutes then s.refuse a .refusedArgument
  else match s.findStream source with
    | none => s.refuse a .refusedState
    | some (slot, st) =>
      if st.file.isSome then s.refuse a .refusedState
      else match lowestFree s.files 32 with
        | none => s.refuse a .refusedFull
        | some k =>
          let s := s.setFiles (tput s.files k (FileEntry.opening fileNo slot a.port minutes))
          (s.modStream slot (fun st => { st with file := some k, sticky := 0, lastFault := none })).done a .none

/-- FILE_OPEN (R6). -/
def fileOpen (a : At) (source fileNo minutes : Nat) (s : State) : State :=
  s.descriptor a .intake (·.openFile a source fileNo minutes)

/-- The meaning of FILE_OPEN. -/
def execFileOpen (a : At) (source fileNo minutes : Nat) (s : State) : Host.Outcome State Fault Refusal :=
  .next (fileOpen a source fileNo minutes s)

/-! ## FILE_FEED (R8) -/

/-- The feed of a buffer of `places` places of a file of a source (R8, R13). -/
def Feed.begin (file slot source places : Nat) : Feed :=
  { file, stream := slot, source, places, next := 0, accepted := 0, duplicates := 0, dropped := 0, clamped := 0, skipped := 0,
    beyond := 0, fileGone := false, laneHeld := false, waiting := none }

/-- FILE_FEED at the Intake Unit, when its descriptor is taken (R7, R8). That a feed refused here reports no state of the
file it found (byte 0) is the model's choice (log entry 46). -/
def State.takeFeed (s : State) (a : At) (buf : Buf) (source fileNo : Nat) : State :=
  let places := countRead buf.count
  if places % 32 ≠ 0 then s.refuse a .refusedArgument
  else match s.findFile source fileNo with
    | none => s.refuse a .refusedState
    | some (k, f) =>
      if f.owner = a.port ∧ f.state = .opened then
        (s.setJob (refOf a) (.feed (Feed.begin k f.stream source places))).waitForLane (refOf a)
      else s.refuse a .refusedState

/-- FILE_FEED (R8). -/
def fileFeed (a : At) (buf : Buf) (source fileNo : Nat) (s : State) : State :=
  s.bufferDescriptor a buf .intake (·.takeFeed a buf source fileNo)

/-- The meaning of FILE_FEED. -/
def execFileFeed (a : At) (buf : Buf) (source fileNo : Nat) (s : State) : Host.Outcome State Fault Refusal :=
  .next (fileFeed a buf source fileNo s)

/-! ## FILE_RESUME (R15) -/

/-- Whether a buffer is a FAILED buffer of a file. -/
def Staging.failedOf (f : FileEntry) (v : Staging) : Bool :=
  decide (v.stream = f.stream) && decide (v.fileNo = f.fileNo)
    && (match v.state with | .failed _ => true | _ => false)

/-- A FAILED buffer has its fresh attempts: it is SEALING with attempt 1, and its seal rejoins the seal wait list (R82). -/
def State.freshAttempts (s : State) (b : Nat) : State :=
  match tget s.stager.bufs b with
  | some v =>
    match v.state with
    | .failed h => (s.setBuf b { v with state := .sealing h 1 none }).joinSeals b
    | _ => s
  | none => s

/-- The file after FILE_RESUME (R15). -/
def FileEntry.resumed (f : FileEntry) : FileEntry :=
  { f with haltCause := none, state := if f.closingCause.isSome then .closing else .opened }

/-- FILE_RESUME at the Intake Unit (R7, R15). That its completion is written before the "file closed" notice of a hand-over
which closes the file at once is the model's choice (log entry 56). -/
def State.resumeFile (s : State) (a : At) (source fileNo : Nat) : State :=
  match s.findFile source fileNo with
  | none => s.refuse a .refusedState
  | some (k, f) =>
    if f.owner = a.port ∧ f.state = .halted then
      let s := s.modFile k FileEntry.resumed
      let s := if f.haltCause = some .store then
          ((s.stager.bufs.filter (fun p => p.2.failedOf f)).map Prod.fst).foldl State.freshAttempts s
        else s
      (s.done a .none).handOver k
    else s.refuse a .refusedState

/-- FILE_RESUME (R15). -/
def fileResume (a : At) (source fileNo : Nat) (s : State) : State := s.descriptor a .intake (·.resumeFile a source fileNo)

/-- The meaning of FILE_RESUME. -/
def execFileResume (a : At) (source fileNo : Nat) (s : State) : Host.Outcome State Fault Refusal :=
  .next (fileResume a source fileNo s)

/-! ## FILE_ABANDON (R19) -/

/-- A file that becomes CLOSING with a cause, its halt forgotten (R16, R19). -/
def FileEntry.closing (cause : ClosingCause) (f : FileEntry) : FileEntry :=
  { f with state := .closing, closingCause := some cause, haltCause := none, wasHalted := false }

/-- A file's open segment is discarded with its buffer (R19). -/
def State.discardOpen (s : State) (file : Nat) : State :=
  match (tget s.files file).bind (·.openSeg) with
  | some b => (s.freeBuf b).modFile file (fun f => { f with openSeg := none })
  | none => s

/-- FILE_ABANDON at the Intake Unit (R7, R19, R20). That its own completion is written before the REFUSED_STATE of the feed
it ends on another chain (log entry 47), and both before the "file closed" notice of a hand-over which closes the file at
once (log entry 56), are the model's choices. -/
def State.abandonFile (s : State) (a : At) (source fileNo : Nat) : State :=
  match s.findFile source fileNo with
  | none => s.refuse a .refusedState
  | some (k, f) =>
    if f.state ≠ .closing ∧ (f.owner = a.port ∨ f.state = .orphaned) then
      let s := (((s.discardOpen k).freeFailed k).modFile k (FileEntry.closing .abandon)).done a .none
      (s.endFeedOf k .refusedState).handOver k
    else s.refuse a .refusedState

/-- FILE_ABANDON (R19). -/
def fileAbandon (a : At) (source fileNo : Nat) (s : State) : State :=
  s.descriptor a .intake (·.abandonFile a source fileNo)

/-- The meaning of FILE_ABANDON. -/
def execFileAbandon (a : At) (source fileNo : Nat) (s : State) : Host.Outcome State Fault Refusal :=
  .next (fileAbandon a source fileNo s)

/-! ## FILE_ADOPT (R18) -/

/-- The file after an adoption (R18). -/
def FileEntry.adopted (p : PortId) (f : FileEntry) : FileEntry :=
  { f with owner := p, state := if f.wasHalted then .halted else .opened, wasHalted := false }

/-- FILE_ADOPT at the Intake Unit (R7, R18). -/
def State.adoptFile (s : State) (a : At) (source fileNo : Nat) : State :=
  match s.findFile source fileNo with
  | none => s.refuse a .refusedState
  | some (k, f) =>
    if f.state = .orphaned then (s.modFile k (FileEntry.adopted a.port)).done a .none
    else s.refuse a .refusedState

/-- FILE_ADOPT (R18). -/
def fileAdopt (a : At) (source fileNo : Nat) (s : State) : State := s.descriptor a .intake (·.adoptFile a source fileNo)

/-- The meaning of FILE_ADOPT. -/
def execFileAdopt (a : At) (source fileNo : Nat) (s : State) : Host.Outcome State Fault Refusal :=
  .next (fileAdopt a source fileNo s)

/-! ## FILE_DEADLINE_EXPIRY (R16) -/

/-- Whether a file's deadline is running (R16). -/
def FileEntry.deadlineRuns (f : FileEntry) : Bool :=
  f.closingCause.isNone
    && (decide (f.state = .opened) || decide (f.state = .halted) || decide (f.state = .orphaned))

/-- A file's deadline runs out (R16, R20). That the feed it ends completes before the "file closed" notice of a hand-over
which closes the file at once is the model's choice (log entry 56). -/
def State.expireDeadline (s : State) (k : Nat) : State :=
  match tget s.files k with
  | some f =>
    if f.deadlineRuns ∧ f.deadline = 0 then
      let s := ((s.modFile k (FileEntry.closing .deadline)).handOff k).freeFailed k
      (s.endFeedOf k .refusedState).handOver k
    else s
  | none => s

/-- The meaning of FILE_DEADLINE_EXPIRY. -/
def execFileDeadlineExpiry (file : Nat) (s : State) : Host.Outcome State Fault Refusal := .next (s.expireDeadline file)

end Sys2Proof.Machine
end

