-- ==== Sys2Proof/Machine/Feeds.lean ====
section
/-!
DEFINITION. The events of a feed and of the codec lanes: LANE_GRANT, RECORD_PLACE, STAGING_BUFFER_GIVEN and
BUFFER_READ_TIMEOUT.
-/

namespace Sys2Proof.Machine

/-! ## LANE_GRANT (R165) -/

/-- The meaning of LANE_GRANT: one grant, where a lane is free and a job waits that may be granted. -/
def execLaneGrant (s : State) : Host.Outcome State Fault Refusal := .next s.grantLane

/-! ## Halts at a place (R14, R35) -/

/-- The last fault of a halt at a place (R33, R35). -/
def faultAt (kind : FaultKind) (fileNo next : Nat) (record : Option (Seq × Nat)) (found : Option Nat) : LastFault :=
  { kind, fileNo, place := some (next / 32, next % 32), record, foundFile := found }

/-- The file halts at the feed's place: the last fault is recorded, the owner is told, and the feed completes HALTED_FAULT
(R14, R35). That the notice is posted before the completion is the model's choice (log entry 48). -/
def State.haltAt (s : State) (c : ChainRef) (f : Feed) (kind : FaultKind) (record : Option (Seq × Nat))
    (found : Option Nat) : State :=
  match tget s.files f.file with
  | some g =>
    let s := s.modStream g.stream (fun st => { st with lastFault := some (faultAt kind g.fileNo f.next record found) })
    let s := s.modFile f.file (fun g => { g with state := .halted, haltCause := some .fault })
    (s.notice g.owner .fileHalted (.file (s.sourceOf g.stream) g.fileNo)).endFeed c .haltedFault false
  | none => s

/-- A kind is raised on a stream: its sticky flag is set (R34). -/
def State.raise (s : State) (slot : Nat) (k : FaultKind) : State :=
  s.modStream slot (fun st => { st with sticky := raised st.sticky k })

/-! ## The kinds of places (R9) -/

/-- The first place of the next block (R9). -/
def nextBlock (next : Nat) : Nat := (next / 32 + 1) * 32

/-- A FRAMING fault at the place: masked, the rest of the block is passed over and blocks skipped grows; unmasked, the file
halts (R9, R36). -/
def State.framing (s : State) (c : ChainRef) (f : Feed) (st : Stream) : State :=
  let s := s.raise f.stream .framing
  if masked st.mask .framing then
    let s := s.modFile f.file (fun g => { g with skipped := g.skipped + 1 })
    (s.setJob c (.feed { f with skipped := f.skipped + 1 })).moveFeed c (nextBlock f.next)
  else s.haltAt c f .framing none none

/-- An accepted trailer (R12): the copy, the closing cause, the hand-off of the open segment, the beyond-trailer places, the
feed's completion, and the hand-over to reconciliation where nothing is in flight (R20). That the completion is posted before
the "file closed" notice of a hand-over which closes the file at once is the model's choice (log entry 56). -/
def State.acceptTrailer (s : State) (c : ChainRef) (f : Feed) (t : Trailer) : State :=
  let beyond := f.places - f.next - 1
  let s := s.modFile f.file (fun g =>
    { g with trailer := some t, closingCause := some .trailer, state := .closing, beyond := g.beyond + beyond })
  let s := (s.handOff f.file).setJob c (.feed { f with beyond := f.beyond + beyond })
  (s.endFeed c .done true).handOver f.file

/-- A trailer place (R12, R43). -/
def State.trailerPlace (s : State) (c : ChainRef) (f : Feed) (st : Stream) (fileNo : Nat) (t : Trailer) : State :=
  if t.fileNo = fileNo then s.acceptTrailer c f t
  else
    let s := s.raise f.stream .trailerFile
    if masked st.mask .trailerFile then s.acceptTrailer c f t else s.haltAt c f .trailerFile none (some t.fileNo)

/-- Whether a record fits a file's open segment (R59). -/
def fits (codec : Codec) (r : Rec) : Bool :=
  decide (codec.summary.count < recordLimit) && decide (codec.summary.bits + encodedLength codec r ≤ bodyCapacity)

/-- The codec context of a file's open segment. -/
def State.openCodec (s : State) (g : FileEntry) : Option Codec :=
  match g.openSeg.bind (tget s.stager.bufs) with
  | some v => match v.state with | .opened codec => some codec | _ => none
  | none => none

/-- The fit test: the state after a hand-off it causes, and whether the record needs a new staging buffer (R59). -/
def State.fitTest (s : State) (file : Nat) (g : FileEntry) (r : Rec) : State × Bool :=
  match s.openCodec g with
  | some codec => if fits codec r then (s, false) else (s.handOff file, true)
  | none => (s, true)

/-- A data record whose checks are made (R10). -/
def State.checkedRecord (s : State) (c : ChainRef) (f : Feed) (g : FileEntry) (st : Stream) (raw : RawRec)
    (k : Checked) : State :=
  let s := s.modStream f.stream (fun st => { st with sticky := k.sticky })
  let waitRec := fun (cls : SeqClass) (archive : Option Rec) (needsBuf : Bool) =>
    ({ seq := raw.seq, duration := raw.duration, units := raw.units, cls, archive, changed := k.changed, needsBuf,
       places := (mark st.account cls raw.seq).2.length } : WaitRec)
  match k.result with
  | .halt kind => s.haltAt c f kind (some (raw.seq, raw.start)) none
  | .dropSource => (s.countTaking c f .dropped raw.duration raw.units false).moveFeed c (f.next + 1)
  | .duplicate => (s.countTaking c f .duplicate raw.duration raw.units false).moveFeed c (f.next + 1)
  | .dropExpired cls => s.takeOrWait c f (waitRec cls none false)
  | .accept cls =>
    let r := archived k.record
    let t := s.fitTest f.file g r
    t.1.takeOrWait c f (waitRec cls (some r) t.2)

/-- What the checks of a feed's record read (R34, R40, R42). -/
def State.checkInput (s : State) (st : Stream) : CheckInput :=
  { source := st.source, mask := st.mask, account := st.account, clock := s.clock.value, days := s.activeDays st.cls }

/-- The place is read by its kind byte (R9). -/
def State.readPlace (s : State) (c : ChainRef) (f : Feed) (g : FileEntry) (st : Stream) (bytes : List Byte) : State :=
  let kind := byteAt bytes 0
  if kind = 0xD1 then
    let raw := rawRecord bytes
    s.checkedRecord c f g st raw (checkRecord (s.checkInput st) st.sticky raw)
  else if kind = 0xE7 then s.trailerPlace c f st g.fileNo (trailerAt bytes)
  else if kind = st.fill then s.moveFeed c (nextBlock f.next)
  else s.framing c f st

/-- A record place of a fed buffer reaches the feed that holds a lane and waits for nothing (R8, R9). -/
def State.recordPlace (s : State) (c : ChainRef) (bytes : List Byte) : State :=
  match s.feed c with
  | some f =>
    if f.laneHeld ∧ f.waiting = none then
      match tget s.files f.file, tget s.streams f.stream with
      | some g, some st => s.readPlace c f g st bytes
      | _, _ => s
    else s
  | none => s

/-- The meaning of RECORD_PLACE. -/
def execRecordPlace (port : PortId) (chain : ChainNo) (bytes : Vector Byte 64) (s : State) :
    Host.Outcome State Fault Refusal :=
  .next (s.recordPlace ⟨port, chain⟩ bytes.toList)

/-! ## STAGING_BUFFER_GIVEN (R71) -/

/-- Whether a chain's record has its places reserved at the head of the append wait list (R152). -/
def State.headReserved (s : State) (c : ChainRef) : Bool :=
  match s.journal.wait with
  | .record d n :: _ => decide (d = c) && decide (n ≤ s.journal.reserved)
  | _ => false

/-- A waiting record is taken in the buffer given to it (R71, R152). -/
def State.takeWaiting (s : State) (c : ChainRef) : State :=
  match s.feed c with
  | some f =>
    match f.waiting with
    | some w =>
      let s := s.setStager { s.stager with wait := s.stager.wait.filter (fun d => decide (d ≠ c)) }
      if s.headReserved c then (s.popAppend.takeAndMove c f w).nextAppend else s.takeAndMove c f w
    | none => s
  | none => s

/-- Whether a chain's waiting record stands on the append wait list (R152). -/
def Journal.awaitsPlaces (j : Journal) (c : ChainRef) : Bool :=
  j.wait.any (fun r => match r with | .record d _ => decide (d = c) | _ => false)

/-- A feed passed over for want of journal places: its record joins the append wait list, where it does not stand on it
(R71, R152; log entry 25). -/
def State.passOver (s : State) (c : ChainRef) : State :=
  match (s.feed c).bind (·.waiting) with
  | some w => if s.journal.awaitsPlaces c then s else s.joinAppend (.record c w.places)
  | none => s

/-- A FREE buffer is offered to feeds in their order: each whose record cannot be taken at once is passed over, and the
first whose record can takes the buffer (R71). -/
def State.giveTo : List ChainRef → State → State
  | [], s => s
  | c :: rest, s => if s.feedAble c then s.takeWaiting c else State.giveTo rest (s.passOver c)

/-- A FREE buffer goes to the oldest feed on the buffer wait list whose record can be taken at once (R71). -/
def State.giveBuffer (s : State) : State :=
  if s.stager.bufs.length < 48 then State.giveTo s.stager.wait s else s

/-- The meaning of STAGING_BUFFER_GIVEN. -/
def execStagingBufferGiven (s : State) : Host.Outcome State Fault Refusal := .next s.giveBuffer

/-! ## BUFFER_READ_TIMEOUT (R161) -/

/-- The meaning of BUFFER_READ_TIMEOUT. -/
def execBufferReadTimeout (port : PortId) (chain : ChainNo) (s : State) : Host.Outcome State Fault Refusal :=
  .next (s.bufferReadFails ⟨port, chain⟩)

end Sys2Proof.Machine
end

