-- ==== Sys2Proof/Machine/Layout.lean ====
section
/-!
DEFINITION. The bytes servers see: the port status word, and the images of what the part posts, by the layouts of R171.
-/

namespace Sys2Proof.Machine

/-- A count as a field of `w` bytes carries it (R171). -/
def countField (w n : Nat) : List Byte := leBytes w (saturate (256 ^ w - 1) n)

/-- A flag as a byte. -/
def flagByte (b : Bool) : List Byte := leBytes 1 b.toNat

/-! ## The port window (R157, R171) -/

/-- The port status word of a port, 8 bytes (R157, R171). Bytes 6 and 7, which no row of the layout lists, are zeros, by the
model's choice (log entry 81). -/
def State.statusWord (s : State) (p : PortId) : List Byte :=
  let q := s.port p
  let starting := decide (s.power = .starting)
  let ready := decide (s.power = .ready)
  leBytes 1 (PortState.code q.state)
    ++ leBytes 1 (starting.toNat + 2 * ready.toNat + 4 * q.empty.toNat + 8 * q.area.isSome.toNat)
    ++ leBytes 1 (roleByte (s.roles p))
    ++ leBytes 1 (four.foldr (fun c n => 4 * n + ChainState.code q.chains[c.val].state) 0)
    ++ leBytes 1 (CellResult.code q.lastResult) ++ leBytes 1 q.cellCount ++ leBytes 2 0

/-- Cell word 0 as it reads between writes, its marks clear (R158, R171). -/
def Port.word0 (q : Port) : List Byte := [0, q.cell0.cmd, q.cell0.chain, q.cell0.mask, 0, 0, 0, 0]

/-- The identification block, 64 bytes (R167, R171). -/
def IdentShown.bytes (i : IdentShown) : List Byte :=
  padTo 64
    (leBytes 4 Config.vendorCode.toNat ++ leBytes 2 Config.familyCode.toNat ++ leBytes 2 2410
      ++ leBytes 1 Config.revisionCode.toNat ++ leBytes 1 i.port.val ++ leBytes 1 (roleByte i.roles)
      ++ flagByte i.ext ++ leBytes 2 i.floor ++ leBytes 2 256 ++ leBytes 1 32 ++ leBytes 1 4 ++ leBytes 1 48
      ++ leBytes 1 4 ++ leBytes 4 channelExtents ++ leBytes 4 journalPlaces)

/-- The identification block of a port (R167). -/
def State.identOf (s : State) (p : PortId) : IdentShown :=
  { port := p, roles := s.roles p, ext := s.straps.ext, floor := s.straps.floor }

/-! ## Completion words (R160, R171) -/

/-- The eight field outcomes, one code each (log entry 4). -/
def FieldOutcomes.bytes (o : FieldOutcomes) : List Byte :=
  [o.count, o.crc, o.durSum, o.unitsSum, o.minDay, o.maxDay, o.firstSeq, o.lastSeq].map
    (fun b => Config.fieldOutcomeCode b.toNat)

/-- A failure cause: its code (log entry 4) and its record index; where there is none, and the index of a cause that has none,
zeros, since an absent field is written as zero (R141, R171). -/
def failureBytes : Option SegFailure → List Byte
  | none => leBytes 1 0 ++ leBytes 4 0
  | some .readFailure => [Config.failureCauseCode 1] ++ leBytes 4 0
  | some (.decodeFailure i) => [Config.failureCauseCode 2] ++ countField 4 i

/-- The pass counts, 4 bytes each, in the order of R143. -/
def PassCounts.values (c : PassCounts) : List Nat := [c.considered, c.verified, c.passed, c.damaged, c.restored, c.busy]

/-- The result fields in the order their rules list them (R171; log entry 6); the seven of SCRUB_SET pass the room of the
completion word, whose image cuts the last (log entry 15). -/
def Results.bytes : Results → List Byte
  | .none => []
  | .slot n => leBytes 4 n
  | .feed a d r c k b => countField 4 a ++ countField 4 d ++ countField 4 r ++ countField 4 c ++ countField 4 k
      ++ countField 4 b
  | .masks m f => leBytes 1 m.toNat ++ leBytes 2 f.toNat
  | .widths f d => leBytes 4 f.td ++ leBytes 4 f.du ++ leBytes 4 f.cu ++ leBytes 4 d
  | .gapCount n => leBytes 4 n
  | .nextExtent n => leBytes 4 n
  | .retrieval w p f d cur l => countField 4 w ++ countField 4 p ++ countField 2 f ++ countField 2 d
      ++ leBytes 4 ((cur.map (·.serial)).getD 0) ++ leBytes 4 ((cur.map (·.index)).getD 0) ++ leBytes 4 l
  | .staged days before => leBytes 2 days ++ [Config.stagedCode before.number]
  | .hold id c t => leBytes 4 id ++ countField 4 c ++ countField 4 t
  | .holdsReleased n u f => countField 4 n ++ countField 4 u ++ countField 4 f
  | .clock v => leBytes 4 v
  | .verify o f r => FieldOutcomes.bytes o ++ failureBytes f ++ flagByte r
  | .scrub p c => leBytes 4 p ++ (PassCounts.values c).flatMap (countField 4)
  | .nextSerial n => leBytes 8 n
  | .release n r f => leBytes 8 n ++ countField 4 r ++ countField 4 f
  | .interval n => leBytes 4 n

/-- The state after the command as its byte; zero where its rule reports none (R171). -/
def stateByte : Option StateAfter → List Byte
  | none => leBytes 1 0
  | some (.file f) => leBytes 1 (FileState.code f)
  | some (.entry e) => leBytes 1 (EntryState.code e)

/-- The completion word, bytes 32 to 63 of its descriptor (R160, R171). That the room which its result fields leave is zeros is
the model's choice (log entry 81). -/
def Completion.bytes (w : Completion) : List Byte :=
  leBytes 1 (Status.code w.status) ++ leBytes 1 w.flags.byte ++ flagByte w.mismatch ++ stateByte w.stateAfter
    ++ countField 4 w.countDone ++ padTo 24 w.results.bytes

/-! ## Places (R171) -/

/-- An absent field is written as zero (R171). -/
def optField (w : Nat) (v : Option Nat) : List Byte := leBytes w (v.getD 0)

/-- Six digits in three bytes. -/
def headBytes (h : Option (List Nat)) : List Byte := padTo 3 (packDigits (h.getD []))

/-- The stream context record, 128 bytes (R45, R171; lock states by log entry 4). Bytes that no row of the layout lists are
zeros, by the model's choice (log entry 81). -/
def ContextShown.bytes (c : ContextShown) : List Byte :=
  let lf := c.lastFault
  let f := c.file
  let n := fun (g : FileShown → Nat) => (f.map g).getD 0
  let lock := fun (l : LockState) => Config.lockStateCode l.number
  padTo 128
    (leBytes 1 c.slot ++ leBytes 1 (if c.busy then 2 else 1) ++ leBytes 2 c.source ++ leBytes 4 c.e.toNat
      ++ leBytes 2 c.occupancy ++ leBytes 1 c.gapCount ++ [c.mask] ++ leBytes 2 c.sticky.toNat
      ++ leBytes 1 (lf.isSome.toNat + 2 * f.isSome.toNat + 4 * c.stack.isSome.toNat)
      ++ optField 1 (lf.map (fun l => FaultKind.code l.kind)) ++ optField 4 (lf.map (·.fileNo))
      ++ optField 1 (lf.bind (fun l => l.place.map Prod.fst)) ++ optField 1 (lf.bind (fun l => l.place.map Prod.snd))
      ++ leBytes 2 0
      ++ optField 4 (lf.bind (fun l => l.record.map (fun r => r.1.toNat)))
      ++ optField 4 (lf.bind (fun l => l.record.map Prod.snd)) ++ optField 4 (lf.bind (·.foundFile))
      ++ leBytes 1 c.widths.td ++ leBytes 1 c.widths.du ++ leBytes 1 c.widths.cu
      ++ leBytes 1 c.force.td ++ leBytes 1 c.force.du ++ leBytes 1 c.force.cu ++ leBytes 1 c.tolerance
      ++ [lock c.lockTd, lock c.lockDu, lock c.lockCu] ++ leBytes 2 0
      ++ leBytes 4 (n (·.fileNo)) ++ leBytes 1 (n (fun g => FileState.code g.state)) ++ leBytes 1 (n (·.owner.val))
      ++ leBytes 2 0
      ++ countField 4 (n (·.presented)) ++ countField 4 (n (·.accepted)) ++ countField 4 (n (·.duplicates))
      ++ countField 4 (n (·.dropped)) ++ countField 4 (n (·.clamped)) ++ countField 4 (n (·.skipped))
      ++ countField 4 (n (·.beyond))
      ++ leBytes 8 (n (·.durSum)) ++ leBytes 8 (n (·.unitsSum))
      ++ optField 1 (c.stack.map (·.top))
      ++ optField 1 (c.stack.map (fun st => st.slots.toList.foldr (fun h k => 2 * k + h.isSome.toNat) 0))
      ++ (match c.stack with
          | some st => st.slots.toList.flatMap headBytes
          | none => List.replicate 24 0))

/-- The account summary, 64 bytes (R32, R171). -/
def AccountShown.bytes (a : AccountShown) : List Byte :=
  leBytes 2 a.source ++ leBytes 2 a.occupancy ++ leBytes 4 a.e.toNat ++ leBytes 8 a.advance ++ leBytes 4 a.dropped
    ++ leBytes 1 a.gapCount ++ leBytes 11 0 ++ leBytes 32 a.window.toNat

/-- A place of gap entries, 64 bytes (R32, R171). That the room of entries which are not there is zeros is the model's choice
(log entry 81). -/
def gapBytes (g : List Gap) : List Byte :=
  padTo 64 (g.flatMap (fun x => leBytes 4 x.first.toNat ++ leBytes 4 x.last.toNat))

/-- A catalogue entry as CATALOGUE_READ writes it, 64 bytes (R95, R171). -/
def EntryShown.bytes (e : EntryShown) : List Byte :=
  let v := e.seg
  let n := fun (g : SegFields → Nat) => (v.map g).getD 0
  let failed := (e.verify.map (fun x => !x.2)).getD false
  leBytes 4 e.extent ++ leBytes 1 (EntryState.code e.state) ++ leBytes 1 e.pins ++ leBytes 1 e.holds
    ++ leBytes 1 (n (·.cls) + 8 * v.isSome.toNat + 16 * e.verify.isSome.toNat + 32 * failed.toNat)
    ++ leBytes 2 (n (·.source)) ++ leBytes 2 (n (·.ratio)) ++ optField 2 (e.verify.map Prod.fst)
    ++ leBytes 2 (n (·.minDay)) ++ leBytes 2 (n (·.maxDay)) ++ optField 2 e.retainUntil ++ leBytes 4 (n (·.fileNo))
    ++ leBytes 4 (n (·.serial)) ++ leBytes 4 (n (·.count)) ++ leBytes 4 (n (·.bits))
    ++ leBytes 4 (n (·.firstSeq.toNat)) ++ leBytes 4 (n (·.lastSeq.toNat)) ++ leBytes 4 (n (·.crc.toNat))
    ++ leBytes 8 (n (·.durSum)) ++ leBytes 8 (n (·.unitsSum))

/-! ## Journal entries (R148, R171) -/

/-- The extent a journal entry names (R171). That SCRUB_PASS names none, its pass start standing among the fields of its kind
(R145), is the model's choice (log entry 65). -/
def JBody.extent : JBody → Option Nat
  | .sealed f | .recoveredSeal f => some f.extent
  | .expired x _ _ _ _ _ _ => some x
  | .discarded x _ _ _ _ _ _ _ => some x
  | .damaged x _ _ _ _ _ _ => some x
  | .verified x _ _ _ => some x
  | .badExtent x _ _ => some x
  | _ => none

/-- The source id a journal entry names. -/
def JBody.source : JBody → Option Nat
  | .sealed f | .recoveredSeal f => some f.source
  | .expired _ s _ _ _ _ _ => some s
  | .discarded _ s _ _ _ _ _ _ => some s
  | .damaged _ s _ _ _ _ _ => some s
  | .holdPlaced _ s _ _ _ _ _ _ => s
  | .holdReleased _ s _ _ _ _ _ _ => s
  | .fileClosed f => some f.source
  | .gapDropped s _ _ _ _ => some s
  | _ => none

/-- A comparison as a number, in the order of R136. -/
def Comparison.number : Comparison → Nat
  | .unordered => 0 | .equal => 1 | .archiveHigh => 2 | .archiveLow => 3

/-- An optional value as two numbers: whether it is present, and it. -/
def optNumbers (v : Option Nat) : List Nat := [v.isSome.toNat, v.getD 0]

/-- A failure cause as two numbers. -/
def failureNumbers : Option SegFailure → List Nat
  | none => [0, 0]
  | some .readFailure => [1, 0]
  | some (.decodeFailure i) => [2, i]

/-- The fields of a kind, as numbers in the order its owning rule lists them, the extent and the source id aside (R148;
log entry 5). -/
def JBody.values : JBody → List Nat
  | .sealed f | .recoveredSeal f => [f.cls, f.fileNo, f.serial, f.count, f.minDay, f.maxDay]
  | .expired _ _ serial cls days retain today => [serial, cls, days, retain, today]
  | .discarded _ _ serial cls count a b port => [serial, cls, count, a, b, port.val]
  | .damaged _ _ serial finder o failure port =>
    [serial, (match finder with | .verify => 0 | .scrub => 1 | .retrieval => 2)]
      ++ [o.count, o.crc, o.durSum, o.unitsSum, o.minDay, o.maxDay, o.firstSeq, o.lastSeq].map Bool.toNat
      ++ failureNumbers failure ++ optNumbers (port.map (·.val))
  | .verified _ serial finder restored =>
    [serial, (match finder with | .verify => 0 | .scrub => 1 | .retrieval => 2), restored.toNat]
  | .scrubPass start c => start :: PassCounts.values c
  | .holdPlaced id _ a b day covered late port => [id, a, b, day, covered, late, port.val]
  | .holdReleased id _ a b unknown uncovered freed port => [id, a, b, unknown.toNat, uncovered, freed, port.val]
  | .policyCommitted cls before new proposer endorser => [cls, before, new, proposer.val, endorser.val]
  | .policyLapsed cls days proposer => [cls, days, proposer.val]
  | .policyRestored cls days cause => [cls, days, (match cause with | .checkFailed => 0 | .floor => 1)]
  | .fileClosed f =>
    [f.fileNo, f.owner.val,
      (match f.outcome with | .abandoned => 0 | .incomplete => 1 | .matched => 2 | .mismatched => 3),
      (match f.cause with | .trailer => 0 | .deadline => 1 | .abandon => 2),
      Comparison.number f.count, f.countSaturated.toNat, Comparison.number f.duration, f.durationSaturated.toNat,
      Comparison.number f.units, f.unitsSaturated.toNat, f.presented, f.accepted, f.duplicates, f.dropped, f.clamped,
      f.sticky.toNat, f.segmentsSealed]
      ++ (match f.trailer with
          | some t => [1, t.1, t.2.1.toNat, t.2.2.toNat]
          | none => [0, 0, 0, 0])
  | .gapDropped _ first last cause e =>
    [first.toNat, last.toNat, (match cause with | .overflow => 0 | .age => 1), e.toNat]
  | .clockSet previous requested applied clamped port => [previous, requested, applied, clamped.toNat, port.val]
  | .badExtent _ cause serial =>
    (match cause with | .writeFailed => 0 | .eraseFailed => 1) :: optNumbers serial
  | .restart last c recovered incomplete restored lost =>
    [last, c.free, c.reserved, c.bad, c.writing, c.journaling, c.sealed, c.expiryWait, c.damaged, c.retiring, c.erasing,
      recovered, incomplete, restored, lost]

/-- The kind fields of an entry: 40 bytes, or 44 where the kind names no extent (R171; log entry 5). -/
def JBody.kindBytes (b : JBody) : List Byte :=
  (List.range (if (JBody.extent b).isSome then 40 else 44)).map (Config.kindFieldByte (JBody.code b) (JBody.values b))

/-- The 60 bytes of a journal entry before its check (R148, R171). Bytes 14 and 15, which no row of the layout lists, are zeros,
by the model's choice (log entry 81). -/
def JEntry.body60 (e : JEntry) : List Byte :=
  leBytes 6 e.serial ++ leBytes 1 (JBody.code e.body)
    ++ leBytes 1 ((JBody.extent e.body).isSome.toNat + 2 * (JBody.source e.body).isSome.toNat) ++ leBytes 4 e.time
    ++ optField 2 (JBody.source e.body) ++ leBytes 2 0
    ++ (match JBody.extent e.body with | some x => leBytes 4 x | none => []) ++ JBody.kindBytes e.body

/-- A journal entry, 64 bytes, its check the CRC-32 of the other 60 (R148, R171). -/
def JEntry.bytes (e : JEntry) : List Byte := JEntry.body60 e ++ leBytes 4 (crc32 (JEntry.body60 e)).toNat

/-- A lost marker: kind LOST and the entry's serial (R154, R171). That it carries no entry check, bytes 60 to 63 being zeros,
is the model's choice (log entry 64). -/
def lostBytes (serial : Nat) : List Byte := padTo 64 (leBytes 6 serial ++ leBytes 1 0xFF)

/-! ## STATUS_READ (R167) -/

/-- A clock state as a number, in the order of R99. -/
def ClockState.number : ClockState → Nat
  | .internal => 0 | .following => 1 | .holdover => 2

/-- A scan state as a number, in the order of R116. -/
def ScanState.number : ScanState → Nat
  | .idle => 0 | .scanning => 1 | .paused => 2

/-- A staged row as numbers: its state, days, proposer and endorser. -/
def Staged.values : Staged → List Nat
  | .none => [0, 0, 0, 0]
  | .proposed d p => [1, d, p.val, 0]
  | .endorsed d p q => [2, d, p.val, q.val]

/-- A handling as numbers. -/
def Handling.values : Handling → List Nat
  | .deliver => [0, 0] | .absent => [1, 0] | .fill v => [2, v] | .empty => [3, 0] | .unnamed => [4, 0]

/-- A projection as numbers, in the order of R132. -/
def Projection.values (p : Projection) : List Nat :=
  [p.k1, p.k2, p.fillDigit] ++ Handling.values p.cell ++ Handling.values p.trunk ++ Handling.values p.units
    ++ Handling.values p.supp

/-- A status place's number and its fields, as numbers in the order of R167. -/
def StatusPlace.values : StatusPlace → Nat × List Nat
  | .part starting ready value today st pending full sc =>
    (0, [starting.toNat, ready.toNat, value, today, st.number, pending.toNat, full.toNat, sc.state.number, sc.position,
      sc.rescan.toNat, sc.daysPending, sc.retired, sc.waited])
  | .journal free low full oldest durable release next failures =>
    (1, [free, low.toNat, full.toNat, oldest, durable, release, next, failures])
  | .policy rows staged holds unknown =>
    (2, rows.toList ++ staged.toList.flatMap Staged.values ++ [holds, unknown])
  | .scrub enable pointer start c => (3, [enable.toNat, pointer, start] ++ PassCounts.values c)
  | .port st roles chains interval tag g a b c proj =>
    (4, [PortState.code st, roleByte roles] ++ chains.toList.map ChainState.code ++ [interval, tag, g, a, b, c]
      ++ (match proj with | some p => Projection.values p.1 ++ Projection.values p.2 | none => []))
  | .resources streams files b depths lanes =>
    (5, [streams, files, b.free, b.opened, b.sealing, b.failed] ++ depths.toList ++ [lanes])

/-- A status place, 64 bytes (R167; log entry 5). -/
def StatusPlace.bytes (p : StatusPlace) : List Byte := (List.range 64).map (Config.statusByte p.values.1 p.values.2)

/-! ## What is posted -/

/-- The bytes of what the part writes into a buffer. -/
def Place.bytes : Place → List Byte
  | .record r => recBytes r
  | .context c => c.bytes
  | .account a => a.bytes
  | .gaps g => gapBytes g
  | .entry e => e.bytes
  | .journal e => JEntry.bytes e
  | .lost n => lostBytes n
  | .status p => p.bytes
  | .ident i => i.bytes

/-- The object of a notice (R171). That "store full", "journal low", "journal clear" and "clock in holdover" carry none, so
that its bytes are zeros, is the model's choice (log entry 63). -/
def NoticeObject.bytes : NoticeObject → List Byte
  | .none => []
  | .chain c addr => leBytes 1 c.val ++ leBytes 8 addr
  | .file source fileNo => leBytes 2 source ++ leBytes 4 fileNo
  | .segment x serial => leBytes 4 x ++ leBytes 4 serial
  | .day d => leBytes 4 d

/-- The bytes of a posted write, with their port and address; an MSI writes none (R164, R171). Bytes of a notice slot that no
row of the layout lists, and the room that its object leaves, are zeros, by the model's choice (log entry 81). -/
def Output.bytes : Output → Option (PortId × Nat × List Byte)
  | .completion p a w => some (p, a, w.bytes)
  | .place p a c => some (p, a, c.bytes)
  | .notice p a cls k o time count =>
    some (p, a, padTo 64 (leBytes 1 (NoticeClass.code cls) ++ leBytes 1 (NoticeKind.code k) ++ leBytes 2 0
      ++ leBytes 4 count ++ leBytes 4 time ++ leBytes 4 0 ++ padTo 16 o.bytes))
  | .msi _ _ => none

end Sys2Proof.Machine
end

