-- ==== Sys2Proof/Machine/BootOps.lean ====
section
/-!
DEFINITION. Shared operations of power-off and start-up: what an operation in flight leaves, the journal scan, the settings
records restored, and the Catalogue's rebuild (R72, R85, R91, R96 to R98, R103, R108, R115, R156, R168 to R170).
-/

namespace Sys2Proof.Machine

/-! ## Sorted lists of extents -/

/-- An extent marked in the BAD table, whose marks stand in increasing order (R85). -/
def insertNat (n : Nat) : List Nat → List Nat
  | [] => [n]
  | m :: t => if n < m then n :: m :: t else if n = m then m :: t else m :: insertNat n t

/-- An extent is retired: its entry becomes BAD, and the BAD table takes it (R81, R84, R85). -/
def State.retireExtent (s : State) (x : Nat) : State :=
  let s := s.setSettings { s.settings with bad := insertNat x s.settings.bad }
  s.setEntry x { Entry.free with state := .bad }

/-! ## Power-off (R80, R84, R156, R170) -/

/-- What a WRITE of a segment leaves in its extent. -/
def segmentContent (v : Staging) : ExtentContent :=
  match v.state.header with
  | some h => .segment h (headerCheck h) v.body
  | none => .incomplete

/-- The flash after an operation that stood in flight at a power-off, by how far it had come (R80, R84, R156). -/
def State.cutFlash (s : State) (f : Flash) (op : StoreOp) (cut : Cut) : Flash :=
  match op, cut with
  | _, .before => f
  | .segWrite _ x, .during _ => { f with extents := tput f.extents x .incomplete }
  | .segWrite b x, .after =>
    match tget s.stager.bufs b with
    | some v => { f with extents := tput f.extents x (segmentContent v) }
    | none => f
  | .pageWrite, cut =>
    match s.journal.bufIn .writing with
    | some i =>
      let entries := s.journal.bufs[i.val].entries.map (fun e => (⟨e, true⟩ : StoredEntry))
      let kept := match cut with | .during k => entries.take k | _ => entries
      { f with pages := tput f.pages s.journal.writePos kept }
    | none => f
  | .erase x, .during _ => { f with extents := tput f.extents x .incomplete }
  | .erase x, .after => { f with extents := tdel f.extents x }
  | .journalErase x, .during k =>
    { f with pages := f.pages.filter (fun p => decide (slotExtent p.1 ≠ x) || decide (k ≤ p.1 % extentSlots)) }
  | .journalErase x, .after => { f with pages := outsideExtent f.pages x }
  | _, _ => f

/-- The flash after the operation in flight on a channel at a power-off. -/
def State.cutChannel (s : State) (f : Flash) (ch : Channel) (cut : Cut) : Flash :=
  match s.inFlight ch with
  | some op => s.cutFlash f op cut
  | none => f

/-! ## Settings records (R169) -/

/-- Whether a record of Settings Memory fails its check (R169). -/
def Settings.isDamaged (g : Settings) (id : SettingsId) : Bool := g.damaged.contains id

/-- Settings Memory with a record written back, its check holding again (R169). -/
def Settings.writtenBack (g : Settings) (id : SettingsId) : Settings :=
  { g with damaged := g.damaged.filter (fun d => decide (d ≠ id)) }

/-- A record is restored: it is written back, and counted among the settings records restored safe (R169). -/
def State.restoredOne (s : State) (id : SettingsId) : State :=
  (s.setSettings (s.settings.writtenBack id)).setBoot { s.boot with restored := s.boot.restored + 1 }

/-- One policy row at power-on: restored with 0 days where its check failed, with the floor's days where it lies below
the floor, each with its POLICY_RESTORED_SAFE entry (R108). -/
def State.restoreRow (s : State) (i : Fin 8) : State :=
  let days := s.settings.rows[i.val]
  let put := fun (s : State) (n : Nat) (cause : RestoreCause) =>
    ((s.setSettings { s.settings with rows := vset s.settings.rows i n }).restoredOne (.row i)).ask
      (.policyRestored i.val n cause) .plain
  if s.settings.isDamaged (.row i) then put s 0 .checkFailed
  else if daysRead days < floorRead s.straps.floor then put s (floorRead s.straps.floor) .floor
  else s

/-- The id field of a damaged hold slot; none where the slot is not damaged (R115). -/
def Settings.holdDamage (g : Settings) (slot : Nat) : Option Nat :=
  g.damaged.findSome? (fun d => match d with | .hold k id => if k.val = slot then some id else none | _ => none)

/-- The numbers of the 64 hold slots. -/
def holdSlots : List Nat := List.range 64

/-- The unknown hold of a damaged slot with an id (R115). -/
def unknownHold (id today : Nat) : Hold :=
  { id, source := none, a := 0, b := lastDay, placedDay := today, unknown := true }

/-- Whether a hold of the table carries an id. -/
def carriesId (holds : Table Hold) (id : Nat) : Bool := holds.any (fun p => decide (p.2.id = id))

/-- The id that follows the last assigned one, no active hold carrying it, in at most `n` + 1 trials (R110). -/
def nextHoldId (holds : Table Hold) : Nat → Nat → Nat
  | 0, last => last % 65535 + 1
  | n + 1, last => if carriesId holds (last % 65535 + 1) then nextHoldId holds n (last % 65535 + 1) else last % 65535 + 1

/-- The greatest id of the holds of a table, 0 if there is none (R110, R115). -/
def greatestId (holds : Table Hold) : Nat := holds.foldl (fun m p => max m p.2.id) 0

/-- The damaged slots whose id field can be kept, in increasing slot order (R115). Of two damaged slots whose id fields
read the same valid id the lower keeps it, by the model's choice (log entry 54). -/
def Settings.keepIds (g : Settings) (today : Nat) (holds : Table Hold) : Table Hold :=
  holdSlots.foldl (fun t k => match g.holdDamage k with
    | some id =>
      if 1 ≤ id ∧ id ≤ 65535 ∧ ¬ carriesId t id then tput t k (unknownHold id today) else t
    | none => t) holds

/-- The remaining damaged slots given new ids in increasing slot order, with the last id given (R110, R115). -/
def Settings.giveIds (g : Settings) (today : Nat) (holds : Table Hold) (last : Nat) : Table Hold × Nat :=
  holdSlots.foldl (fun (t, last) k =>
    if (g.holdDamage k).isSome && (tget t k).isNone then
      let id := nextHoldId t 64 last
      (tput t k (unknownHold id today), id)
    else (t, last)) (holds, last)

/-- Whether a damaged record is a hold slot. -/
def isHoldSlot : SettingsId → Bool
  | .hold _ _ => true
  | _ => false

/-- The hold slots at power-on, each damaged one written back (R110, R115). -/
def State.restoreHolds (s : State) : State :=
  let good := s.settings.holds.filter (fun p => (s.settings.holdDamage p.1).isNone)
  let kept := s.settings.keepIds s.today good
  let given := s.settings.giveIds s.today kept (greatestId kept)
  let damaged := holdSlots.countP (fun k => (s.settings.holdDamage k).isSome)
  ((s.setSettings { s.settings with holds := given.1,
                                    damaged := s.settings.damaged.filter (fun d => !isHoldSlot d) }).setRetention { s.retention with lastHoldId := given.2 }).setBoot
    { s.boot with restored := s.boot.restored + damaged }

/-! ## The scan (R156) -/

/-- The entries of a page whose checks hold, once for each serial, without the serials already seen (R156). That of two
entries of one serial the first counts is the model's choice (log entry 28). -/
def freshEntries : List Nat → List StoredEntry → List JEntry
  | _, [] => []
  | seen, e :: t =>
    if e.checkHolds && !seen.contains e.entry.serial then e.entry :: freshEntries (e.entry.serial :: seen) t
    else freshEntries seen t

/-- The entries found by the scan: every entry whose check holds, with its slot, once for each serial, the lowest slot
first (R156; log entry 28). -/
def foundPages (scanned : Table (List StoredEntry)) : Table (List JEntry) :=
  (scanned.foldl (fun (acc : Table (List JEntry) × List Nat) p =>
    let fresh := freshEntries acc.2 p.2
    (if fresh.isEmpty then acc.1 else acc.1 ++ [(p.1, fresh)], fresh.map (·.serial) ++ acc.2)) ([], [])).1

/-- The entries found by the scan, page by page. -/
def foundEntries (pages : Table (List JEntry)) : List JEntry := pages.flatMap Prod.snd

/-- The newest written slot: the one that holds the greatest serial found (R156). That of two slots which hold it the lower
counts, so that the write position and the last slot follow from the lower, is the model's choice (log entry 28). -/
def newestSlot (pages : Table (List JEntry)) : Option Nat :=
  (pages.foldl (fun (best : Option (Nat × Nat)) p =>
    match (p.2.map (·.serial)).max?, best with
    | some n, some b => if b.1 < n then some (n, p.1) else best
    | some n, none => some (n, p.1)
    | none, _ => best) none).map Prod.snd

/-- How many slots a slot lies behind another in the ring. -/
def slotsBehind (newest slot : Nat) : Nat := (newest + journalSlots - slot) % journalSlots

/-- The slots that hold the journal's 1,048,576 places (R151, R156, step 2). -/
def releaseWindow : Nat := 16384

/-- The release serial set from the page map: the oldest unreleased entry becomes the first entry of the oldest slot
within 16,384 slots behind the newest written slot (R156, step 2). That the newest slot is itself one of the 16,384, which
then hold at most the 1,048,576 entries of R153, is the model's choice (log entry 86). Where nothing is found
it is 0, by the model's inference (log entry 29). -/
def releaseFromMap (pages : Table (List JEntry)) : Nat :=
  match newestSlot pages with
  | some newest =>
    let oldest := pages.foldl (fun (best : Option (Nat × List JEntry)) p =>
      if slotsBehind newest p.1 < releaseWindow then
        match best with
        | some b => if slotsBehind newest b.1 < slotsBehind newest p.1 then some p else best
        | none => some p
      else best) none
    match oldest.bind (fun p => (p.2.map (·.serial)).min?) with
    | some n => n - 1
    | none => 0
  | none => 0

/-- Whether a slot reads erased in the scan. -/
def erasedSlot (scanned : Table (List StoredEntry)) (slot : Nat) : Bool := (tget scanned slot).isNone

/-- The first slot from `slot`, `n` slots tried, that reads erased. -/
def firstErased (scanned : Table (List StoredEntry)) : Nat → Nat → Option Nat
  | 0, _ => none
  | n + 1, slot => if erasedSlot scanned slot then some slot else firstErased scanned n (slot + 1)

/-- Whether a journal extent reads erased in the scan. -/
def erasedExtent (scanned : Table (List StoredEntry)) (x : Fin 4) : Bool :=
  scanned.all (fun p => decide (slotExtent p.1 ≠ x))

/-- The write position after the scan, and the extent that it enters, where it enters one (R156, step 5; log entry 14). -/
def scanPosition (scanned : Table (List StoredEntry)) (newest : Option Nat) : Nat × Option (Fin 4) :=
  match newest with
  | some w =>
    match firstErased scanned (extentSlots - 1 - w % extentSlots) (w + 1) with
    | some slot => (slot, none)
    | none =>
      let next : Fin 4 := slotExtent ((w / extentSlots + 1) * extentSlots % journalSlots)
      (next.val * extentSlots, some next)
  | none => (0, some 0)

/-- The state of a journal extent after the scan, given the write position's extent and whether it is entered afresh
(R156, step 5). -/
def scanExtent (scanned : Table (List StoredEntry)) (pages : Table (List JEntry)) (release : Nat)
    (position : Nat × Option (Fin 4)) (x : Fin 4) : JExtState :=
  if slotExtent position.1 = x then
    if position.2.isNone || erasedExtent scanned x then .current else .erasing
  else if erasedExtent scanned x then .erased
  else if pages.all (fun p => decide (slotExtent p.1 ≠ x) || p.2.all (fun e => decide (e.serial ≤ release))) then .erasing
  else .written

/-- The extents that the unreleased BAD_EXTENT entries name (R85). -/
def badFromJournal (entries : List JEntry) (release : Nat) : List Nat :=
  entries.foldl (fun l e => match e.body with
    | .badExtent x _ _ => if release < e.serial then insertNat x l else l
    | _ => l) []

/-- The greatest archive day among the archive times found (R103). -/
def dayFromJournal (entries : List JEntry) : Nat := entries.foldl (fun d e => max d (dayOf e.time)) 0

/-- The Journal's own values at the end of its scan (R156, steps 1 to 5). That several ERASEs are requested by rising extent
number is the model's choice (log entry 73). -/
def State.scanJournal (s : State) (pages : Table (List JEntry)) : State :=
  let scanned := s.boot.scanned
  let s := if s.settings.isDamaged .release then
      (s.setSettings { s.settings with release := releaseFromMap pages }).restoredOne .release
    else s
  let release := s.settings.release
  let entries := foundEntries pages
  let newestFound := max release (entries.foldl (fun m e => max m e.serial) 0)
  let newest := newestSlot pages
  let position := scanPosition scanned newest
  let states := Vector.ofFn (scanExtent scanned pages release position)
  let s := s.setBoot { s.boot with newestFound,
                                   lost := newestFound - release - entries.countP (fun e => decide (release < e.serial)) }
  let s := s.setJournal { s.journal with
    next := newestFound + 1, durable := newestFound, writePos := position.1, lastSlot := newest, extents := states,
    pageMap := pages.map (fun p => (p.1, p.2.map (·.serial))) }
  four.foldl (fun s x => if states[x.val] = .erasing then s.eraseJournal x else s) s

/-- The Retention Unit's and the Controller's records restored from the journal, and the clock set (R85, R103). -/
def State.scanSettings (s : State) (pages : Table (List JEntry)) : State :=
  let entries := foundEntries pages
  let s := if s.settings.isDamaged .savedDay then
      (s.setSettings { s.settings with savedDay := dayFromJournal entries }).restoredOne .savedDay
    else s
  let s := if s.settings.isDamaged .badTable then
      (s.setSettings { s.settings with bad := badFromJournal entries s.settings.release }).restoredOne .badTable
    else s
  s.setClock { s.clock with value := s.settings.savedDay * daySeconds }

/-! ## The rebuild (R96 to R98) -/

/-- The first extent from `x`, `n` extents tried, that is not marked BAD. -/
def skipBad (bad : List Nat) : Nat → Nat → Nat
  | 0, x => x
  | n + 1, x => if bad.contains x then skipBad bad n (x + 1) else x

/-- The header read of a channel's next extent is requested, from extent `x` on; none is left at the channel's end
(R96). -/
def State.nextHeader (s : State) (ch : Channel) (x : Nat) : State :=
  let y := skipBad s.settings.bad (s.settings.bad.length + 1) x
  let s := s.setBoot { s.boot with nextHeader := vset s.boot.nextHeader ch y }
  if y < (ch.val + 1) * channelExtents then s.request ch (.headerRead y false) else s

/-- Whether every channel has reported its last header. -/
def Boot.headersDone (b : Boot) : Bool := four.all (fun ch => decide ((ch.val + 1) * channelExtents ≤ b.nextHeader[ch.val]))

/-- The valid headers that keep their segments, in extent order: of two that carry one serial the lower extent's (R96). -/
def keptHeaders (headers : Table (Option SegHeader)) : Table SegHeader :=
  (headers.foldl (fun (acc : Table SegHeader × List Nat) p =>
    match p.2 with
    | some h => if acc.2.contains h.seg.serial then acc else (acc.1 ++ [(p.1, h)], h.seg.serial :: acc.2)
    | none => acc) ([], [])).1

/-- The extents with incomplete contents: those with no valid header, and those displaced (R96, R98). -/
def incompleteExtents (headers : Table (Option SegHeader)) (kept : Table SegHeader) : List Nat :=
  (headers.filter (fun p => (tget kept p.1).isNone)).map Prod.fst

/-- The seal serials of the SEALED and RECOVERED_SEAL entries among some entries. -/
def sealSerials (entries : List JEntry) : List Nat :=
  entries.filterMap (fun e => match e.body with
    | .sealed f => some f.serial
    | .recoveredSeal f => some f.serial
    | _ => none)

/-- The fields of a SEALED or RECOVERED_SEAL entry (R89, R97). -/
def sealFields (x : Nat) (v : SegFields) : SealFields :=
  { extent := x, source := v.source, cls := v.cls, fileNo := v.fileNo, serial := v.serial, count := v.count,
    minDay := v.minDay, maxDay := v.maxDay }

/-- Whether a valid header's seal had been made durable: by L, or by the journal where L's record failed (R97). -/
def State.sealWasDurable (s : State) (entries : List JEntry) (v : SegFields) : Bool :=
  if s.settings.isDamaged .lastSeal then
    (sealSerials (entries.filter (fun e => decide (s.settings.release < e.serial)))).contains v.serial
  else decide (v.serial ≤ s.settings.lastSeal)

/-- Headers in increasing seal serial. -/
def insertHeader (p : Nat × SegHeader) : List (Nat × SegHeader) → List (Nat × SegHeader)
  | [] => [p]
  | q :: t => if p.2.seg.serial < q.2.seg.serial then p :: q :: t else q :: insertHeader p t

/-- A valid header whose seal may not have been made durable: JOURNALING, with its RECOVERED_SEAL entry asked for
(R97). -/
def State.recoverSeal (s : State) (p : Nat × SegHeader) : State :=
  let s := s.setEntry p.1 { Entry.free with state := .journaling, seg := some p.2.seg }
  let s := s.setBoot { s.boot with recovered := s.boot.recovered + 1 }
  s.ask (.recoveredSeal (sealFields p.1 p.2.seg)) (.sealEntry p.1)

/-- An extent with incomplete contents: ERASING, its ERASE requested with no journal entry (R98). -/
def State.eraseIncomplete (s : State) (x : Nat) : State :=
  let s := s.setEntry x { Entry.free with state := .erasing }
  let s := s.setBoot { s.boot with incomplete := s.boot.incomplete + 1 }
  s.request (channelOf x) (.erase x)

/-- The number of entries in each state (R98, R156). -/
def State.stateCounts (s : State) : StateCounts :=
  let n := fun (st : EntryState) => s.catalogue.countP (fun p => decide (p.2.state = st))
  { free := extentCount - reservedExtents - s.catalogue.length, reserved := reservedExtents, bad := n .bad,
    writing := n .writing, journaling := n .journaling, sealed := n .sealed, expiryWait := n .expiryWait,
    damaged := n .damaged, retiring := n .retiring, erasing := n .erasing }

/-- The seal serial counter recomputed where its record failed: one more than the greatest serial of a valid header or of a
SEALED or RECOVERED_SEAL entry, 1 if there is none (R72). That released entries which the scan still finds count too is the
model's choice (log entry 51). -/
def State.rebuildCounter (s : State) (entries : List JEntry) : State :=
  if s.settings.isDamaged .sealCounter then
    let serials := s.boot.headers.filterMap (fun p => p.2.map (·.seg.serial)) ++ sealSerials entries
    (s.setSettings { s.settings with sealCounter := serials.foldl max 0 + 1 }).restoredOne .sealCounter
  else s

/-- The part becomes READY: the clock state is set, the flags of every port change, and a journal that is low sends its
notice (R99, R151, R170). -/
def State.becomeReady (s : State) : State :=
  let s := s.setPower .ready
  let s := s.setClock { s.clock with state := if s.straps.ext then .following else .internal, watchdog := 0,
                                     commitPending := false, commitDays := 0 }
  if s.journal.low then s.noticeAll .journalLow .none else s

/-- The end of the rebuild, the RESTART entry and READY (R96 to R98, R156, R170). That the ERASEs of extents with incomplete
contents are requested by rising extent number is the model's choice (log entry 52). -/
def State.rebuildEnd (s : State) : State :=
  let entries := foundEntries (foundPages s.boot.scanned)
  let kept := keptHeaders s.boot.headers
  let durable := kept.filter (fun p => s.sealWasDurable entries p.2.seg)
  let others := (kept.filter (fun p => !s.sealWasDurable entries p.2.seg)).foldl (fun l p => insertHeader p l) []
  let s := durable.foldl (fun s p =>
    s.setEntry p.1 { Entry.free with state := .sealed, seg := some p.2.seg, holds := s.coverCount p.2.seg }) s
  let s := others.foldl State.recoverSeal s
  let s := (incompleteExtents s.boot.headers kept).foldl State.eraseIncomplete s
  let s := s.rebuildCounter entries
  let s := if s.settings.isDamaged .lastSeal then s.restoredOne .lastSeal else s
  let s := s.recomputeL
  let b := s.boot
  let s := s.ask (.restart b.newestFound s.stateCounts b.recovered b.incomplete b.restored b.lost) .plain
  s.becomeReady

/-- The rebuild begins: every extent marked BAD takes its state, and each channel's first header read is requested
(R96). -/
def State.beginRebuild (s : State) : State :=
  let s := s.setBoot { s.boot with stage := .rebuild }
  let s := s.settings.bad.foldl (fun s x => s.setEntry x { Entry.free with state := .bad }) s
  let s := four.foldl (fun s ch => s.nextHeader ch (if ch.val = 0 then reservedExtents else ch.val * channelExtents)) s
  if s.boot.headersDone then s.rebuildEnd else s

/-- The end of the journal scan and the steps of start-up up to the rebuild's reads (R156, R170, steps 3 to 5). That the
POLICY_RESTORED_SAFE entries of several classes (R108) are appended by rising class is the model's choice (log entry 57). -/
def State.scanEnd (s : State) : State :=
  let pages := foundPages s.boot.scanned
  let s := (s.scanJournal pages).scanSettings pages
  let s := s.setJournal { s.journal with low := decide (s.freePlaces < lowMark) }
  let s := classes.foldl State.restoreRow s
  s.restoreHolds.beginRebuild

/-- A scanned slot takes what its READ found, and the next slot's READ is requested, or the scan ends (R156). -/
def State.scanned (s : State) (slot : Nat) (content : SlotContent) : State :=
  let s := match content with
    | .erased => s
    | .page entries => s.setBoot { s.boot with scanned := tput s.boot.scanned slot entries }
  if slot + 1 < journalSlots then
    (s.setBoot { s.boot with slot := slot + 1 }).request 0 (.pageRead (slot + 1) .scan false)
  else s.scanEnd

end Sys2Proof.Machine
end

