-- ==== Sys2Proof/Machine/Retention.lean ====
section
/-!
DEFINITION. The Retention Unit: CLOCK_SET, POLICY_PROPOSE, POLICY_ENDORSE, HOLD_PLACE, HOLD_RELEASE, DIVIDER_SECOND,
PULSE, PULSE_WATCHDOG_EXPIRY and POLICY_COMMIT.
-/

namespace Sys2Proof.Machine

/-! ## The clock (R99 to R101) -/

/-- Every running deadline decreases, stopping at zero (R16). -/
def State.shortenDeadlines (s : State) (seconds : Nat) : State :=
  s.setFiles (s.files.map (fun p =>
    (p.1, if p.2.deadlineRuns then { p.2 with deadline := p.2.deadline - seconds } else p.2)))

/-- A day roll that carries `days` (R101). -/
def State.dayRoll (s : State) (days : Nat) : State :=
  let s := s.setSettings { s.settings with savedDay := s.today }
  (s.noticeAll .dayRoll (.day s.today)).askCommit days

/-- An advance of the clock by one second (R16, R100, R101). -/
def State.advanceClock (s : State) : State :=
  if max32 ≤ s.clock.value then s
  else
    let s := (s.setClock { s.clock with value := s.clock.value + 1 }).shortenDeadlines 1
    if s.clock.value % daySeconds = 0 then s.dayRoll 1 else s

/-- A second of the internal divider (R99, R100). -/
def State.dividerSecond (s : State) : State :=
  if s.power ≠ .ready then s
  else match s.clock.state with
    | .internal => s.advanceClock
    | .holdover => s.advanceClock
    | .following => s.setClock { s.clock with watchdog := min 2 (s.clock.watchdog + 1) }

/-- The meaning of DIVIDER_SECOND. -/
def execDividerSecond (s : State) : Host.Outcome State Fault Refusal := .next s.dividerSecond

/-- A pulse on the one-pulse-per-second line (R99, R100). -/
def State.pulse (s : State) : State :=
  if s.power ≠ .ready then s
  else match s.clock.state with
    | .internal => s
    | .following => (s.setClock { s.clock with watchdog := 0 }).advanceClock
    | .holdover => s.setClock { s.clock with state := .following, watchdog := 0 }

/-- The meaning of PULSE. -/
def execPulse (s : State) : Host.Outcome State Fault Refusal := .next s.pulse

/-- The watchdog of a FOLLOWING clock reaches 2 seconds (R100). That the HOLDOVER notice is sent after both advances, so
after a "day roll" notice that one of them sends and a "journal low" notice of its commit, is the model's choice (log entry
58). -/
def State.watchdogExpires (s : State) : State :=
  if s.power = .ready ∧ s.clock.state = .following ∧ s.clock.watchdog = 2 then
    let s := s.setClock { s.clock with state := .holdover }
    (s.advanceClock.advanceClock).noticeAll .holdover .none
  else s

/-- The meaning of PULSE_WATCHDOG_EXPIRY. -/
def execPulseWatchdogExpiry (s : State) : Host.Outcome State Fault Refusal := .next s.watchdogExpires

/-! ## CLOCK_SET (R102) -/

/-- The applied value of a CLOCK_SET (R102). -/
def appliedValue (clock value : Nat) : Nat := min value (min (clock + 604800) max32)

/-- A CLOCK_SET that is taken (R102). That a "journal low" notice of its entry is posted before the "day roll" notice (log
entry 68), and both before the completion (log entries 67 and 69), are the model's choices. -/
def State.moveClock (s : State) (a : At) (value : Nat) : State :=
  let before := s.clock.value
  let applied := appliedValue before value
  let clamped := decide (applied ≠ value)
  let s := s.setClock { s.clock with value := applied }
  let s := s.append (.clockSet before value applied clamped a.port)
  let s := s.shortenDeadlines (applied - before)
  let days := dayOf applied - dayOf before
  let s := if days = 0 then s else s.dayRoll days
  s.complete (refOf a) { Completion.doneWith (.clock applied) with flags := { Flags.none with clamped } }

/-- CLOCK_SET at the Retention Unit (R102). -/
def State.setClockValue (s : State) (a : At) (value : Nat) : State :=
  if value < s.clock.value then s.refuse a .refusedArgument
  else if s.freePlaces = 0 then s.refuse a .refusedJournal
  else s.moveClock a value

/-- CLOCK_SET (R102). -/
def clockSet (a : At) (value : Nat) (s : State) : State := s.descriptor a .audit (·.setClockValue a value)

/-- The meaning of CLOCK_SET. -/
def execClockSet (a : At) (value : Nat) (s : State) : Host.Outcome State Fault Refusal := .next (clockSet a value s)

/-! ## POLICY_PROPOSE and POLICY_ENDORSE (R105, R106) -/

/-- The staged row of a class becomes another. -/
def State.setStaged (s : State) (i : Fin 8) (g : Staged) : State :=
  s.setRetention { s.retention with staged := vset s.retention.staged i g }

/-- A class a command names, where it names one. -/
def classOf (cls : Nat) : Option (Fin 8) := if h : cls < 8 then some ⟨cls, h⟩ else none

/-- The days that a proposal stages: raised to the retention floor if they are below it (R105). -/
def stagedDays (floor days : Nat) : Nat := if daysRead days < floorRead floor then floorRead floor else days

/-- POLICY_PROPOSE at the Retention Unit (R105). -/
def State.proposePolicy (s : State) (a : At) (cls days : Nat) : State :=
  match classOf cls with
  | some i =>
    if 4095 < days then s.refuse a .refusedArgument
    else
      let n := stagedDays s.straps.floor days
      let before := s.retention.staged[i.val]
      let s := (s.setStaged i (.proposed n a.port)).refreshCommit
      s.complete (refOf a)
        { Completion.doneWith (.staged n before) with flags := { Flags.none with clamped := decide (n ≠ days) } }
  | none => s.refuse a .refusedArgument

/-- POLICY_PROPOSE (R105). -/
def policyPropose (a : At) (cls days : Nat) (s : State) : State := s.descriptor a .retrieval (·.proposePolicy a cls days)

/-- The meaning of POLICY_PROPOSE. -/
def execPolicyPropose (a : At) (cls days : Nat) (s : State) : Host.Outcome State Fault Refusal :=
  .next (policyPropose a cls days s)

/-- A completion REFUSED_ARGUMENT with the MISMATCH reason (R106). -/
def Completion.mismatched : Completion := { Completion.plain .refusedArgument 0 with mismatch := true }

/-- POLICY_ENDORSE on a staged row (R106). -/
def State.endorseRow (s : State) (a : At) (i : Fin 8) (days : Nat) : State :=
  match s.retention.staged[i.val] with
  | .none => s.refuse a .refusedState
  | .proposed n p =>
    if p = a.port then s.refuse a .refusedState
    else if daysRead days = daysRead n then (s.setStaged i (.endorsed n p a.port)).done a .none
    else s.complete (refOf a) Completion.mismatched
  | .endorsed n p _ =>
    if p = a.port then s.refuse a .refusedState
    else if daysRead days = daysRead n then s.done a .none
    else s.complete (refOf a) Completion.mismatched

/-- POLICY_ENDORSE at the Retention Unit (R106). -/
def State.endorsePolicy (s : State) (a : At) (cls days : Nat) : State :=
  match classOf cls with
  | some i => if 4095 < days then s.refuse a .refusedArgument else s.endorseRow a i days
  | none => s.refuse a .refusedArgument

/-- POLICY_ENDORSE (R106). -/
def policyEndorse (a : At) (cls days : Nat) (s : State) : State := s.descriptor a .audit (·.endorsePolicy a cls days)

/-- The meaning of POLICY_ENDORSE. -/
def execPolicyEndorse (a : At) (cls days : Nat) (s : State) : Host.Outcome State Fault Refusal :=
  .next (policyEndorse a cls days s)

/-! ## POLICY_COMMIT (R107) -/

/-- A pending commit whose places stand reserved at the head of the append wait list is made (R107, R152). -/
def State.commitReady (s : State) : State :=
  match s.journal.wait with
  | .commit n :: _ =>
    if s.clock.commitPending ∧ n ≤ s.journal.reserved then
      (s.popAppend.commitPolicy s.clock.commitDays).nextAppend
    else s
  | _ => s

/-- The meaning of POLICY_COMMIT. -/
def execPolicyCommit (s : State) : Host.Outcome State Fault Refusal := .next s.commitReady

/-! ## Holds (R110 to R114) -/

/-- Whether a hold covers an entry: it has segment fields that the hold covers (R92, R111). -/
def Hold.coversEntry (h : Hold) (e : Entry) : Bool := e.seg.any h.covers

/-- Whether an entry's hold count takes part in a placement or release (R92, R111). -/
def Entry.counted (e : Entry) : Bool :=
  decide (e.state = .sealed) || decide (e.state = .expiryWait) || decide (e.state = .damaged)

/-- Whether a covered entry is too late for a hold (R111). -/
def Entry.tooLate (e : Entry) : Bool := decide (e.state = .retiring) || decide (e.state = .erasing)

/-- An entry at HOLD_PLACE (R111). -/
def Hold.placedOn (h : Hold) (e : Entry) : Entry :=
  if h.coversEntry e ∧ e.counted then
    { e with holds := e.holds + 1, state := if e.state = .expiryWait then .sealed else e.state }
  else e

/-- An entry at HOLD_RELEASE (R111). -/
def Hold.liftedFrom (h : Hold) (e : Entry) : Entry :=
  if h.coversEntry e ∧ e.counted then { e with holds := e.holds - 1 } else e

/-- The covered count of a placement, or the uncovered count of a release (R112, R114). -/
def State.covered (s : State) (h : Hold) : Nat := s.catalogue.countP (fun p => h.coversEntry p.2 && p.2.counted)

/-- The too-late count of a placement (R112). -/
def State.late (s : State) (h : Hold) : Nat := s.catalogue.countP (fun p => h.coversEntry p.2 && p.2.tooLate)

/-- The freed count of a release: the covered entries whose hold count falls to 0 (R114). -/
def State.freed (s : State) (h : Hold) : Nat :=
  s.catalogue.countP (fun p => h.coversEntry p.2 && p.2.counted && decide (p.2.holds = 1))

/-- Whether a hold's range is out of range (R112). -/
def badHoldRange (a b : Nat) : Bool := decide (b < a) || decide (lastDay < b)

/-- A hold is placed in a slot (R112). That a "journal low" notice of its entry is posted before the completion is the
model's choice (log entry 67). -/
def State.placeHold (s : State) (a : At) (slot : Nat) (h : Hold) : State :=
  let covered := s.covered h
  let late := s.late h
  let s := s.setSettings { s.settings with holds := tput s.settings.holds slot h }
  let s := s.setRetention { s.retention with lastHoldId := h.id }
  let s := s.setCatalogue (s.catalogue.map (fun p => (p.1, h.placedOn p.2)))
  let s := s.append (.holdPlaced h.id h.source h.a h.b h.placedDay covered late a.port)
  s.done a (.hold h.id covered late)

/-- HOLD_PLACE at the Retention Unit (R112). -/
def State.takeHold (s : State) (at_ : At) (source : Option Nat) (a b : Nat) : State :=
  if badHoldRange a b then s.refuse at_ .refusedArgument
  else match lowestFree s.settings.holds 64 with
    | none => s.refuse at_ .refusedFull
    | some slot =>
      if s.freePlaces = 0 then s.refuse at_ .refusedJournal
      else
        s.placeHold at_ slot { id := nextHoldId s.settings.holds 64 s.retention.lastHoldId, source, a, b,
                               placedDay := s.today, unknown := false }

/-- HOLD_PLACE (R112). -/
def holdPlace (at_ : At) (source : Option Nat) (a b : Nat) (s : State) : State :=
  s.descriptor at_ .audit (·.takeHold at_ source a b)

/-- The meaning of HOLD_PLACE. -/
def execHoldPlace (at_ : At) (source : Option Nat) (a b : Nat) (s : State) : Host.Outcome State Fault Refusal :=
  .next (holdPlace at_ source a b s)

/-- The holds an id names, in slot order: the one that carries it, or for id 0 every unknown one (R114). -/
def holdsNamed (holds : Table Hold) (id : Nat) : Table Hold :=
  holds.filter (fun p => if id = 0 then p.2.unknown else decide (p.2.id = id))

/-- One hold is released: the state, with the sums of uncovered and freed entries (R114). That a "journal low" notice of its
entry is posted before the completion of the command is the model's choice (log entry 67). -/
def liftHold (port : PortId) (acc : State × Nat × Nat) (p : Nat × Hold) : State × Nat × Nat :=
  let s := acc.1
  let h := p.2
  let uncovered := s.covered h
  let freed := s.freed h
  let s := s.setCatalogue (s.catalogue.map (fun q => (q.1, h.liftedFrom q.2)))
  let s := s.setSettings { s.settings with holds := tdel s.settings.holds p.1 }
  (s.append (.holdReleased h.id h.source h.a h.b h.unknown uncovered freed port), acc.2.1 + uncovered, acc.2.2 + freed)

/-- HOLD_RELEASE at the Retention Unit (R114). That an id above 65,535, which no hold carries, completes REFUSED_ARGUMENT is
the model's choice (log entry 53). -/
def State.releaseHolds (s : State) (a : At) (id : Nat) : State :=
  let named := holdsNamed s.settings.holds id
  if named.isEmpty then s.refuse a .refusedArgument
  else if s.freePlaces < named.length then s.refuse a .refusedJournal
  else
    let r := named.foldl (liftHold a.port) (s, 0, 0)
    r.1.done a (.holdsReleased named.length r.2.1 r.2.2)

/-- HOLD_RELEASE (R114). -/
def holdRelease (a : At) (id : Nat) (s : State) : State := s.descriptor a .audit (·.releaseHolds a id)

/-- The meaning of HOLD_RELEASE. -/
def execHoldRelease (a : At) (id : Nat) (s : State) : Host.Outcome State Fault Refusal := .next (holdRelease a id s)

end Sys2Proof.Machine
end

