-- ==== Sys2Proof/Machine/Retrievals.lean ====
section
/-!
DEFINITION. Reading the archive: CATALOGUE_READ, RETRIEVE, PROJECTION_SET, PIN_GRANT, DECODED_RECORD and
SEGMENT_READ_COMPLETE.
-/

namespace Sys2Proof.Machine

/-! ## CATALOGUE_READ (R95) -/

/-- CATALOGUE_READ at the Catalogue: its walk begins, whose extents are examined one at a time from then on (R95; log entry
17). -/
def State.beginWalkOf (s : State) (a : At) (buf : Buf) (start : Nat) (source : Option Nat) (filter : Option EntryState) :
    State :=
  if extentCount ≤ start then s.refuse a .refusedArgument
  else s.setJob (refOf a) (.catalogueRead { buf, source, filter, next := start, filled := 0 })

/-- CATALOGUE_READ (R95). -/
def catalogueRead (a : At) (buf : Buf) (start : Nat) (source st : Option Nat) (s : State) : State :=
  s.bufferDescriptor a buf .retrievalOrAudit (fun s =>
    match st with
    | some code =>
      match EntryState.ofCode code with
      | some t => s.beginWalkOf a buf start source (some t)
      | none => s.refuse a .refusedArgument
    | none => s.beginWalkOf a buf start source none)

/-- The meaning of CATALOGUE_READ. -/
def execCatalogueRead (a : At) (buf : Buf) (start : Nat) (source st : Option Nat) (s : State) :
    Host.Outcome State Fault Refusal :=
  .next (catalogueRead a buf start source st s)

/-! ## RETRIEVE (R125) -/

/-- The job of a RETRIEVE (R125, R132). -/
def Retrieval.begin (source : Option Nat) (a b : Nat) (buf : Buf) (cursor : Option Cursor)
    (projection : Option Projection) : Retrieval :=
  { source, a, b, buf, filled := 0, position := cursor.map (·.serial), start := (cursor.map (·.index)).getD 0,
    current := none, lastIndex := none, projection, whole := 0, passedOver := 0, failed := 0, delivered := 0,
    gone := false }

/-- Whether the arguments of a RETRIEVE are out of range (R125). -/
def badRetrieve (a b : Nat) (cursor : Option Cursor) : Bool :=
  decide (b < a) || decide (lastDay < b) || cursor.any (fun c => decide (recordLimit < c.index))

/-- RETRIEVE at the Retrieval Unit: the job is created with its copy of the projection, and makes its cursor test or its
first search (R125, R126, R127, R132). -/
def State.beginRetrieval (s : State) (at_ : At) (buf : Buf) (source : Option Nat) (a b : Nat) (cursor : Option Cursor) :
    State :=
  if badRetrieve a b cursor then s.refuse at_ .refusedArgument
  else
    let audit := (s.roles at_.port).audit
    let s := if audit then s else s.modPort at_.port (fun q => { q with active := q.pendingProj })
    let projection := if audit then none else some (s.port at_.port).active
    let s := s.setJob (refOf at_) (.retrieval (Retrieval.begin source a b buf cursor projection))
    match cursor with
    | some cur => s.cursorTest (refOf at_) cur
    | none => s.search (refOf at_)

/-- RETRIEVE (R125). -/
def retrieve (at_ : At) (buf : Buf) (source : Option Nat) (a b : Nat) (cursor : Option Cursor) (s : State) : State :=
  s.bufferDescriptor at_ buf .retrieval (·.beginRetrieval at_ buf source a b cursor)

/-- The meaning of RETRIEVE. -/
def execRetrieve (at_ : At) (buf : Buf) (source : Option Nat) (a b : Nat) (cursor : Option Cursor) (s : State) :
    Host.Outcome State Fault Refusal :=
  .next (retrieve at_ buf source a b cursor s)

/-! ## PROJECTION_SET (R133) -/

/-- PROJECTION_SET at the Retrieval Unit (R133). -/
def State.setProjection (s : State) (a : At) (p : Projection) : State :=
  if (s.roles a.port).audit then s.refuse a .refusedState
  else if projectionInRange p then (s.modPort a.port (fun q => { q with pendingProj := p })).done a .none
  else s.refuse a .refusedArgument

/-- PROJECTION_SET (R133). -/
def projectionSet (a : At) (p : Projection) (s : State) : State := s.descriptor a .retrieval (·.setProjection a p)

/-- The meaning of PROJECTION_SET. -/
def execProjectionSet (a : At) (p : Projection) (s : State) : Host.Outcome State Fault Refusal :=
  .next (projectionSet a p s)

/-! ## PIN_GRANT (R93, R128) -/

/-- A request granted from a pin wait list continues its job: a retrieval tests the entry again and goes on, or releases
the pin and makes its next search; a verify job goes on (R93, R128, R139). -/
def State.pinGranted (s : State) (c : ChainRef) (x : Nat) : State :=
  match s.job c with
  | some (.retrieval r) =>
    let audit := (s.roles c.port).audit
    if r.selects audit (s.entry x) then s.goOnPinned c x
    else
      let passed := if !audit && decide ((s.entry x).state = .damaged) then 1 else 0
      ((s.setJob c (.retrieval { r with current := none, passedOver := r.passedOver + passed })).releasePin x).search c
  | some (.verify _) => s.goOnPinned c x
  | _ => s

/-- The oldest request granted on an entry goes on. -/
def State.grantPin (s : State) (x : Nat) : State :=
  match (s.entry x).granted with
  | c :: t => (s.modEntry x (fun e => { e with granted := t })).pinGranted c x
  | [] => s

/-- The meaning of PIN_GRANT. -/
def execPinGrant (extent : Nat) (s : State) : Host.Outcome State Fault Refusal := .next (s.grantPin extent)

/-! ## DECODED_RECORD (R67) -/

/-- A decoded record goes to its requester; the flag says whether the job goes on decoding (R129, R140). -/
def State.handRecord (s : State) (r : JobRef) (g : SegJob) (i : Nat) (record : Rec) : State × Bool :=
  match r with
  | .chain c =>
    match s.job c with
    | some (.retrieval j) => s.deliver c j g i record
    | _ => (s, true)
  | .scrub => (s, true)

/-- The next record of the segment that a job decodes (R67, R68). -/
def State.decodeOne (s : State) (r : JobRef) : State :=
  match s.segJob r with
  | some g =>
    match g.phase with
    | .decoding h d =>
      match decodeNext h d with
      | some (record, d') =>
        let t := s.handRecord r g d.index record
        if t.2 then t.1.decodeStands r h (decodeBetween h d') else t.1
      | none => s.segEnded r (.failed (.decodeFailure d.index))
    | _ => s
  | none => s

/-- The meaning of DECODED_RECORD. -/
def execDecodedRecord (lane : LaneNo) (s : State) : Host.Outcome State Fault Refusal :=
  .next (match s.arbiter.lanes[lane.val] with | some r => s.decodeOne r | none => s)

/-! ## SEGMENT_READ_COMPLETE (R83) -/

/-- What the flash returns for an extent; none where it reports the read failed (R83). -/
def State.returned (s : State) (x : Nat) : ReadOutcome → Option ExtentContent
  | .failed => none
  | .stored => some ((tget s.flash.extents x).getD .erased)
  | .returned c => some c

/-- The header and body of a segment read that is no failed read: its header is valid and carries the entry's serial
(R83). -/
def goodRead (serial : Option Nat) : Option ExtentContent → Option (SegHeader × List Bool)
  | some (.segment h check body) =>
    if validHeader h check ∧ serial = some h.seg.serial then some (h, body) else none
  | _ => none

/-- A job whose segment has been read begins to wait for a lane (R128, R139, R144, R165). -/
def State.readDone (s : State) (r : JobRef) (h : SegHeader) (body : List Bool) : State :=
  let s := s.setPhase r (.waitLane h body)
  match r with
  | .chain c => s.waitForLane c
  | .scrub => s.setArbiter { s.arbiter with scrubWaits := true }

/-- A segment READ completes for a requester: it is reported, or put once more on its channel's queue (R83). -/
def State.segReadDone (s : State) (x : Nat) (r : JobRef) (again : Bool) (outcome : ReadOutcome) : State :=
  match goodRead ((s.entry x).seg.map (·.serial)) (s.returned x outcome) with
  | some (h, body) => s.readDone r h body
  | none => if again then s.segEnded r (.failed .readFailure) else s.startRead r x true

/-- The segment READ in flight on a channel completes (R83). -/
def State.completeSegRead (s : State) (ch : Channel) (outcome : ReadOutcome) : State :=
  match s.inFlight ch with
  | some (.segRead x (some r) again) => (s.popQueue ch).segReadDone x r again outcome
  | some (.segRead _ none _) => s.popQueue ch
  | _ => s

/-- The meaning of SEGMENT_READ_COMPLETE. -/
def execSegmentReadComplete (ch : Channel) (outcome : ReadOutcome) (s : State) : Host.Outcome State Fault Refusal :=
  .next (s.completeSegRead ch outcome)

end Sys2Proof.Machine
end

