-- ==== Sys2Proof/Machine/Ports.lean ====
section
/-!
DEFINITION. The commands of the port: SERVICE_SET, STATUS_READ, IDENTIFY, JUMP, HALT, the cell commands, REGISTER_WRITE,
the arriving descriptor, and the events of the link.
-/

namespace Sys2Proof.Machine

/-! ## SERVICE_SET (R166) -/

/-- SERVICE_SET at the Service Arbiter (R166). -/
def State.setInterval (s : State) (a : At) (interval : Nat) : State :=
  let n := intervalRead interval
  (s.modPort a.port (fun q => { q with interval := n })).complete (refOf a)
    { Completion.doneWith (.interval n) with flags := { Flags.none with clamped := decide (n ≠ interval) } }

/-- SERVICE_SET (R166). -/
def serviceSet (a : At) (interval : Nat) (s : State) : State := s.descriptor a .anyRole (·.setInterval a interval)

/-- The meaning of SERVICE_SET. -/
def execServiceSet (a : At) (interval : Nat) (s : State) : Host.Outcome State Fault Refusal :=
  .next (serviceSet a interval s)

/-! ## STATUS_READ and IDENTIFY (R167) -/

/-- The staging buffers in each state (R167). -/
def Stager.counts (g : Stager) : BufCounts :=
  { free := 48 - g.bufs.length,
    opened := g.bufs.countP (fun p => match p.2.state with | .opened _ => true | _ => false),
    sealing := g.bufs.countP (fun p => match p.2.state with | .sealing _ _ _ => true | _ => false),
    failed := g.bufs.countP (fun p => match p.2.state with | .failed _ => true | _ => false) }

/-- The six places of STATUS_READ for a port (R167). -/
def State.statusPlaces (s : State) (p : PortId) : List Place :=
  let q := s.port p
  let j := s.journal
  [.status (.part (decide (s.power = .starting)) (decide (s.power = .ready)) s.clock.value s.today s.clock.state
      s.clock.commitPending s.store.full s.scanner),
    .status (.journal s.freePlaces j.low (decide (s.freePlaces = 0)) (s.settings.release + 1) j.durable
      s.settings.release j.next j.failures),
    .status (.policy s.settings.rows s.retention.staged s.settings.holds.length
      (s.settings.holds.countP (fun h => h.2.unknown))),
    .status (.scrub s.audit.enable s.audit.pointer s.audit.passStart s.audit.counts),
    .status (.port q.state (s.roles p) (q.chains.map (·.state)) q.interval q.tag s.arbiter.g q.chainNotices
      q.intakeNotices q.archiveNotices (if (s.roles p).audit then none else some (q.active, q.pendingProj))),
    .status (.resources s.streams.length s.files.length s.stager.counts (s.store.queues.map List.length)
      (s.arbiter.lanes.toList.countP Option.isSome))]

/-- STATUS_READ on any port (R167). -/
def State.readStatus (s : State) (a : At) (buf : Buf) : State :=
  if countRead buf.count < 6 then s.refuse a .refusedArgument
  else (s.writePlaces a.port buf.addr 0 (s.statusPlaces a.port)).complete (refOf a) (Completion.plain .done 6)

/-- STATUS_READ (R167). -/
def statusRead (a : At) (buf : Buf) (s : State) : State := s.bufferDescriptor a buf .anyPort (·.readStatus a buf)

/-- The meaning of STATUS_READ. -/
def execStatusRead (a : At) (buf : Buf) (s : State) : Host.Outcome State Fault Refusal := .next (statusRead a buf s)

/-- IDENTIFY on any port (R167). -/
def State.writeIdent (s : State) (a : At) (buf : Buf) : State :=
  if countRead buf.count < 1 then s.refuse a .refusedArgument
  else (s.emit (.place a.port buf.addr (.ident (s.identOf a.port)))).complete (refOf a) (Completion.plain .done 1)

/-- IDENTIFY (R167). -/
def identify (a : At) (buf : Buf) (s : State) : State := s.bufferDescriptor a buf .anyPort (·.writeIdent a buf)

/-- The meaning of IDENTIFY. -/
def execIdentify (a : At) (buf : Buf) (s : State) : Host.Outcome State Fault Refusal := .next (identify a buf s)

/-! ## JUMP and HALT (R160) -/

/-- JUMP at the chain engine (R160). -/
def State.jumpTo (s : State) (a : At) (target : Nat) : State :=
  if target % 64 = 0 then (s.modChain (refOf a) (fun h => { h with next := target })).done a .none
  else s.refuse a .refusedArgument

/-- JUMP (R160). -/
def jump (a : At) (target : Nat) (s : State) : State := s.descriptor a .anyPort (·.jumpTo a target)

/-- The meaning of JUMP. -/
def execJump (a : At) (target : Nat) (s : State) : Host.Outcome State Fault Refusal := .next (jump a target s)

/-- HALT at the chain engine: DONE, the chain IDLE, and its notice if NOTIFY is set (R160; log entry 9). -/
def State.haltChain (s : State) (a : At) : State :=
  let addr := ((s.chain (refOf a)).desc.map (·.addr)).getD 0
  let s := (s.done a .none).idleChain (refOf a)
  if a.notify then s.notice a.port .chainHalted (.chain a.chain addr) else s

/-- HALT (R160). -/
def halt (a : At) (s : State) : State := s.descriptor a .anyPort (·.haltChain a)

/-- The meaning of HALT. -/
def execHalt (a : At) (s : State) : Host.Outcome State Fault Refusal := .next (halt a s)

/-! ## Cell commands (R158, R159, R162, R164) -/

/-- The first test of CHAIN_START and CHAIN_STOP: the chain number (R158). -/
def chainNumber (chain : Byte) : Option ChainNo := if h : chain.toNat < 4 then some ⟨chain.toNat, h⟩ else none

/-- The test of CHAIN_START (R158). -/
def startTest (chain : Byte) (q : Port) : Option CellResult :=
  match chainNumber chain with
  | none => some .argument
  | some c =>
    if q.state ≠ .opened then some .state
    else if q.chains[c.val].state ≠ .idle then some .busy
    else if q.cell1.toNat % 64 ≠ 0 then some .argument
    else none

/-- CHAIN_START taken (R159). -/
def State.startChain (s : State) (p : PortId) (chain : Byte) : State :=
  match chainNumber chain with
  | some c =>
    s.modChain ⟨p, c⟩ (fun _ => { state := .running, next := (s.port p).cell1.toNat, desc := none })
  | none => s

/-- The test of CHAIN_STOP (R158). -/
def stopTest (chain : Byte) (q : Port) : Option CellResult :=
  match chainNumber chain with
  | none => some .argument
  | some c => if q.chains[c.val].state = .idle then some .state else none

/-- CHAIN_STOP taken: a fetch is abandoned; a descriptor ends STOPPED (R159). -/
def State.stopChain (s : State) (p : PortId) (chain : Byte) : State :=
  match chainNumber chain with
  | some c => if s.fetching ⟨p, c⟩ then s.idleChain ⟨p, c⟩ else s.stopJob ⟨p, c⟩
  | none => s

/-- The test of PORT_DRAIN (R158). -/
def drainTest (q : Port) : Option CellResult := if q.state = .opened then none else some .state

/-- PORT_DRAIN taken (R162). -/
def State.drainPort (s : State) (p : PortId) : State :=
  let s := s.modPort p (fun q => { q with state := .draining })
  let s := four.foldl (fun s c => if s.fetching ⟨p, c⟩ then s.idleChain ⟨p, c⟩ else s) s
  s.settleDrain p

/-- The test of PORT_OPEN (R158). -/
def openTest (q : Port) : Option CellResult := if q.state = .closed then none else some .state

/-- PORT_OPEN taken (R162). -/
def State.openPort (s : State) (p : PortId) : State := s.modPort p (fun q => { q with state := .opened })

/-- The test of NOTICE_AREA (R158). -/
def areaTest (q : Port) : Option CellResult := if q.cell1.toNat % 64 = 0 then none else some .argument

/-- NOTICE_AREA taken (R164). -/
def State.setArea (s : State) (p : PortId) (mask : Byte) : State :=
  s.modPort p (fun q => { q with area := if q.cell1 = 0 then none else some (areaOf q.cell1.toNat mask) })

/-- CHAIN_START: a write of cell word 0 with both marks set (R158, R159). -/
def chainStart (port : PortId) (chain mask : Byte) (s : State) : State :=
  s.cellCommand port ⟨1, chain, mask⟩ (startTest chain) (·.startChain port chain)

/-- The meaning of CHAIN_START. -/
def execChainStart (port : PortId) (chain mask : Byte) (s : State) : Host.Outcome State Fault Refusal :=
  .next (chainStart port chain mask s)

/-- CHAIN_STOP: a write of cell word 0 with both marks set (R158, R159). -/
def chainStop (port : PortId) (chain mask : Byte) (s : State) : State :=
  s.cellCommand port ⟨2, chain, mask⟩ (stopTest chain) (·.stopChain port chain)

/-- The meaning of CHAIN_STOP. -/
def execChainStop (port : PortId) (chain mask : Byte) (s : State) : Host.Outcome State Fault Refusal :=
  .next (chainStop port chain mask s)

/-- PORT_DRAIN: a write of cell word 0 with both marks set (R158, R162). -/
def portDrain (port : PortId) (chain mask : Byte) (s : State) : State :=
  s.cellCommand port ⟨3, chain, mask⟩ drainTest (·.drainPort port)

/-- The meaning of PORT_DRAIN. -/
def execPortDrain (port : PortId) (chain mask : Byte) (s : State) : Host.Outcome State Fault Refusal :=
  .next (portDrain port chain mask s)

/-- PORT_OPEN: a write of cell word 0 with both marks set (R158, R162). -/
def portOpen (port : PortId) (chain mask : Byte) (s : State) : State :=
  s.cellCommand port ⟨4, chain, mask⟩ openTest (·.openPort port)

/-- The meaning of PORT_OPEN. -/
def execPortOpen (port : PortId) (chain mask : Byte) (s : State) : Host.Outcome State Fault Refusal :=
  .next (portOpen port chain mask s)

/-- NOTICE_AREA: a write of cell word 0 with both marks set (R158, R164). -/
def noticeArea (port : PortId) (chain mask : Byte) (s : State) : State :=
  s.cellCommand port ⟨5, chain, mask⟩ areaTest (·.setArea port mask)

/-- The meaning of NOTICE_AREA. -/
def execNoticeArea (port : PortId) (chain mask : Byte) (s : State) : Host.Outcome State Fault Refusal :=
  .next (noticeArea port chain mask s)

/-- A write of cell word 0 with exactly one mark set: no command is taken, the marks are cleared, the result is TORN and
the cell count grows (R158; log entry 12). -/
def tornWrite (port : PortId) (cmd chain mask : Byte) (s : State) : State :=
  if s.power = .off ∨ (s.port port).state = .down then s
  else s.modPort port (fun q =>
    { q with cell0 := ⟨cmd, chain, mask⟩, cellCount := (q.cellCount + 1) % 256, lastResult := .torn })

/-- The meaning of TORN. -/
def execTorn (port : PortId) (cmd chain mask : Byte) (s : State) : Host.Outcome State Fault Refusal :=
  .next (tornWrite port cmd chain mask s)

/-! ## REGISTER_WRITE (R157, R158) -/

/-- A write of cell word 0 with both marks set, by its cell command; one that names no cell command gives ARGUMENT
(R158). -/
def cellWrite (port : PortId) (cmd chain mask : Byte) (s : State) : State :=
  match cmd.toNat with
  | 1 => chainStart port chain mask s
  | 2 => chainStop port chain mask s
  | 3 => portDrain port chain mask s
  | 4 => portOpen port chain mask s
  | 5 => noticeArea port chain mask s
  | _ => s.cellCommand port ⟨cmd, chain, mask⟩ (fun _ => some .argument) id

/-- A byte of a 64-bit word. -/
def wordByte (v : BitVec 64) (i : Nat) : Byte := v.extractLsb' (8 * i) 8

/-- A write of cell word 0, by its two pending marks (R158, R171). -/
def writeCell0 (port : PortId) (v : BitVec 64) (s : State) : State :=
  let cmd := wordByte v 1
  let chain := wordByte v 2
  let mask := wordByte v 3
  if wordByte v 0 ≠ 0 ∧ wordByte v 7 ≠ 0 then cellWrite port cmd chain mask s
  else if wordByte v 0 = 0 ∧ wordByte v 7 = 0 then s.modPort port (fun q => { q with cell0 := ⟨cmd, chain, mask⟩ })
  else tornWrite port cmd chain mask s

/-- A write to a register of the port window; the status word and the identification block are fixed (R157, R158). -/
def registerWrite (port : PortId) (reg : WindowReg) (v : BitVec 64) (s : State) : State :=
  if s.power = .off ∨ (s.port port).state = .down then s
  else match reg with
    | .cell0 => writeCell0 port v s
    | .cell1 => s.modPort port (fun q => { q with cell1 := v })
    | .readOnly => s

/-- The meaning of REGISTER_WRITE. -/
def execRegisterWrite (port : PortId) (reg : WindowReg) (v : BitVec 64) (s : State) : Host.Outcome State Fault Refusal :=
  .next (registerWrite port reg v s)

/-! ## DESCRIPTOR_FETCH (R160) -/

/-- The command that a descriptor's bytes name, run by its chain. -/
def runDescriptor (c : Instr) (s : State) : State :=
  match c with
  | .streamOpen a source cls fill mask first widths force samples tolerance =>
    streamOpen a source cls fill mask first widths force samples tolerance s
  | .streamClose a source => streamClose a source s
  | .fileOpen a source fileNo minutes => fileOpen a source fileNo minutes s
  | .fileFeed a buf source fileNo => fileFeed a buf source fileNo s
  | .fileResume a source fileNo => fileResume a source fileNo s
  | .fileAbandon a source fileNo => fileAbandon a source fileNo s
  | .fileAdopt a source fileNo => fileAdopt a source fileNo s
  | .streamSnapshot a buf source => streamSnapshot a buf source s
  | .streamMask a source mask clear => streamMask a source mask clear s
  | .widthSet a source force tolerance => widthSet a source force tolerance s
  | .gapRead a buf source => gapRead a buf source s
  | .catalogueRead a buf start source st => catalogueRead a buf start source st s
  | .retrieve at_ buf source a b cursor => retrieve at_ buf source a b cursor s
  | .projectionSet a p => projectionSet a p s
  | .policyPropose a cls days => policyPropose a cls days s
  | .policyEndorse a cls days => policyEndorse a cls days s
  | .holdPlace at_ source a b => holdPlace at_ source a b s
  | .holdRelease a id => holdRelease a id s
  | .clockSet a value => clockSet a value s
  | .verify a x journalPass => verify a x journalPass s
  | .scrubSet a enable start => scrubSet a enable start s
  | .damagedDiscard a x => damagedDiscard a x s
  | .journalRead a buf serial => journalRead a buf serial s
  | .journalRelease a serial => journalRelease a serial s
  | .serviceSet a interval => serviceSet a interval s
  | .statusRead a buf => statusRead a buf s
  | .identify a buf => identify a buf s
  | .jump a target => jump a target s
  | .halt a => halt a s
  | _ => s

/-- A fetched descriptor arrives: its command runs, or it completes ILLEGAL_COMMAND (R160, steps 1 and 2). -/
def descriptorFetch (port : PortId) (chain : ChainNo) (bytes : List Byte) (s : State) : State :=
  match descriptorCommand port chain bytes with
  | some c => runDescriptor c s
  | none =>
    let a : At := { port, chain, notify := (byteAt bytes 1).getLsbD 0, haltOnError := (byteAt bytes 1).getLsbD 1 }
    s.descriptor a .anyPort (·.refuse a .illegalCommand)

/-- The meaning of DESCRIPTOR_FETCH. -/
def execDescriptorFetch (port : PortId) (chain : ChainNo) (bytes : Vector Byte 64) (s : State) :
    Host.Outcome State Fault Refusal :=
  .next (descriptorFetch port chain bytes.toList s)

/-! ## DESCRIPTOR_FETCH_TIMEOUT and ERROR_COMPLETION (R161) -/

/-- The meaning of DESCRIPTOR_FETCH_TIMEOUT. -/
def execDescriptorFetchTimeout (port : PortId) (chain : ChainNo) (s : State) : Host.Outcome State Fault Refusal :=
  .next (s.fetchFails ⟨port, chain⟩)

/-- The meaning of ERROR_COMPLETION: the chain's read in progress is answered with an error (R161). -/
def execErrorCompletion (port : PortId) (chain : ChainNo) (s : State) : Host.Outcome State Fault Refusal :=
  .next (if s.fetching ⟨port, chain⟩ then s.fetchFails ⟨port, chain⟩ else s.bufferReadFails ⟨port, chain⟩)

/-! ## The link (R157, R163) -/

/-- The link of a DOWN port comes up; a function-level reset keeps its port DOWN (R157, R163). -/
def State.linkUp (s : State) (p : PortId) : State :=
  if s.power ≠ .off ∧ (s.port p).state = .down ∧ ¬ (s.port p).inReset then
    s.modPort p (fun q => { q with state := .opened })
  else s

/-- The meaning of LINK_UP. -/
def execLinkUp (port : PortId) (s : State) : Host.Outcome State Fault Refusal := .next (s.linkUp port)

/-- The meaning of LINK_DOWN: a port reset that leaves the port DOWN (R157, R163). -/
def execLinkDown (port : PortId) (s : State) : Host.Outcome State Fault Refusal :=
  .next (if s.power = .off then s else (s.portReset port).modPort port (fun q => { q with inReset := false }))

/-- The meaning of FUNCTION_LEVEL_RESET: a port reset that holds the port DOWN (R157, R163). -/
def execFunctionLevelReset (port : PortId) (s : State) : Host.Outcome State Fault Refusal :=
  .next (if s.power = .off ∨ (s.port port).state = .down then s
    else (s.portReset port).modPort port (fun q => { q with inReset := true }))

/-- The meaning of FUNCTION_LEVEL_RESET_END: the port becomes OPEN (R163). -/
def execFunctionLevelResetEnd (port : PortId) (s : State) : Host.Outcome State Fault Refusal :=
  .next (if (s.port port).inReset then s.modPort port (fun q => { q with state := .opened, inReset := false }) else s)

end Sys2Proof.Machine
end

