-- ==== Sys2Proof/Machine/Pages.lean ====
section
/-!
DEFINITION. The events of the Journal: JOURNAL_PAGE_WRITE_COMPLETE, PAGE_TIMER_EXPIRY, JOURNAL_ERASE_COMPLETE,
JOURNAL_PAGE_READ_COMPLETE and APPEND_WAIT_SERVED.
-/

namespace Sys2Proof.Machine

/-- The failure count grows by one (R150). -/
def State.countFailure (s : State) : State := s.setJournal { s.journal with failures := s.journal.failures + 1 }

/-- The page WRITE in flight on channel 0 completes (R149, R150). -/
def State.completePage (s : State) (ok : Bool) : State :=
  match s.inFlight 0, s.journal.bufIn .writing with
  | some .pageWrite, some i => if ok then (s.popQueue 0).pageWritten i else (s.popQueue 0).pageFailed i
  | _, _ => s

/-- The meaning of JOURNAL_PAGE_WRITE_COMPLETE. -/
def execJournalPageWriteComplete (ok : Bool) (s : State) : Host.Outcome State Fault Refusal := .next (s.completePage ok)

/-- 10 ms have passed since the first entry of the gathering buffer: it is closed (R149). -/
def State.closePage (s : State) : State :=
  match s.journal.bufIn .gathering with
  | some i =>
    if s.journal.bufs[i.val].entries.isEmpty then s else State.pumpPages 6 ((s.setPageState i .ready).startPageWrite)
  | none => s

/-- The meaning of PAGE_TIMER_EXPIRY. -/
def execPageTimerExpiry (s : State) : Host.Outcome State Fault Refusal := .next s.closePage

/-- The ERASE of a journal extent in flight on channel 0 completes (R150). -/
def State.completeJournalErase (s : State) (ok : Bool) : State :=
  match s.inFlight 0 with
  | some (.journalErase x) =>
    if ok then (s.popQueue 0).journalErased x else ((s.popQueue 0).countFailure).request 0 (.journalErase x)
  | _ => s

/-- The meaning of JOURNAL_ERASE_COMPLETE. -/
def execJournalEraseComplete (ok : Bool) (s : State) : Host.Outcome State Fault Refusal :=
  .next (s.completeJournalErase ok)

/-- What a page READ returns for a slot; none where it fails. -/
def State.returnedPage (s : State) (slot : Nat) : PageOutcome → Option SlotContent
  | .failed => none
  | .stored => some (match tget s.flash.pages slot with | some e => .page e | none => .erased)
  | .returned c => some c

/-- The entries of what a slot holds. -/
def SlotContent.entries : SlotContent → List StoredEntry
  | .erased => []
  | .page e => e

/-- The least serial that the page map lists for a slot (R154, R156). That it is 0 for a slot which the map lists no longer,
its extent released and erased between a page's two READs, is the model's choice (log entry 61). -/
def Journal.firstSerial (j : Journal) (slot : Nat) : Nat := (((tget j.pageMap slot).getD []).min?).getD 0

/-- A page READ for a journal read completes: its entries are written, or it is retried, or it ends the command (R150,
R154). -/
def State.pageReadDone (s : State) (c : ChainRef) (j : JournalRead) (slot : Nat) (again : Bool) (outcome : PageOutcome) :
    State :=
  match s.returnedPage slot outcome with
  | some content =>
    let s := s.setChainState c .running
    State.readOn readFuel s c (j.skipReleased s.settings.release) (some (slot, SlotContent.entries content))
  | none =>
    let s := s.countFailure
    if again then s.complete c (j.completion .donePartial true (s.journal.firstSerial slot))
    else s.readPage c j slot true

/-- The page READ in flight on channel 0 for a JOURNAL_READ completes (R83, R150, R154). That a failed one whose requester has
ended, discarded with no retry and no report (R83), does not add one to the failure count (R150) is the model's choice (log
entry 87). -/
def State.completePageRead (s : State) (outcome : PageOutcome) : State :=
  match s.inFlight 0 with
  | some (.pageRead slot (.job (some c)) again) =>
    match s.job c with
    | some (.journalRead j) => (s.popQueue 0).pageReadDone c j slot again outcome
    | _ => s.popQueue 0
  | some (.pageRead _ (.job none) _) => s.popQueue 0
  | _ => s

/-- The meaning of JOURNAL_PAGE_READ_COMPLETE. -/
def execJournalPageReadComplete (outcome : PageOutcome) (s : State) : Host.Outcome State Fault Refusal :=
  .next (s.completePageRead outcome)

/-- The meaning of APPEND_WAIT_SERVED. -/
def execAppendWaitServed (s : State) : Host.Outcome State Fault Refusal := .next s.serveAppend

end Sys2Proof.Machine
end

