-- ==== Sys2Proof/Machine/Scans.lean ====
section
/-!
DEFINITION. The events of the extent store and of the Expiry Scanner: SCAN_VISIT, SEAL_ALLOCATION, QUEUE_PLACE_GIVEN,
SEGMENT_WRITE_COMPLETE and ERASE_COMPLETE.
-/

namespace Sys2Proof.Machine

/-! ## SCAN_VISIT (R118, R119) -/

/-- What a visit does to the entry it visits (R119). -/
def State.visit (s : State) (x : Nat) : State :=
  let e := s.entry x
  match e.seg with
  | some v =>
    match e.state with
    | .sealed =>
      if 0 < e.holds then s
      else if !s.isDue v then s
      else if e.pins = 0 then s.retire x v
      else
        let s := s.modEntry x (fun e => { e with state := .expiryWait })
        s.setScanner { s.scanner with waited := s.scanner.waited + 1 }
    | .expiryWait =>
      if e.pins = 0 then s.retest x
      else if s.isDue v then s
      else s.modEntry x (fun e => { e with state := .sealed })
    | _ => s
  | none => s

/-- The end of a walk, once its position is past the last extent (R118). -/
def State.endWalk (s : State) : State :=
  if s.scanner.rescan then
    s.setScanner { s.scanner with state := if s.journal.low then .paused else .scanning, position := 0, rescan := false,
                                  retired := 0, waited := 0 }
  else s.setScanner { s.scanner with state := .idle, daysPending := 0 }

/-- The SCANNING scanner makes its next visit (R118, R119). -/
def State.scanVisit (s : State) : State :=
  if s.scanner.state = .scanning ∧ s.scanner.position < extentCount then
    let x := s.scanner.position
    let s := s.visit x
    let s := s.setScanner { s.scanner with position := x + 1 }
    if extentCount ≤ x + 1 then s.endWalk else s
  else s

/-- The meaning of SCAN_VISIT. -/
def execScanVisit (s : State) : Host.Outcome State Fault Refusal := .next s.scanVisit

/-! ## SEAL_ALLOCATION (R77 to R79) -/

/-- Whether a seal may take a place of a channel: it has a FREE extent and a place, and no request that began to wait
before the seal can use the place (R76, R77; log entry 8). -/
def State.sealOpen (s : State) (ch : Channel) : Bool :=
  (s.firstFree ch).isSome && decide ((s.queue ch).length < 16)
    && !(s.store.placeWait.takeWhile (fun r => decide (r ≠ PlaceReq.seal))).any (s.canUse ch)

/-- The channel of an allocation: of those open to a seal, the one with the smallest queue depth, the lowest number where
depths tie (R77). -/
def State.sealChannel (s : State) : Option Channel :=
  four.foldl (fun best ch =>
    if s.sealOpen ch then
      match best with
      | some b => if (s.queue ch).length < (s.queue b).length then some ch else some b
      | none => some ch
    else best) none

/-- The first seal of the seal wait list is allocated the lowest FREE extent of a channel, and the oldest place of a seal on
the place wait list goes with it (R77, R78, R79, R88). -/
def State.allocate (s : State) (ch : Channel) : State :=
  match s.stager.seals, s.firstFree ch with
  | b :: t, some x =>
    match tget s.stager.bufs b with
    | some v =>
      match v.state with
      | .sealing h attempt _ =>
        let s := s.setStager { s.stager with seals := t }
        let s := s.setBuf b { v with state := .sealing h attempt (some x) }
        let s := s.setEntry x { Entry.free with state := .writing, seg := some h.seg }
        let s := s.setStore { s.store with placeWait := s.store.placeWait.erase .seal, full := false }
        s.setQueue ch (s.queue ch ++ [.segWrite b x])
      | _ => s
    | none => s
  | _, _ => s

/-- The first waiting seal finds no FREE extent: STORE_FULL is set, with its notice where it was not set (R79). -/
def State.storeFull (s : State) : State :=
  if s.store.full then s
  else (s.setStore { s.store with full := true }).noticeAll .storeFull .none

/-- The seals of the seal wait list wait for queue places: each that has no place on the place wait list takes one at its
end (R76 to R78). -/
def State.sealWaits (s : State) : State :=
  let more := List.replicate (s.stager.seals.length - s.store.placeWait.count .seal) PlaceReq.seal
  s.setStore { s.store with placeWait := s.store.placeWait ++ more }

/-- The first seal of the seal wait list is allocated, or the seals wait for queue places, or the store is found full (R77
to R79). -/
def State.sealAllocation (s : State) : State :=
  if s.stager.seals.isEmpty then s
  else if four.all (fun ch => (s.firstFree ch).isNone) then s.storeFull
  else match s.sealChannel with
    | some ch => s.allocate ch
    | none => s.sealWaits

/-- The meaning of SEAL_ALLOCATION. -/
def execSealAllocation (s : State) : Host.Outcome State Fault Refusal := .next s.sealAllocation

/-! ## QUEUE_PLACE_GIVEN (R76) -/

/-- The chain whose operation has been given a queue place goes on (R125, R128, R159). -/
def State.placeGivenTo (s : State) (op : StoreOp) : State :=
  match op with
  | .segRead _ (some r) _ => (s.setPhase r .reading).jobState r .running
  | .pageRead _ (.job (some c)) _ => s.setChainState c .running
  | _ => s

/-- A free place of a channel goes to the oldest request that can use it (R76, R78). -/
def State.givePlace (s : State) (ch : Channel) : State :=
  if (s.queue ch).length < 16 then
    match s.store.placeWait.find? (s.canUse ch) with
    | some (.op c op) =>
      let s := s.setStore { s.store with placeWait := s.store.placeWait.erase (.op c op) }
      (s.setQueue ch (s.queue ch ++ [op])).placeGivenTo op
    | some .seal => s.allocate ch
    | none => s
  else s

/-- The meaning of QUEUE_PLACE_GIVEN. -/
def execQueuePlaceGiven (ch : Channel) (s : State) : Host.Outcome State Fault Refusal := .next (s.givePlace ch)

/-! ## SEGMENT_WRITE_COMPLETE (R80 to R82) -/

/-- The state with what an extent holds on the flash replaced. -/
def State.setContent (s : State) (x : Nat) (c : ExtentContent) : State :=
  s.setFlash { s.flash with extents := if c = .erased then tdel s.flash.extents x else tput s.flash.extents x c }

/-- A segment WRITE completed without failure (R80, R89). -/
def State.segWritten (s : State) (b x : Nat) (v : Staging) (h : SegHeader) : State :=
  let s := s.setContent x (.segment h (headerCheck h) v.body)
  let s := s.modEntry x (fun e => { e with state := .journaling })
  let s := s.freeBuf b
  s.ask (.sealed (sealFields x h.seg)) (.sealEntry x)

/-- A segment WRITE failed: its extent is retired with a BAD_EXTENT entry, and the seal waits for its second attempt, or
its buffer for FAILED (R81, R82). -/
def State.segFailed (s : State) (b x : Nat) (v : Staging) (h : SegHeader) (attempt : Nat) : State :=
  let s := (s.setContent x .incomplete).retireExtent x
  let s := s.setBuf b { v with state := .sealing h 2 none }
  s.ask (.badExtent x .writeFailed (some h.seg.serial)) (if attempt = 1 then .sealAgain b else .sealFailed b)

/-- The segment WRITE in flight on a channel completes (R80, R81, R82). -/
def State.completeWrite (s : State) (ch : Channel) (ok : Bool) : State :=
  match s.inFlight ch with
  | some (.segWrite b x) =>
    let s := s.popQueue ch
    match tget s.stager.bufs b with
    | some v =>
      match v.state with
      | .sealing h attempt _ => if ok then s.segWritten b x v h else s.segFailed b x v h attempt
      | _ => s
    | none => s
  | _ => s

/-- The meaning of SEGMENT_WRITE_COMPLETE. -/
def execSegmentWriteComplete (ch : Channel) (ok : Bool) (s : State) : Host.Outcome State Fault Refusal :=
  .next (s.completeWrite ch ok)

/-! ## ERASE_COMPLETE (R84) -/

/-- The ERASE in flight on a channel completes (R84). That the BAD_EXTENT entry of a failed one carries no seal serial is the
model's choice (log entry 50). -/
def State.completeErase (s : State) (ch : Channel) (ok : Bool) : State :=
  match s.inFlight ch with
  | some (.erase x) =>
    let s := s.popQueue ch
    if ok then (s.setContent x .erased).setEntry x Entry.free
    else ((s.setContent x .incomplete).retireExtent x).ask (.badExtent x .eraseFailed none) .plain
  | _ => s

/-- The meaning of ERASE_COMPLETE. -/
def execEraseComplete (ch : Channel) (ok : Bool) (s : State) : Host.Outcome State Fault Refusal :=
  .next (s.completeErase ch ok)

end Sys2Proof.Machine
end

