-- ==== Sys2Proof/Machine/PowerEvents.lean ====
section
/-!
DEFINITION. Power and start-up: POWER_ON, POWER_OFF, JOURNAL_SCAN_READ_COMPLETE and HEADER_READ_COMPLETE.
-/

namespace Sys2Proof.Machine

/-! ## POWER_ON (R168 to R170) -/

/-- Power comes on: every volatile piece at its power-on value, the straps latched, the settings records found damaged added
to those that still are, and the first page READ of the scan requested (R156, R168, R169, R170). -/
def State.powerUp (s : State) (pins : StrapPins) (damaged : List SettingsId) : State :=
  if s.power = .off then
    let settings := { s.settings with damaged := damaged ++ s.settings.damaged }
    ((State.powerOnValues s.pending s.out pins settings s.flash).setPower .starting).request 0 (.pageRead 0 .scan false)
  else s

/-- The meaning of POWER_ON. -/
def execPowerOn (pins : StrapPins) (damaged : List SettingsId) (s : State) : Host.Outcome State Fault Refusal :=
  .next (s.powerUp pins damaged)

/-! ## POWER_OFF (R170) -/

/-- Power is lost: the operations in flight leave what they had reached, and all volatile state is lost (R80, R84, R156,
R170). -/
def State.powerDown (s : State) (cut0 cut1 cut2 cut3 : Cut) : State :=
  let f := s.cutChannel (s.cutChannel (s.cutChannel (s.cutChannel s.flash 0 cut0) 1 cut1) 2 cut2) 3 cut3
  State.powerOnValues s.pending s.out s.straps s.settings f

/-- The meaning of POWER_OFF. -/
def execPowerOff (cut0 cut1 cut2 cut3 : Cut) (s : State) : Host.Outcome State Fault Refusal :=
  .next (if s.power = .off then s else s.powerDown cut0 cut1 cut2 cut3)

/-! ## JOURNAL_SCAN_READ_COMPLETE (R156) -/

/-- The page READ of the start-up scan in flight on channel 0 completes, during the scan; one that fails twice is taken to hold no entries
(R150, R156, R170). -/
def State.completeScanRead (s : State) (outcome : PageOutcome) : State :=
  match s.inFlight 0 with
  | some (.pageRead slot .scan again) =>
    if s.power = .starting ∧ s.boot.stage = .scan then
      let s := s.popQueue 0
      match s.returnedPage slot outcome with
      | some content => s.scanned slot content
      | none =>
        let s := s.countFailure
        if again then s.scanned slot (.page []) else s.request 0 (.pageRead slot .scan true)
    else s
  | _ => s

/-- The meaning of JOURNAL_SCAN_READ_COMPLETE. -/
def execJournalScanReadComplete (outcome : PageOutcome) (s : State) : Host.Outcome State Fault Refusal :=
  .next (s.completeScanRead outcome)

/-! ## HEADER_READ_COMPLETE (R83, R96) -/

/-- What a header read reports: nothing for ERASED, and otherwise a valid header or NO_HEADER (R83). -/
def headerReport : Option ExtentContent → Option (Option SegHeader)
  | some .erased => none
  | some (.segment h check _) => some (if validHeader h check then some h else none)
  | _ => some none

/-- A header read is reported: the rebuild notes it and requests the channel's next, or ends after the last (R96). -/
def State.headerReported (s : State) (ch : Channel) (x : Nat) (report : Option (Option SegHeader)) : State :=
  let s := match report with
    | some h => s.setBoot { s.boot with headers := tput s.boot.headers x h }
    | none => s
  let s := s.nextHeader ch (x + 1)
  if s.boot.headersDone then s.rebuildEnd else s

/-- The header read in flight on a channel completes, during the rebuild (R83, R96). -/
def State.completeHeaderRead (s : State) (ch : Channel) (outcome : ReadOutcome) : State :=
  match s.inFlight ch with
  | some (.headerRead x again) =>
    if s.power = .starting ∧ s.boot.stage = .rebuild then
      let s := s.popQueue ch
      match s.returned x outcome, again with
      | none, false => s.request ch (.headerRead x true)
      | content, _ => s.headerReported ch x (headerReport content)
    else s
  | _ => s

/-- The meaning of HEADER_READ_COMPLETE. -/
def execHeaderReadComplete (ch : Channel) (outcome : ReadOutcome) (s : State) : Host.Outcome State Fault Refusal :=
  .next (s.completeHeaderRead ch outcome)

end Sys2Proof.Machine
end

