-- ==== Sys2Proof/Machine/Dispatch.lean ====
section
/-!
DEFINITION. The meaning of each command, one arm for each.
-/

namespace Sys2Proof.Machine

def exec (i : Instr) (s : State) : Host.Outcome State Fault Refusal :=
  match i with
  | .streamOpen at_ source cls fill mask first widths force samples tolerance => Sys2Proof.Machine.execStreamOpen at_ source cls fill mask first widths force samples tolerance s
  | .streamClose at_ source => Sys2Proof.Machine.execStreamClose at_ source s
  | .fileOpen at_ source fileNo minutes => Sys2Proof.Machine.execFileOpen at_ source fileNo minutes s
  | .fileFeed at_ buf source fileNo => Sys2Proof.Machine.execFileFeed at_ buf source fileNo s
  | .fileResume at_ source fileNo => Sys2Proof.Machine.execFileResume at_ source fileNo s
  | .fileAbandon at_ source fileNo => Sys2Proof.Machine.execFileAbandon at_ source fileNo s
  | .fileAdopt at_ source fileNo => Sys2Proof.Machine.execFileAdopt at_ source fileNo s
  | .streamSnapshot at_ buf source => Sys2Proof.Machine.execStreamSnapshot at_ buf source s
  | .streamMask at_ source mask clearSticky => Sys2Proof.Machine.execStreamMask at_ source mask clearSticky s
  | .widthSet at_ source force tolerance => Sys2Proof.Machine.execWidthSet at_ source force tolerance s
  | .gapRead at_ buf source => Sys2Proof.Machine.execGapRead at_ buf source s
  | .catalogueRead at_ buf start sourceFilter stateFilter => Sys2Proof.Machine.execCatalogueRead at_ buf start sourceFilter stateFilter s
  | .retrieve at_ buf source a b cursor => Sys2Proof.Machine.execRetrieve at_ buf source a b cursor s
  | .projectionSet at_ projection => Sys2Proof.Machine.execProjectionSet at_ projection s
  | .policyPropose at_ cls days => Sys2Proof.Machine.execPolicyPropose at_ cls days s
  | .policyEndorse at_ cls days => Sys2Proof.Machine.execPolicyEndorse at_ cls days s
  | .holdPlace at_ source a b => Sys2Proof.Machine.execHoldPlace at_ source a b s
  | .holdRelease at_ id => Sys2Proof.Machine.execHoldRelease at_ id s
  | .clockSet at_ value => Sys2Proof.Machine.execClockSet at_ value s
  | .verify at_ extent journalPass => Sys2Proof.Machine.execVerify at_ extent journalPass s
  | .scrubSet at_ enable start => Sys2Proof.Machine.execScrubSet at_ enable start s
  | .damagedDiscard at_ extent => Sys2Proof.Machine.execDamagedDiscard at_ extent s
  | .journalRead at_ buf fromSerial => Sys2Proof.Machine.execJournalRead at_ buf fromSerial s
  | .journalRelease at_ serial => Sys2Proof.Machine.execJournalRelease at_ serial s
  | .serviceSet at_ interval => Sys2Proof.Machine.execServiceSet at_ interval s
  | .statusRead at_ buf => Sys2Proof.Machine.execStatusRead at_ buf s
  | .identify at_ buf => Sys2Proof.Machine.execIdentify at_ buf s
  | .jump at_ target => Sys2Proof.Machine.execJump at_ target s
  | .halt at_ => Sys2Proof.Machine.execHalt at_ s
  | .chainStart port chain mask => Sys2Proof.Machine.execChainStart port chain mask s
  | .chainStop port chain mask => Sys2Proof.Machine.execChainStop port chain mask s
  | .portDrain port chain mask => Sys2Proof.Machine.execPortDrain port chain mask s
  | .portOpen port chain mask => Sys2Proof.Machine.execPortOpen port chain mask s
  | .noticeArea port chain mask => Sys2Proof.Machine.execNoticeArea port chain mask s
  | .torn port cmd chain mask => Sys2Proof.Machine.execTorn port cmd chain mask s
  | .registerWrite port reg value => Sys2Proof.Machine.execRegisterWrite port reg value s
  | .descriptorFetch port chain bytes => Sys2Proof.Machine.execDescriptorFetch port chain bytes s
  | .descriptorFetchTimeout port chain => Sys2Proof.Machine.execDescriptorFetchTimeout port chain s
  | .bufferReadTimeout port chain => Sys2Proof.Machine.execBufferReadTimeout port chain s
  | .linkUp port => Sys2Proof.Machine.execLinkUp port s
  | .linkDown port => Sys2Proof.Machine.execLinkDown port s
  | .functionLevelReset port => Sys2Proof.Machine.execFunctionLevelReset port s
  | .functionLevelResetEnd port => Sys2Proof.Machine.execFunctionLevelResetEnd port s
  | .laneGrant => Sys2Proof.Machine.execLaneGrant s
  | .recordPlace port chain bytes => Sys2Proof.Machine.execRecordPlace port chain bytes s
  | .stagingBufferGiven => Sys2Proof.Machine.execStagingBufferGiven s
  | .fileDeadlineExpiry file => Sys2Proof.Machine.execFileDeadlineExpiry file s
  | .powerOn pins damaged => Sys2Proof.Machine.execPowerOn pins damaged s
  | .powerOff cut0 cut1 cut2 cut3 => Sys2Proof.Machine.execPowerOff cut0 cut1 cut2 cut3 s
  | .journalScanReadComplete outcome => Sys2Proof.Machine.execJournalScanReadComplete outcome s
  | .headerReadComplete channel outcome => Sys2Proof.Machine.execHeaderReadComplete channel outcome s
  | .dividerSecond => Sys2Proof.Machine.execDividerSecond s
  | .pulse => Sys2Proof.Machine.execPulse s
  | .pulseWatchdogExpiry => Sys2Proof.Machine.execPulseWatchdogExpiry s
  | .policyCommit => Sys2Proof.Machine.execPolicyCommit s
  | .scanVisit => Sys2Proof.Machine.execScanVisit s
  | .sealAllocation => Sys2Proof.Machine.execSealAllocation s
  | .queuePlaceGiven channel => Sys2Proof.Machine.execQueuePlaceGiven channel s
  | .segmentWriteComplete channel ok => Sys2Proof.Machine.execSegmentWriteComplete channel ok s
  | .segmentReadComplete channel outcome => Sys2Proof.Machine.execSegmentReadComplete channel outcome s
  | .eraseComplete channel ok => Sys2Proof.Machine.execEraseComplete channel ok s
  | .journalPageWriteComplete ok => Sys2Proof.Machine.execJournalPageWriteComplete ok s
  | .pageTimerExpiry => Sys2Proof.Machine.execPageTimerExpiry s
  | .journalEraseComplete ok => Sys2Proof.Machine.execJournalEraseComplete ok s
  | .journalPageReadComplete outcome => Sys2Proof.Machine.execJournalPageReadComplete outcome s
  | .appendWaitServed => Sys2Proof.Machine.execAppendWaitServed s
  | .pinGrant extent => Sys2Proof.Machine.execPinGrant extent s
  | .decodedRecord lane => Sys2Proof.Machine.execDecodedRecord lane s
  | .damageReport => Sys2Proof.Machine.execDamageReport s
  | .scrubConsider => Sys2Proof.Machine.execScrubConsider s
  | .errorCompletion port chain => Sys2Proof.Machine.execErrorCompletion port chain s

end Sys2Proof.Machine
end

