-- ==== Sys2Proof/Machine/Step.lean ====
section
/-!
DEFINITION. The step: the command at the front of the queue runs; on an empty queue the part goes on with the catalogue
walk in progress, or idles.
-/

namespace Sys2Proof.Machine

/-- One step: the front command taken from the queue runs over the queue's rest; with nothing waiting the part does what it
does of itself, which changes nothing where no chain walks the catalogue (log entry 13). -/
def step (s : State) : Host.Outcome State Fault Refusal :=
  match s.pending with
  | [] => .next s.tick
  | c :: rest => exec c { s with pending := rest }

/-- The state with the command that a table word spells at the front of its queue; unchanged where the word spells none. -/
def State.withFetchWord (s : State) (nbits w : Nat) : State :=
  match decodeTableWord nbits w with
  | some c => { s with pending := c :: s.pending }
  | none => s

end Sys2Proof.Machine
end

