-- ==== Sys2Proof/Safety.lean ====
section
/-!
DEFINITION. The terms in which claims about the part are made: what a step leaves unchanged, how a descriptor arrives and
ends, what a journal holds, and the laws that a run keeps.
-/

namespace Sys2Proof.Machine

/-! ## Frames -/

/-- The fields of the state. -/
inductive Part where
  | pending | out | power | straps | settings | flash | streams | files | recons | stager | store | catalogue | clock
  | retention | scanner | audit | journal | ports | arbiter | boot
  deriving DecidableEq, Repr

/-- Whether two states agree in a field. -/
def Part.same : Part → State → State → Prop
  | .pending, s, t => t.pending = s.pending
  | .out, s, t => t.out = s.out
  | .power, s, t => t.power = s.power
  | .straps, s, t => t.straps = s.straps
  | .settings, s, t => t.settings = s.settings
  | .flash, s, t => t.flash = s.flash
  | .streams, s, t => t.streams = s.streams
  | .files, s, t => t.files = s.files
  | .recons, s, t => t.recons = s.recons
  | .stager, s, t => t.stager = s.stager
  | .store, s, t => t.store = s.store
  | .catalogue, s, t => t.catalogue = s.catalogue
  | .clock, s, t => t.clock = s.clock
  | .retention, s, t => t.retention = s.retention
  | .scanner, s, t => t.scanner = s.scanner
  | .audit, s, t => t.audit = s.audit
  | .journal, s, t => t.journal = s.journal
  | .ports, s, t => t.ports = s.ports
  | .arbiter, s, t => t.arbiter = s.arbiter
  | .boot, s, t => t.boot = s.boot

/-- Every field of the state but those listed is unchanged. -/
def State.sameBut (s : State) (changed : List Part) (t : State) : Prop := ∀ p : Part, p ∉ changed → p.same s t

/-- A table is unchanged but at one number. -/
def sameAway {α : Type} (n : Nat) (t u : Table α) : Prop := ∀ k, k ≠ n → tget u k = tget t k

/-! ## Descriptors -/

/-- A descriptor reaches its command: its chain is fetching on an OPEN port whose role set admits it (R159, R160). -/
structure State.arrives (s : State) (a : At) (role : Role) : Prop where
  fetching : s.fetching (refOf a) = true
  opened : (s.port a.port).state = .opened
  admitted : role.admits (s.roles a.port) = true

/-- The address of the descriptor a chain is fetching (R159). -/
def State.fetchAddress (s : State) (a : At) : Nat := (s.chain (refOf a)).next

/-- The slot write and the MSI of a CHAIN notice of a port, at a clock value (R164). -/
def chainNotice (q : Port) (a : At) (k : NoticeKind) (addr time : Nat) : List Output :=
  match q.area with
  | some area =>
    if area.chain then
      [.notice a.port area.addr .chain k (.chain a.chain addr) time ((q.chainNotices + 1) % 2 ^ 32), .msi a.port .chain]
    else []
  | none => []

/-- What a descriptor's end posts: the completion word, and the "descriptor done" notice where NOTIFY is set (R160,
R164). -/
def State.endPosts (s : State) (a : At) (w : Completion) (time : Nat) : List Output :=
  .completion a.port (s.fetchAddress a + 32) w
    :: (if a.notify then chainNotice (s.port a.port) a .descriptorDone (s.fetchAddress a) time else [])

/-- The ports when a descriptor of an OPEN port has ended and its chain goes on at an address (R159, R160, R164). -/
def State.portsAfter (s : State) (a : At) (next : Nat) : Vector Port 4 :=
  vmod s.ports a.port (fun q =>
    { (if a.notify then q.countNotice .chain else q) with
      chains := vset q.chains a.chain { state := .running, next, desc := none } })

/-- A descriptor ends with a completion and its chain goes on to the next descriptor, after the part has posted some writes
of its own; `s` is the state the descriptor reached (R160, steps 5 and 6). The next address does not wrap, by the model's choice
(log entry 83). -/
structure State.finishes (s : State) (a : At) (posted : List Output) (w : Completion) (t : State) : Prop where
  ports : t.ports = s.portsAfter a (s.fetchAddress a + 64)
  out : t.out = s.out ++ posted ++ s.endPosts a w t.clock.value

/-- A descriptor is refused: its completion carries the status and count 0, and nothing but chains and notices changes
(R160). -/
def State.refusedWith (s : State) (a : At) (status : Status) (t : State) : Prop :=
  s.sameBut [.ports, .out] t
    ∧ ∃ more, t.out = s.out ++ .completion a.port (s.fetchAddress a + 32) (Completion.plain status 0) :: more

/-- A descriptor is taken by a job that goes on: no completion is posted, its chain holds it, and the chain's next address
has moved on (R159, R160). -/
structure State.holdsJob (s : State) (a : At) (st : ChainState) (j : Job) (t : State) : Prop where
  chain : t.chain (refOf a) =
    { state := st, next := s.fetchAddress a + 64,
      desc := some { addr := s.fetchAddress a, notify := a.notify, haltOnError := a.haltOnError, job := some j } }
  out : t.out = s.out

/-- What the spec says of a descriptor command before its own effect: where it stands, its command code (R171), the role it
requires (12.7) and the buffer it moves, if it moves one (R160). -/
structure Described where
  place : At
  code : Nat
  role : Role
  buf : Option Buf
  deriving DecidableEq, Repr

/-- The descriptor commands, each with its code of R171 and its role of 12.7. -/
def described : Instr → Option Described
  | .streamOpen a _ _ _ _ _ _ _ _ _ => some ⟨a, 0x01, .intake, none⟩
  | .streamClose a _ => some ⟨a, 0x02, .intake, none⟩
  | .fileOpen a _ _ _ => some ⟨a, 0x03, .intake, none⟩
  | .fileFeed a buf _ _ => some ⟨a, 0x04, .intake, some buf⟩
  | .fileResume a _ _ => some ⟨a, 0x05, .intake, none⟩
  | .fileAbandon a _ _ => some ⟨a, 0x06, .intake, none⟩
  | .fileAdopt a _ _ => some ⟨a, 0x07, .intake, none⟩
  | .streamSnapshot a buf _ => some ⟨a, 0x08, .intake, some buf⟩
  | .streamMask a _ _ _ => some ⟨a, 0x09, .intake, none⟩
  | .widthSet a _ _ _ => some ⟨a, 0x0A, .intake, none⟩
  | .gapRead a buf _ => some ⟨a, 0x10, .retrievalOrAudit, some buf⟩
  | .catalogueRead a buf _ _ _ => some ⟨a, 0x11, .retrievalOrAudit, some buf⟩
  | .retrieve a buf _ _ _ _ => some ⟨a, 0x12, .retrieval, some buf⟩
  | .projectionSet a _ => some ⟨a, 0x13, .retrieval, none⟩
  | .policyPropose a _ _ => some ⟨a, 0x14, .retrieval, none⟩
  | .policyEndorse a _ _ => some ⟨a, 0x20, .audit, none⟩
  | .holdPlace a _ _ _ => some ⟨a, 0x21, .audit, none⟩
  | .holdRelease a _ => some ⟨a, 0x22, .audit, none⟩
  | .clockSet a _ => some ⟨a, 0x23, .audit, none⟩
  | .verify a _ _ => some ⟨a, 0x24, .audit, none⟩
  | .scrubSet a _ _ => some ⟨a, 0x25, .audit, none⟩
  | .damagedDiscard a _ => some ⟨a, 0x26, .audit, none⟩
  | .journalRead a buf _ => some ⟨a, 0x27, .audit, some buf⟩
  | .journalRelease a _ => some ⟨a, 0x28, .audit, none⟩
  | .serviceSet a _ => some ⟨a, 0x30, .anyRole, none⟩
  | .statusRead a buf => some ⟨a, 0x31, .anyPort, some buf⟩
  | .identify a buf => some ⟨a, 0x32, .anyPort, some buf⟩
  | .jump a _ => some ⟨a, 0x3E, .anyPort, none⟩
  | .halt a => some ⟨a, 0x3F, .anyPort, none⟩
  | _ => none

/-- A place written into a buffer (12.3). -/
def placeAt (port : PortId) (addr i : Nat) (p : Place) : Output := .place port (addr + 64 * i) p

/-- Places written into a buffer from place 0 on. -/
def placesAt (port : PortId) (addr : Nat) (ps : List Place) : List Output :=
  ps.zipIdx.map (fun p => placeAt port addr p.2 p.1)

/-! ## The Journal -/

/-- The entries of the page buffers in a state, the lower buffer first. -/
def Journal.entriesIn (j : Journal) (st : PageState) : List JEntry :=
  j.bufs.toList.flatMap (fun b => if b.state = st then b.entries else [])

/-- The entries of the ready buffers, the older first (R149). -/
def Journal.readyEntries (j : Journal) : List JEntry :=
  match j.readyBuf with
  | some i =>
    j.bufs[i.val].entries
      ++ (j.bufs.toList.zipIdx.flatMap (fun p => if p.1.state = .ready ∧ p.2 ≠ i.val then p.1.entries else []))
  | none => []

/-- The entries appended and not yet durable, in the order in which they will be written (R149). -/
def Journal.undurable (j : Journal) : List JEntry :=
  j.entriesIn .writing ++ j.readyEntries ++ j.entriesIn .gathering ++ j.pending

/-- The Journal holds an entry that is not yet durable. -/
def Journal.awaits (j : Journal) (e : JEntry) : Prop := e ∈ j.undurable

/-- One entry has been appended: it took the next serial and the clock value as its archive time (R148). -/
def State.appended (s : State) (body : JBody) (t : State) : Prop :=
  t.journal.next = s.journal.next + 1 ∧ t.journal.awaits { serial := s.journal.next, time := t.clock.value, body }

/-- Page buffers as every append leaves them: no full buffer gathers, and nothing is pending while a buffer gathers or is
free (R149). -/
def Journal.settled (j : Journal) : Prop :=
  (∀ b ∈ j.bufs.toList, b.state = .gathering → b.entries.length < pageEntries)
    ∧ (j.pending ≠ [] → ∀ b ∈ j.bufs.toList, b.state ≠ .gathering ∧ b.state ≠ .free)

/-- A single entry has been appended, or waits on the append wait list (R152). -/
def State.asked (t : State) (body : JBody) (note : AppendNote) : Prop :=
  (∃ n, t.journal.awaits { serial := n, time := t.clock.value, body }) ∨ .entry body note ∈ t.journal.wait

/-- A single entry has been asked for: it is appended at once where the Journal can, and otherwise stands at the tail of the
append wait list with what goes with it (R152). -/
structure State.appendsOrWaits (s : State) (body : JBody) (note : AppendNote) (t : State) : Prop where
  appended : s.canAppend 1 = true → s.appended body t
  waits : s.canAppend 1 = false →
    t.journal.next = s.journal.next ∧ t.journal.wait = s.journal.wait ++ [.entry body note]

/-! ## The end of a segment's read and decode -/

/-- How the decode of a segment ends with its next record: whole with its summary, where the body is consumed by the
header's number of records, or with a failure and the record index it is found at; none where the body goes on (R67,
R68). -/
def endOf (h : SegHeader) (d : Decode) : Option SegEnd :=
  match decodeNext h d with
  | none => some (.failed (.decodeFailure d.index))
  | some (_, next) =>
    if next.rest ≠ [] then none
    else if next.index = h.seg.count then some (.whole next.codec.summary)
    else some (.failed (.decodeFailure next.index))

/-- What a verification finds at such an end: the eight comparisons with the entry's fields, true for DIFFERENT, and the
failure, which makes all of them DIFFERENT (R140). -/
structure judged (v : SegFields) (e : SegEnd) (outcomes : FieldOutcomes) (failure : Option SegFailure) : Prop where
  whole : ∀ m, e = .whole m → failure = none ∧ outcomes =
    { count := decide (m.count ≠ v.count), crc := decide (crcFinish m.crc ≠ v.crc),
      durSum := decide (m.durSum ≠ v.durSum), unitsSum := decide (m.unitsSum ≠ v.unitsSum),
      minDay := decide (m.minDay ≠ some v.minDay), maxDay := decide (m.maxDay ≠ some v.maxDay),
      firstSeq := decide (m.firstSeq ≠ some v.firstSeq), lastSeq := decide (m.lastSeq ≠ some v.lastSeq) }
  failed : ∀ f, e = .failed f → failure = some f ∧ outcomes = ⟨true, true, true, true, true, true, true, true⟩

/-- Every lane that a job held is free, and the others are as they were (R165). -/
def State.lanesFreed (s : State) (r : JobRef) (t : State) : Prop :=
  ∀ l : LaneNo, t.arbiter.lanes[l.val]
    = if s.arbiter.lanes[l.val] = some r then none else s.arbiter.lanes[l.val]

/-- The granted requests of an entry but those of a job. -/
def Entry.grantedBut (e : Entry) (r : JobRef) : List ChainRef := e.granted.filter (fun d => decide (JobRef.chain d ≠ r))

/-- A job's pin on an entry is released: the oldest waiting request is granted it, or the count falls; an EXPIRY_WAIT entry
whose count reaches 0 is retested (R93, R94, R121). -/
structure State.pinReleased (s : State) (x : Nat) (r : JobRef) (t : State) : Prop where
  granted : ∀ c rest, (s.entry x).pinWait = c :: rest →
    t.entry x = { s.entry x with pinWait := rest, granted := (s.entry x).grantedBut r ++ [c] }
  fallen : (s.entry x).pinWait = [] → (s.entry x).state ≠ .expiryWait ∨ 1 < (s.entry x).pins →
    t.entry x = { s.entry x with pins := (s.entry x).pins - 1, granted := (s.entry x).grantedBut r }
  retested : ∀ v, (s.entry x).pinWait = [] → (s.entry x).state = .expiryWait → (s.entry x).pins ≤ 1 →
    (s.entry x).seg = some v →
    let e := { s.entry x with pins := 0, granted := (s.entry x).grantedBut r }
    let due := v.maxDay + s.activeDays v.cls < s.clock.value / 86400
    (¬ due → t.entry x = { e with state := .sealed })
    ∧ (due → s.journal.low = true → t.entry x = e)
    ∧ (due → s.journal.low = false →
        t.entry x = { e with state := .retiring, retireJournal := some s.journal.next }
        ∧ s.appended (.expired x v.source v.serial v.cls (s.activeDays v.cls) (v.maxDay + s.activeDays v.cls) s.today) t)
  others : ∀ y, y ≠ x → t.entry y = s.entry y

/-- A retrieval job whose segment has ended has given its lane back, reported a failure and counted the segment; it goes on
to a segment of a greater serial, or completes DONE, as it does where no segment it wants lies ahead (R126, R128 to R131). -/
structure State.retrievalEnds (s : State) (c : ChainRef) (r : Retrieval) (g : SegJob) (e : SegEnd) (filled : Nat)
    (t : State) : Prop where
  lanes : s.lanesFreed (.chain c) t
  whole : ∀ m, e = .whole m → t.audit = s.audit
  failed : ∀ f, e = .failed f → t.audit = { s.audit with reports := s.audit.reports ++ [⟨g.extent, g.serial, f⟩] }
  goesOn : t.job c = none ∨ ∃ r' g', t.job c = some (.retrieval r') ∧ r'.current = some g' ∧ r'.filled = filled
    ∧ (∀ m, e = .whole m → r'.whole = r.whole + 1 ∧ r'.failed = r.failed)
    ∧ (∀ f, e = .failed f → r'.whole = r.whole ∧ r'.failed = r.failed + 1)
    ∧ ∀ p, r.position = some p → p < g'.serial
  done : (∀ p ∈ s.catalogue, ∀ v, p.2.seg = some v → r.source = none ∨ r.source = some v.source → v.minDay ≤ r.b →
      r.a ≤ v.maxDay → ∃ n, r.position = some n ∧ v.serial ≤ n) →
    t.job c = none ∧ s.pinReleased g.extent (.chain c) t
    ∧ ∀ d, (s.chain c).desc = some d → ∀ whole failed,
        (∀ m, e = .whole m → whole = r.whole + 1 ∧ failed = r.failed) →
        (∀ f, e = .failed f → whole = r.whole ∧ failed = r.failed + 1) →
        .completion c.port (d.addr + 32)
          { status := .done, flags := { Flags.none with cursorGone := r.gone }, mismatch := false, stateAfter := none,
            countDone := filled,
            results := .retrieval whole r.passedOver failed r.delivered none s.settings.lastSeal } ∈ t.out
  frame : s.sameBut [.out, .catalogue, .store, .audit, .scanner, .journal, .files, .ports, .arbiter] t

/-- The state that a verification leaves its entry in: SEALED where one in DAMAGED passes, DAMAGED where one fails (R141). -/
def stateVerified (before : EntryState) (passes : Bool) : EntryState :=
  if passes then (if before = .damaged then .sealed else before) else .damaged

/-- Whether the release of a verification's pin retests its entry: one in EXPIRY_WAIT that passes and is left without pins
(R121). -/
def State.retestsAfter (s : State) (x : Nat) (passes : Bool) : Prop :=
  (s.entry x).pinWait = [] ∧ stateVerified (s.entry x).state passes = .expiryWait ∧ (s.entry x).pins ≤ 1

/-- A verification's outcome stands in its entry, whose pin is released: a restored entry is SEALED, one that fails is
DAMAGED, its report pending until its DAMAGED entry is appended, and an EXPIRY_WAIT entry left without pins is retested
(R94, R121, R141). -/
structure State.entryVerified (s : State) (x : Nat) (r : JobRef) (passes : Bool) (t : State) : Prop where
  entry : let e := s.entry x
    let after := { e with
      state := stateVerified e.state passes, verify := some (s.clock.value / 86400, passes),
      reports := if passes = false ∧ e.state ≠ EntryState.damaged ∧ s.canAppend 1 = false then e.reports + 1 else e.reports }
    (∀ c rest, e.pinWait = c :: rest → t.entry x = { after with pinWait := rest, granted := e.grantedBut r ++ [c] })
    ∧ (e.pinWait = [] → after.state ≠ .expiryWait ∨ 1 < e.pins →
        t.entry x = { after with pins := e.pins - 1, granted := e.grantedBut r })
    ∧ (s.retestsAfter x passes → ∀ v, e.seg = some v →
        let last := { after with pins := 0, granted := e.grantedBut r }
        let due := v.maxDay + s.activeDays v.cls < s.clock.value / 86400
        (¬ due → t.entry x = { last with state := .sealed })
        ∧ (due → t.entry x = last ∨ ∃ n, t.entry x = { last with state := .retiring, retireJournal := some n }
            ∧ t.journal.awaits { serial := n, time := t.clock.value,
                                 body := .expired x v.source v.serial v.cls (s.activeDays v.cls)
                                   (v.maxDay + s.activeDays v.cls) s.today }))
  others : ∀ y, y ≠ x → t.entry y = s.entry y

/-- What a verification's outcome writes to the Journal: a DAMAGED entry for one found damaged, of which every port is
told; a VERIFIED entry for one restored, or where a pass is to be journaled; and nothing otherwise (R141). -/
structure State.verdictJournaled (s : State) (x : Nat) (v : SegFields) (finder : Finder) (port : Option PortId)
    (journalPass : Bool) (outcomes : FieldOutcomes) (failure : Option SegFailure) (passes : Bool) (t : State) : Prop where
  damaged : passes = false → (s.entry x).state ≠ .damaged →
    s.appendsOrWaits (.damaged x v.source v.serial finder outcomes failure port) (.reported x) t
    ∧ ∀ p area, (s.port p).area = some area → area.archive = true →
        ∃ n, .notice p (area.addr + 128) .archive .damagedFound (.segment x v.serial) s.clock.value n ∈ t.out
  restored : passes = true → (s.entry x).state = .damaged →
    s.appendsOrWaits (.verified x v.serial finder true) .plain t
  passed : passes = true → (s.entry x).state ≠ .damaged → journalPass = true →
    s.appendsOrWaits (.verified x v.serial finder false) .plain t
  silent : passes = true ∧ (s.entry x).state ≠ .damaged ∧ journalPass = false
      ∨ passes = false ∧ (s.entry x).state = .damaged → t.journal = s.journal

/-- A VERIFY whose segment has ended: the outcome stands in the entry and the Journal, the pin and the lane are given back,
and the descriptor completes DONE with the outcome and the state after it (R94, R139 to R141). -/
structure State.verifyEnds (s : State) (c : ChainRef) (v : Verify) (f : SegFields) (e : SegEnd) (t : State) : Prop where
  lanes : s.lanesFreed (.chain c) t
  job : t.job c = none
  outcome : ∃ outcomes failure passes, judged f e outcomes failure
    ∧ passes = decide (outcomes = ⟨false, false, false, false, false, false, false, false⟩)
    ∧ s.entryVerified v.seg.extent (.chain c) passes t
    ∧ (¬ s.retestsAfter v.seg.extent passes →
        s.verdictJournaled v.seg.extent f .verify (some c.port) v.journalPass outcomes failure passes t)
    ∧ (s.retestsAfter v.seg.extent passes → v.journalPass = true →
        t.asked (.verified v.seg.extent f.serial .verify false) .plain)
    ∧ ∀ d, (s.chain c).desc = some d → .completion c.port (d.addr + 32)
        { status := .done, flags := Flags.none, mismatch := false,
          stateAfter := some (.entry (stateVerified (s.entry v.seg.extent).state passes)), countDone := 0,
          results := .verify outcomes failure (passes && decide ((s.entry v.seg.extent).state = .damaged)) } ∈ t.out
  frame : s.sameBut [.out, .catalogue, .store, .scanner, .journal, .files, .ports, .arbiter] t

/-- A scrub verification whose segment has ended: the outcome stands in the entry and the Journal, the pin and the lane are
given back, the counts take it, and the pointer moves on; where it comes back to the pass's start a SCRUB_PASS entry is
asked for, and the counts begin anew (R94, R140, R141, R144, R145). -/
structure State.scrubEnds (s : State) (g : SegJob) (f : SegFields) (e : SegEnd) (t : State) : Prop where
  lanes : s.lanesFreed .scrub t
  outcome : ∃ outcomes failure passes, judged f e outcomes failure
    ∧ passes = decide (outcomes = ⟨false, false, false, false, false, false, false, false⟩)
    ∧ s.entryVerified g.extent .scrub passes t
    ∧ let restored := passes && decide ((s.entry g.extent).state = .damaged)
      let k := s.audit.counts
      let counts : PassCounts :=
        { considered := k.considered + 1, verified := k.verified + 1, passed := k.passed + (if passes then 1 else 0),
          damaged := k.damaged + (if passes then 0 else 1), restored := k.restored + (if restored then 1 else 0),
          busy := k.busy }
      let next := (s.audit.pointer + 1) % 131072
      (next ≠ s.audit.passStart → t.audit = { s.audit with scrub := none, pointer := next, counts }
        ∧ (¬ s.retestsAfter g.extent passes →
            s.verdictJournaled g.extent f .scrub none false outcomes failure passes t))
      ∧ (next = s.audit.passStart →
          t.audit = { s.audit with scrub := none, pointer := next, counts := ⟨0, 0, 0, 0, 0, 0⟩ }
          ∧ t.asked (.scrubPass s.audit.passStart counts) .plain)
  frame : s.sameBut [.out, .catalogue, .store, .audit, .scanner, .journal, .ports, .arbiter] t

/-! ## Start-up -/

/-- Every volatile piece at the value that power-on gives it, the channel queues aside (R1, R4, R69, R76, R79, R87, R99,
R104, R116, R132, R142, R143, R149, R152, R157, R159, R165). The values of the clock before the scan's end are the model's
(log entry 1), as is the catalogue before the rebuild (log entry 2). -/
structure State.atPowerOn (t : State) : Prop where
  intake : t.streams = [] ∧ t.files = [] ∧ t.recons = [] ∧ t.stager = { bufs := [], wait := [], seals := [] }
  store : t.store.placeWait = [] ∧ t.store.full = false ∧ t.catalogue = []
  clock : t.clock = { value := 0, state := .internal, watchdog := 0, commitPending := false, commitDays := 0 }
  retention : t.retention.lastHoldId = 0 ∧ ∀ i : Fin 8, t.retention.staged[i.val] = .none
  scanner : t.scanner.state = .idle ∧ t.scanner.rescan = false ∧ t.scanner.daysPending = 0
  audit : t.audit.reports = [] ∧ t.audit.enable = false ∧ t.audit.pointer = 0 ∧ t.audit.scrub = none
    ∧ t.audit.counts = ⟨0, 0, 0, 0, 0, 0⟩
  journal : t.journal.wait = [] ∧ t.journal.reserved = 0 ∧ t.journal.pending = [] ∧ t.journal.failures = 0
    ∧ ∀ i : Fin 2, t.journal.bufs[i.val] = ⟨.free, []⟩
  ports : ∀ p : PortId, (t.port p).state = .down ∧ (t.port p).area = none ∧ (t.port p).interval = 16
    ∧ (t.port p).tag = 0 ∧ (t.port p).active = Projection.everything ∧ (t.port p).pendingProj = Projection.everything
    ∧ ∀ c : ChainNo, (t.port p).chains[c.val] = Chain.idle
  arbiter : t.arbiter.g = 0 ∧ t.arbiter.scrubWaits = false ∧ (∀ l : LaneNo, t.arbiter.lanes[l.val] = none)
    ∧ ∀ p : PortId, t.arbiter.waiting[p.val] = []
  boot : t.boot = Boot.empty

/-- What the scan has found when the READ of a slot has been taken (R156). -/
def State.scannedWith (s : State) (slot : Nat) (content : SlotContent) : Table (List StoredEntry) :=
  match content with
  | .erased => s.boot.scanned
  | .page entries => tput s.boot.scanned slot entries

/-- What the header reads have found when one has returned an extent's contents (R83). -/
def State.headersWith (s : State) (x : Nat) (content : ExtentContent) : Table (Option SegHeader) :=
  match content with
  | .erased => s.boot.headers
  | .segment h check _ => tput s.boot.headers x (if validHeader h check then some h else none)
  | .incomplete => tput s.boot.headers x none

/-- An entry stands in a scanned slot, its entry check holding (R156). -/
def foundAt (scanned : Table (List StoredEntry)) (slot : Nat) (e : JEntry) : Prop :=
  ∃ page, tget scanned slot = some page ∧ ⟨e, true⟩ ∈ page

/-- The entries found that carry one serial are copies of one entry. -/
def copiesAgree (scanned : Table (List StoredEntry)) : Prop :=
  ∀ i j e f, foundAt scanned i e → foundAt scanned j f → e.serial = f.serial → e = f

/-- The newest found serial: the greatest found, or the release serial if that is greater or nothing is found (R156, step
1). -/
structure newestFound (scanned : Table (List StoredEntry)) (release n : Nat) : Prop where
  released : release ≤ n
  greatest : ∀ slot e, foundAt scanned slot e → e.serial ≤ n
  met : n = release ∨ ∃ slot e, foundAt scanned slot e ∧ e.serial = n

/-- The slot that alone holds the greatest serial found (R156). -/
structure newestWritten (scanned : Table (List StoredEntry)) (w : Nat) (e : JEntry) : Prop where
  found : foundAt scanned w e
  greatest : ∀ slot f, foundAt scanned slot f → f.serial ≤ e.serial
  alone : ∀ slot f, foundAt scanned slot f → f.serial = e.serial → slot = w

/-- What the Journal is after its scan: the newest found serial is the newest durable one, serials go on from there, and the
write position is the first slot after the newest written one, within its extent, that reads erased, or slot 0 of the next
extent (R156, steps 1, 4 and 5). -/
structure State.journalFound (t : State) (scanned : Table (List StoredEntry)) : Prop where
  durable : newestFound scanned t.settings.release t.journal.durable
  next : t.journal.durable < t.journal.next
  none : (∀ slot e, ¬ foundAt scanned slot e) → t.journal.writePos = 0 ∧ t.journal.lastSlot = Option.none
  last : ∀ w e, newestWritten scanned w e → t.journal.lastSlot = some w
  within : ∀ w e k, newestWritten scanned w e → w < k → k / 8192 = w / 8192 → tget scanned k = Option.none →
    (∀ j, w < j → j < k → tget scanned j ≠ Option.none) → t.journal.writePos = k
  beyond : ∀ w e, newestWritten scanned w e →
    (∀ k, w < k → k / 8192 = w / 8192 → tget scanned k ≠ Option.none) →
    t.journal.writePos = (w / 8192 + 1) * 8192 % 32768

/-- A policy row as start-up leaves it: 0 days where its record failed its check, the floor's days where it lay below the
floor, and otherwise as it was; a row changed has its POLICY_RESTORED_SAFE entry (R108). -/
def State.rowRestored (s : State) (i : Fin 8) (t : State) : Prop :=
  let days := s.settings.rows[i.val]
  let floor := if s.straps.floor = 0 then 1 else s.straps.floor
  let below := (if days = 0 then 4096 else days) < floor
  (SettingsId.row i ∈ s.settings.damaged →
      t.settings.rows[i.val] = 0 ∧ t.asked (.policyRestored i.val 0 .checkFailed) .plain)
  ∧ (SettingsId.row i ∉ s.settings.damaged → below →
      t.settings.rows[i.val] = floor ∧ t.asked (.policyRestored i.val floor .floor) .plain)
  ∧ (SettingsId.row i ∉ s.settings.damaged → ¬ below → t.settings.rows[i.val] = days)

/-- The hold slots as start-up leaves them: an undamaged one as it was; a damaged one an unknown hold of every source and
day, placed today, that keeps the id its record reads where that is valid and no other slot has it (R110, R115). -/
structure State.holdsRestored (s t : State) : Prop where
  kept : ∀ slot, (∀ k id, SettingsId.hold k id ∈ s.settings.damaged → k.val ≠ slot) →
    tget t.settings.holds slot = tget s.settings.holds slot
  unknown : ∀ k id, SettingsId.hold k id ∈ s.settings.damaged → ∃ h, tget t.settings.holds k.val = some h
    ∧ h = { id := h.id, source := none, a := 0, b := 49710, placedDay := t.today, unknown := true }
    ∧ 1 ≤ h.id ∧ h.id ≤ 65535
    ∧ (1 ≤ id → id ≤ 65535 → (∀ j id', SettingsId.hold j id' ∈ s.settings.damaged → (j = k ↔ id' = id)) →
        (∀ p ∈ s.settings.holds, p.2.id = id → p.1 = k.val) → h.id = id)
  last : (∀ k id, SettingsId.hold k id ∉ s.settings.damaged) →
    (∀ p ∈ s.settings.holds, p.2.id ≤ t.retention.lastHoldId)
    ∧ (t.retention.lastHoldId = 0 ∨ ∃ p ∈ s.settings.holds, p.2.id = t.retention.lastHoldId)

/-- The end of the journal scan: the Journal as the scan found it, every record of Settings Memory that can be restored by
then restored, the clock set, and the catalogue showing the BAD extents (R85, R96, R103, R108, R115, R156, R169, R170). -/
structure State.scanEnds (s : State) (scanned : Table (List StoredEntry)) (t : State) : Prop where
  journal : t.journalFound scanned
  next : (∀ i : Fin 8, SettingsId.row i ∉ s.settings.damaged) →
    (∀ i : Fin 8, floorRead s.straps.floor ≤ daysRead s.settings.rows[i.val]) → t.journal.next = t.journal.durable + 1
  release : SettingsId.release ∉ s.settings.damaged → t.settings.release = s.settings.release
  clock : t.clock.value = t.settings.savedDay * 86400
  savedDay : SettingsId.savedDay ∉ s.settings.damaged → t.settings.savedDay = s.settings.savedDay
  dayFound : SettingsId.savedDay ∈ s.settings.damaged →
    (∀ slot e, foundAt scanned slot e → e.time / 86400 ≤ t.settings.savedDay)
    ∧ (t.settings.savedDay = 0 ∨ ∃ slot e, foundAt scanned slot e ∧ e.time / 86400 = t.settings.savedDay)
  rows : ∀ i, s.rowRestored i t
  holds : s.holdsRestored t
  bad : SettingsId.badTable ∉ s.settings.damaged → t.settings.bad = s.settings.bad
  badFound : SettingsId.badTable ∈ s.settings.damaged → ∀ x, x ∈ t.settings.bad ↔
    ∃ slot e cause serial, foundAt scanned slot e ∧ e.body = .badExtent x cause serial ∧ t.settings.release < e.serial
  damaged : ∀ d, d ∈ t.settings.damaged ↔ d ∈ s.settings.damaged ∧ (d = .sealCounter ∨ d = .lastSeal)
  catalogue : ∀ x, reservedExtents ≤ x →
    t.entry x = if x ∈ t.settings.bad then { Entry.free with state := .bad } else s.entry x
  stage : t.power = .starting ∧ t.boot.stage = .rebuild ∧ t.boot.scanned = scanned

/-- A valid header keeps its segment: of the extents whose headers carry its serial its own is the lowest (R96). -/
def keepsSegment (headers : Table (Option SegHeader)) (x : Nat) (h : SegHeader) : Prop :=
  tget headers x = some (some h) ∧ ∀ y k, y < x → tget headers y = some (some k) → k.seg.serial ≠ h.seg.serial

/-- A seal had been made durable: its serial lies at or below L; where L's record failed, an unreleased SEALED or
RECOVERED_SEAL entry found by the scan carries it (R97). -/
def State.wasDurable (s : State) (v : SegFields) : Prop :=
  (SettingsId.lastSeal ∉ s.settings.damaged → v.serial ≤ s.settings.lastSeal)
  ∧ (SettingsId.lastSeal ∈ s.settings.damaged →
      ∃ slot e f, foundAt s.boot.scanned slot e ∧ (e.body = .sealed f ∨ e.body = .recoveredSeal f)
        ∧ s.settings.release < e.serial ∧ f.serial = v.serial)

/-- The end of the rebuild: the segments whose seals were durable SEALED with their hold counts, the other kept ones
JOURNALING with their RECOVERED_SEAL entries asked for, every extent with incomplete contents ERASING with its ERASE
requested, and the part READY (R72, R90, R91, R96 to R98, R156, R169, R170). -/
structure State.rebuildEnds (s : State) (headers : Table (Option SegHeader)) (t : State) : Prop where
  untouched : ∀ x, tget headers x = none → t.entry x = s.entry x
  sealed : ∀ x h, keepsSegment headers x h → s.wasDurable h.seg →
    t.entry x = { Entry.free with state := .sealed, seg := some h.seg, holds := s.coverCount h.seg }
  recovered : ∀ x h, keepsSegment headers x h → ¬ s.wasDurable h.seg →
    (t.entry x).state = .journaling ∧ (t.entry x).seg = some h.seg
    ∧ t.asked (.recoveredSeal { extent := x, source := h.seg.source, cls := h.seg.cls, fileNo := h.seg.fileNo,
                                serial := h.seg.serial, count := h.seg.count, minDay := h.seg.minDay,
                                maxDay := h.seg.maxDay }) (.sealEntry x)
    ∧ t.settings.lastSeal ≤ h.seg.serial - 1
  incomplete : ∀ x r, tget headers x = some r → (∀ h, ¬ keepsSegment headers x h) →
    t.entry x = { Entry.free with state := .erasing }
    ∧ (.erase x ∈ t.queue (channelOf x) ∨ .op (channelOf x) (.erase x) ∈ t.store.placeWait)
  counter : SettingsId.sealCounter ∉ s.settings.damaged → t.settings.sealCounter = s.settings.sealCounter
  counted : SettingsId.sealCounter ∈ s.settings.damaged →
    ∀ x h, tget headers x = some (some h) → h.seg.serial < t.settings.sealCounter
  damaged : ∀ d, d ∈ t.settings.damaged ↔ d ∈ s.settings.damaged ∧ d ≠ .sealCounter ∧ d ≠ .lastSeal
  restart : ∃ counts recovered incomplete restored,
    t.asked (.restart s.boot.newestFound counts recovered incomplete restored s.boot.lost) .plain
  ready : t.power = .ready ∧ t.clock.state = (if s.straps.ext then .following else .internal)
    ∧ t.clock.value = s.clock.value ∧ t.clock.commitPending = false

/-! ## Laws -/

/-- Law 2: the records presented are those accepted, found duplicate and dropped (R5). -/
def State.fileSums (s : State) : Prop :=
  ∀ k f, (k, f) ∈ s.files → f.presented = f.accepted + f.duplicates + f.dropped

/-- Law 12: every predictor stack, of an open segment and of a decode, is lawful (R52). -/
def State.stacksLawful (s : State) : Prop :=
  (∀ b v codec, (b, v) ∈ s.stager.bufs → v.state = .opened codec → codec.stack.law = true)
    ∧ ∀ r g h d, s.segJob r = some g → g.phase = .decoding h d → d.codec.stack.law = true

/-- Every table stands in its one canonical form, and within its size (R1, R4, R69, R75, R87, R110). -/
structure State.canonical (s : State) : Prop where
  extents : Table.rising s.flash.extents = true
  pages : Table.rising s.flash.pages = true
  streams : Table.rising s.streams = true
  files : Table.rising s.files = true
  recons : Table.rising s.recons = true
  bufs : Table.rising s.stager.bufs = true
  catalogue : Table.rising s.catalogue = true
  holds : Table.rising s.settings.holds = true
  pageMap : Table.rising s.journal.pageMap = true
  scanned : Table.rising s.boot.scanned = true
  headers : Table.rising s.boot.headers = true
  streamSlots : ∀ p ∈ s.streams, p.1 < 256
  fileEntries : ∀ p ∈ s.files, p.1 < 32
  bufNumbers : ∀ p ∈ s.stager.bufs, p.1 < 48
  holdSlots : ∀ p ∈ s.settings.holds, p.1 < 64
  listed : ∀ p ∈ s.catalogue, reservedExtents ≤ p.1 ∧ p.2 ≠ Entry.free

/-- No catalogue entry has more than four pins (R87, R93). -/
def State.pinsBounded (s : State) : Prop := ∀ p ∈ s.catalogue, p.2.pins ≤ 4

/-- Law 5: the hold count of every entry in SEALED, EXPIRY_WAIT or DAMAGED is the number of active holds that cover it
(R92). -/
def State.holdsExact (s : State) : Prop :=
  Table.rising s.settings.holds = true
    ∧ ∀ p ∈ s.catalogue, p.2.counted = true → ∀ v, p.2.seg = some v → p.2.holds = s.coverCount v

/-- The jobs, and the scrub, that hold a pin on an extent: those on its segment and past their wait for it (R93). -/
def State.pinHolders (s : State) (x : Nat) : List JobRef :=
  (JobRef.scrub :: allChains.map JobRef.chain).filter (fun r => match s.segJob r with
    | some g => decide (g.extent = x) && decide (g.phase ≠ .waitPin)
    | none => false)

/-- Every job and the scrub stands on an entry in SEALED, EXPIRY_WAIT or DAMAGED that carries its segment's serial, and
every pin held is counted (R93). -/
structure State.segmentsPinned (s : State) : Prop where
  stands : ∀ r g, s.segJob r = some g → (s.entry g.extent).accepts g.serial = true
  counted : ∀ x, (s.pinHolders x).length ≤ (s.entry x).pins

/-- The operations in the channel queues and on the place wait list (R76). -/
def State.storeOps (s : State) : List StoreOp :=
  s.store.queues.toList.flatten ++ s.store.placeWait.filterMap (fun q => match q with | .op _ o => some o | .seal => none)

/-- Whether an operation writes or erases a data extent. -/
def StoreOp.alters (x : Nat) : StoreOp → Bool
  | .segWrite _ y => decide (y = x)
  | .erase y => decide (y = x)
  | _ => false

/-- Whether an operation is a segment READ for a job. -/
def StoreOp.readsFor (r : JobRef) : StoreOp → Bool
  | .segRead _ who _ => decide (who = some r)
  | _ => false

/-- The pins and the jobs that hold or await them, as a run keeps them: every job stands on its segment and is pinned for
it; the pin wait lists hold the jobs that wait for a pin and the granted lists jobs that have one from there; a READ stands
in a queue for a job that awaits it, one at most; and an extent is written or erased only in its state for that (R76, R80,
R93, R122, R128, R159). -/
structure State.pinsLawful (s : State) : Prop where
  pinned : s.segmentsPinned
  waiting : ∀ x c, c ∈ (s.entry x).pinWait → ∃ g, s.segJob (.chain c) = some g ∧ g.extent = x ∧ g.phase = .waitPin
  listed : ∀ r g, s.segJob r = some g → g.phase = .waitPin → ∃ c, r = .chain c ∧ c ∈ (s.entry g.extent).pinWait
  held : ∀ x, (s.entry x).pinWait ≠ [] → 0 < (s.entry x).pins
  granted : ∀ x c, c ∈ (s.entry x).granted → ∃ g, s.segJob (.chain c) = some g ∧ g.extent = x ∧ g.phase = .pinned
  once : ∀ x, (s.entry x).pinWait.Nodup ∧ (s.entry x).granted.Nodup
  reads : ∀ x r again, .segRead x (some r) again ∈ s.storeOps →
    ∃ g, s.segJob r = some g ∧ g.extent = x ∧ (g.phase = .reading ∨ g.phase = .waitPlace)
  oneRead : ∀ r, s.storeOps.countP (StoreOp.readsFor r) ≤ 1
  writes : ∀ b x, .segWrite b x ∈ s.storeOps → (s.entry x).state = .writing
  erases : ∀ x, .erase x ∈ s.storeOps → (s.entry x).state = .erasing
  oneAlters : ∀ x, s.storeOps.countP (StoreOp.alters x) ≤ 1
  idle : ∀ c, (s.chain c).state = .idle → (s.chain c).desc = none

/-- No entry waits for expiry under a hold (R119). -/
def State.waitsUnheld (s : State) : Prop := ∀ x, (s.entry x).state = .expiryWait → (s.entry x).holds = 0

/-- A staged row's days, where it has any. -/
def Staged.days : Staged → Option Nat
  | .none => Option.none
  | .proposed d _ => some d
  | .endorsed d _ _ => some d

/-- Law 8: no active row, and no staged one, lies below the retention floor (R105, R108). -/
def State.rowsAboveFloor (s : State) : Prop :=
  (∀ i : Fin 8, floorRead s.straps.floor ≤ daysRead s.settings.rows[i.val])
    ∧ ∀ i : Fin 8, ∀ d, (s.retention.staged[i.val]).days = some d → floorRead s.straps.floor ≤ daysRead d

/-- Serials in append order run without a gap from the newest durable serial to the next serial, and the page buffers are as
the Journal keeps them (R149, R153). -/
structure Journal.orderly (j : Journal) : Prop where
  serials : j.undurable.map (·.serial) = List.range' (j.durable + 1) (j.next - 1 - j.durable)
  behind : j.durable < j.next
  oneWriting : ¬ (j.bufs[0].state = .writing ∧ j.bufs[1].state = .writing)
  oneGathering : ¬ (j.bufs[0].state = .gathering ∧ j.bufs[1].state = .gathering)
  closedHold : ∀ b ∈ j.bufs.toList, b.state = .ready ∨ b.state = .writing → b.entries ≠ []
  settled : j.settled

/-- Law 6: the unreleased entries, and those for which places are reserved, number at most 1,048,576 (R151, R153). -/
def State.withinPlaces (s : State) : Prop := s.unreleased + s.journal.reserved ≤ 1048576

/-! ## Sequence accounting -/

/-- How far a number lies behind E. -/
def Account.behind (a : Account) (n : Seq) : Nat := (a.e - n).toNat

/-- A gap list in its order: each gap behind E and no longer than its distance, and each later gap nearer to E with a number
between (R31). -/
def Account.gapsOrdered (a : Account) : List Gap → Prop
  | [] => True
  | g :: t =>
    1 ≤ a.behind g.last ∧ a.behind g.last ≤ a.behind g.first ∧ a.behind g.first ≤ 2 ^ 30
      ∧ (∀ h ∈ t.head?, a.behind h.first + 1 < a.behind g.last) ∧ a.gapsOrdered t

/-- The account between two takings: position 0 is clear, and the gap list holds at most 32 gaps, in order, disjoint,
non-adjacent and behind E (R21, R31). -/
structure Account.lawful (a : Account) : Prop where
  clear : a.window.getLsbD 0 = false
  short : a.gaps.length ≤ 32
  ordered : a.gapsOrdered a.gaps

/-- The numbers that an account accepts, of those presented to it one after another: each that the sequence test does not
find DUPLICATE is taken and marked (R22, R23). -/
def Account.acceptedOf (a : Account) : List Seq → List Seq
  | [] => []
  | n :: t =>
    match classify a n with
    | some c => n :: (mark a c n).1.acceptedOf t
    | none => a.acceptedOf t

/-! ## Width training -/

/-- One field after the training at a hand-off, by its force value, the maximum observed, the segment's width and the lock
tolerance (R65). -/
structure fieldTrained (force maximum width tolerance became : Nat) (lock : LockState) : Prop where
  forced : force ≠ 0 → became = force ∧ lock = .forced
  locked : force = 0 → maximum ≤ width + tolerance → width ≤ maximum + tolerance → became = width ∧ lock = .locked
  relocked : force = 0 → (width + tolerance < maximum ∨ maximum + tolerance < width) → became = maximum ∧ lock = .relocked

/-- A stream's training state after a segment of these widths was handed off: each field trained, and the rest kept
(R64, R65). -/
structure Training.trainedFrom (t : Training) (w : Three) (u : Training) : Prop where
  td : fieldTrained t.force.td t.maxima.td w.td t.tolerance u.widths.td u.lockTd
  du : fieldTrained t.force.du t.maxima.du w.du t.tolerance u.widths.du u.lockDu
  cu : fieldTrained t.force.cu t.maxima.cu w.cu t.tolerance u.widths.cu u.lockCu
  kept : u.force = t.force ∧ u.maxima = t.maxima ∧ u.samples = t.samples ∧ u.tolerance = t.tolerance

/-! ## Records -/

/-- A record in the range of the archived form (R38, R39, R53). -/
structure Rec.inRange (r : Rec) : Prop where
  source : r.source < 2 ^ 16
  start : r.start < 2 ^ 32
  duration : r.duration < 2 ^ 24
  units : r.units < 2 ^ 32
  callType : r.callType < 16
  cause : r.cause < 256
  calling : r.calling.length ≤ 15 ∧ ∀ d ∈ r.calling, d ≤ 9
  called : r.called.length ≤ 20 ∧ ∀ d ∈ r.called, d ≤ 9
  cell : ∀ v, r.cell = some v → v < 2 ^ 28
  trunk : ∀ v, r.trunk = some v → v < 2 ^ 16
  supp : r.supp.length ≤ 4 ∧ ∀ v ∈ r.supp, v < 256

/-- The bits of records appended one after another, and the context after them (R53, R62). -/
def Codec.encodeAll (c : Codec) : List Rec → List Bool × Codec
  | [] => ([], c)
  | r :: t =>
    let bits := encodeRec c r
    let rest := (c.after r bits.length).encodeAll t
    (bits ++ rest.1, rest.2)

/-- The records that a decode hands over one after another, at most `n`, and where it then stands (R67). -/
def decodeAll (h : SegHeader) : Nat → Decode → List Rec × Decode
  | 0, d => ([], d)
  | n + 1, d =>
    match decodeNext h d with
    | some (r, d') => (r :: (decodeAll h n d').1, (decodeAll h n d').2)
    | none => ([], d)

end Sys2Proof.Machine
end

