-- ==== Sys2Proof/Certificates/Slice0/Obligations.lean ====
section
/-!
DEFINITION. The statements made of the model.
-/

open Sys2Proof Sys2Proof.Machine

/-! ## The machine -/

/-- A step takes the command at the front of the queue and runs it over the queue's rest; with no command waiting, and no
chain walking the catalogue, the part idles. The queue of waiting commands is the model's own (log entries 13 and 43), and
that the part idles is its choice (log entry 13). -/
def Obligations.StepRunsTheFrontCommand : Prop :=
  (∀ (c : Instr) (rest : List Instr) (s : State),
    step { s with pending := c :: rest } = exec c { s with pending := rest })
  ∧ ∀ s : State, s.pending = [] → (∀ c d, (s.chain c).desc = some d → ∀ w, d.job ≠ some (.catalogueRead w)) →
    step s = .next s

/-- Every command answers a next state, and none touches the queue.
That a command whose cause is absent answers the state unchanged is the model's choice (log entry 16), and the queue of waiting
commands is the model's own (log entries 13 and 43). -/
def Obligations.CommandsLeaveTheQueueAlone : Prop :=
  ∀ (c : Instr) (s : State), ∃ t, exec c s = .next t ∧ t.pending = s.pending

/-! ## Streams -/

/-- STREAM_OPEN tests its arguments in order, and otherwise registers the source in the lowest FREE slot with fresh state;
STREAM_CLOSE frees the slot of an IDLE stream, and is refused where the source is unregistered or its stream BUSY (R2, R3,
R21, R33, R64). -/
def Obligations.StreamTableOpensAndCloses : Prop :=
  (∀ (s : State) (a : At) (source cls : Nat) (fill : Byte) (mask : BitVec 8) (first : Seq) (widths force : Three)
    (samples tolerance : Nat),
    s.arrives a .intake → Table.rising s.streams = true →
    let bad := 7 < cls ∨ 7 < tolerance ∨ fill = 0xD1 ∨ fill = 0xE7
    let registered := ∃ p ∈ s.streams, p.2.source = source
    let free := fun k => k < 256 ∧ tget s.streams k = none
    ∃ t, exec (.streamOpen a source cls fill mask first widths force samples tolerance) s = .next t
      ∧ (bad → s.refusedWith a .refusedArgument t)
      ∧ (¬ bad → registered → s.refusedWith a .refusedState t)
      ∧ (¬ bad → ¬ registered → (∀ k, ¬ free k) → s.refusedWith a .refusedFull t)
      ∧ (¬ bad → ¬ registered → ∀ slot, free slot → (∀ k, k < slot → ¬ free k) →
          tget t.streams slot = some
            { source, cls, fill, mask, sticky := 0, lastFault := none, file := none,
              account := { e := first, window := 0, gaps := [], advance := 0, dropped := 0 },
              training :=
                { widths := ⟨if widths.td = 0 then 32 else min widths.td 32, if widths.du = 0 then 24 else min widths.du 24,
                             if widths.cu = 0 then 32 else min widths.cu 32⟩,
                  force := ⟨min force.td 32, min force.du 24, min force.cu 32⟩, maxima := ⟨1, 1, 1⟩,
                  lockTd := .untrained, lockDu := .untrained, lockCu := .untrained,
                  samples := max 16 (min samples 4096), tolerance } }
          ∧ sameAway slot s.streams t.streams
          ∧ s.finishes a [] (Completion.doneWith (.slot slot)) t
          ∧ s.sameBut [.streams, .ports, .out] t))
  ∧ ∀ (s : State) (a : At) (source : Nat), s.arrives a .intake →
    ∃ t, exec (.streamClose a source) s = .next t
      ∧ ((∀ p ∈ s.streams, p.2.source ≠ source) → s.refusedWith a .refusedState t)
      ∧ ∀ slot st, s.findStream source = some (slot, st) →
          (st.file ≠ none → s.refusedWith a .refusedState t)
          ∧ (st.file = none →
              tget t.streams slot = none ∧ sameAway slot s.streams t.streams
              ∧ s.finishes a [] (Completion.plain .done 0) t ∧ s.sameBut [.streams, .ports, .out] t)

/-- STREAM_MASK replaces the mask and reports the previous mask and sticky flags, clearing the flags and the last fault
where its argument asks; WIDTH_SET sets the force values and the tolerance and no width in use (R46, R66). -/
def Obligations.StreamSettingsChangeOneStream : Prop :=
  ∀ (s : State) (a : At) (source slot : Nat) (st : Stream),
    s.arrives a .intake → Table.rising s.streams = true → s.findStream source = some (slot, st) →
    (∀ (mask : BitVec 8) (clear : Bool), ∃ t, exec (.streamMask a source mask clear) s = .next t
      ∧ tget t.streams slot = some
          { st with mask, sticky := if clear then 0 else st.sticky, lastFault := if clear then none else st.lastFault }
      ∧ sameAway slot s.streams t.streams
      ∧ s.finishes a [] (Completion.doneWith (.masks st.mask st.sticky)) t ∧ s.sameBut [.streams, .ports, .out] t)
    ∧ (∀ (force : Three) (tolerance : Nat), tolerance ≤ 7 →
      let read : Three := ⟨min force.td 32, min force.du 24, min force.cu 32⟩
      ∃ t, exec (.widthSet a source force tolerance) s = .next t
      ∧ tget t.streams slot = some { st with training := { st.training with force := read, tolerance } }
      ∧ sameAway slot s.streams t.streams
      ∧ s.finishes a [] (Completion.doneWith (.widths read tolerance)) t ∧ s.sameBut [.streams, .ports, .out] t)

/-- STREAM_SNAPSHOT writes the context record as it stands and then masks every maskable kind; GAP_READ writes the account
summary and then the gaps, eight to a place, and changes nothing (R32, R45). -/
def Obligations.StreamReadsShowTheStream : Prop :=
  ∀ (s : State) (a : At) (buf : Buf) (source slot : Nat) (st : Stream),
    Table.rising s.streams = true → s.findStream source = some (slot, st) → buf.count ≤ 4096 →
    (s.arrives a .intake → buf.count ≠ 1 → ∃ t, exec (.streamSnapshot a buf source) s = .next t
      ∧ tget t.streams slot = some { st with mask := 0xFF } ∧ sameAway slot s.streams t.streams
      ∧ s.finishes a [placeAt a.port buf.addr 0 (.context (s.contextOf slot st))] (Completion.plain .done 2) t
      ∧ s.sameBut [.streams, .ports, .out] t)
    ∧ (s.arrives a .retrievalOrAudit → buf.count = 0 ∨ 5 ≤ buf.count → st.account.gaps.length ≤ 32 →
      let places := 1 + (st.account.gaps.length + 7) / 8
      ∃ (t : State) (gaps : List (List Gap)), exec (.gapRead a buf source) s = .next t
      ∧ gaps.flatten = st.account.gaps ∧ (∀ g ∈ gaps, g.length ≤ 8) ∧ (∀ g ∈ gaps.dropLast, g.length = 8)
      ∧ gaps.length + 1 = places
      ∧ s.finishes a
          (placesAt a.port buf.addr (.account
            { source := st.source, e := st.account.e, advance := st.account.advance,
              occupancy := (List.range 256).countP (fun i => st.account.window.getLsbD i),
              gapCount := st.account.gaps.length, dropped := st.account.dropped, window := st.account.window }
            :: gaps.map Place.gaps))
          { Completion.doneWith (.gapCount st.account.gaps.length) with countDone := places } t
      ∧ s.sameBut [.ports, .out] t)

/-! ## Files -/

/-- FILE_OPEN sets up the lowest unused file entry, OPEN and empty, and makes its stream BUSY (R6, R33). -/
def Obligations.FileOpenSetsUpTheEntry : Prop :=
  ∀ (s : State) (a : At) (source fileNo minutes slot k : Nat) (st : Stream),
    s.arrives a .intake → Table.rising s.streams = true → Table.rising s.files = true → minutes ≤ 10080 →
    s.findStream source = some (slot, st) → st.file = none →
    k < 32 → tget s.files k = none → (∀ j, j < k → tget s.files j ≠ none) →
    ∃ t, exec (.fileOpen a source fileNo minutes) s = .next t
      ∧ tget t.files k = some
          { fileNo, stream := slot, owner := a.port, state := .opened, wasHalted := false, haltCause := none,
            closingCause := none, deadline := (if minutes = 0 then 10080 else minutes) * 60, presented := 0,
            accepted := 0, duplicates := 0, dropped := 0, clamped := 0, skipped := 0, beyond := 0, durSum := 0,
            durSaturated := false, unitsSum := 0, unitsSaturated := false, segsSealed := 0, segsInFlight := 0,
            openSeg := none, trailer := none }
      ∧ sameAway k s.files t.files
      ∧ tget t.streams slot = some { st with file := some k, sticky := 0, lastFault := none }
      ∧ sameAway slot s.streams t.streams
      ∧ s.finishes a [] (Completion.plain .done 0) t
      ∧ s.sameBut [.streams, .files, .ports, .out] t

/-- A FILE_FEED of an OPEN file by its owner, of whole blocks, waits for a codec lane at the end of its port's list; the
tag of a port with nothing waiting rises to G (R8, R165).
The lane comes in a LANE_GRANT of its own, by the model's choice (log entry 23). -/
def Obligations.FileFeedWaitsForALane : Prop :=
  ∀ (s : State) (a : At) (buf : Buf) (source fileNo k : Nat) (f : FileEntry),
    s.arrives a .intake → buf.count ≤ 4096 → buf.count % 32 = 0 → s.findFile source fileNo = some (k, f) →
    f.owner = a.port → f.state = .opened →
    ∃ t, exec (.fileFeed a buf source fileNo) s = .next t
      ∧ s.holdsJob a .waiting
          (.feed { file := k, stream := f.stream, source, places := if buf.count = 0 then 4096 else buf.count, next := 0,
                   accepted := 0, duplicates := 0, dropped := 0, clamped := 0, skipped := 0, beyond := 0,
                   fileGone := false, laneHeld := false, waiting := none }) t
      ∧ t.arbiter = { s.arbiter with
          waiting := vset s.arbiter.waiting a.port (s.arbiter.waiting[a.port.val] ++ [a.chain]) }
      ∧ (t.port a.port).tag
          = (if s.arbiter.waiting[a.port.val] = [] then max (s.port a.port).tag s.arbiter.g else (s.port a.port).tag)
      ∧ (∀ q : PortId, q ≠ a.port → t.port q = s.port q)
      ∧ s.sameBut [.ports, .arbiter] t

/-- FILE_RESUME clears the halt of its owner's HALTED file, which becomes OPEN, or CLOSING where its closing cause is set,
and gives its FAILED segments fresh attempts after a STORE halt; FILE_ADOPT makes an ORPHANED file the issuing port's
(R15, R18, R82).
That no seal begins to wait for a queue place where none waits for one, so that the store then stays, is the model's reading
(log entry 24). -/
def Obligations.ResumeAndAdoptReturnTheFile : Prop :=
  ∀ (s : State) (a : At) (source fileNo k : Nat) (f : FileEntry),
    s.arrives a .intake → s.findFile source fileNo = some (k, f) →
    (f.state = .halted → f.owner = a.port → f.closingCause = none ∨ f.segsInFlight ≠ 0 →
      ∃ t, exec (.fileResume a source fileNo) s = .next t
        ∧ tget t.files k = some
            { f with haltCause := none, state := if f.closingCause = none then .opened else .closing }
        ∧ sameAway k s.files t.files
        ∧ (f.haltCause ≠ some .store → t.stager = s.stager)
        ∧ (f.haltCause = some .store → ∀ b v h, tget s.stager.bufs b = some v → v.stream = f.stream →
            v.fileNo = f.fileNo → v.state = .failed h →
            tget t.stager.bufs b = some { v with state := .sealing h 1 none } ∧ b ∈ t.stager.seals)
        ∧ s.finishes a [] (Completion.plain .done 0) t
        ∧ (PlaceReq.seal ∉ s.store.placeWait ∨ f.haltCause ≠ some .store → t.store = s.store)
        ∧ s.sameBut [.files, .stager, .store, .ports, .out] t)
    ∧ (f.state = .orphaned →
      ∃ t, exec (.fileAdopt a source fileNo) s = .next t
        ∧ tget t.files k = some
            { f with owner := a.port, state := if f.wasHalted then .halted else .opened, wasHalted := false }
        ∧ sameAway k s.files t.files
        ∧ s.finishes a [] (Completion.plain .done 0) t
        ∧ s.sameBut [.files, .ports, .out] t)

/-- FILE_ABANDON discards a file's open segment and its FAILED buffers, and the file becomes CLOSING with cause ABANDON
(R19). While sealed segments of it are in flight it stays so. With none in flight it is handed over: its reconciliation
record is fixed, and with a journal place free FILE_CLOSED is appended, the entry and the record are freed, the stream is
IDLE again and the owner is told; with none, the record and the CLOSING file wait with FILE_CLOSED on the append wait list
(R20, R135, R138). -/
def Obligations.AbandonDiscardsAndCloses : Prop :=
  ∀ (s : State) (a : At) (source fileNo k : Nat) (f : FileEntry),
    s.arrives a .intake → s.findFile source fileNo = some (k, f) → f.state ≠ .closing → f.state ≠ .closed →
    f.owner = a.port ∨ f.state = .orphaned → Table.rising s.stager.bufs = true →
    (∀ b, f.openSeg = some b → ∃ v codec, tget s.stager.bufs b = some v ∧ v.state = .opened codec) →
    let failed := s.stager.bufs.countP (fun p => p.2.failedOf f)
    let closing := { f with state := .closing, closingCause := some .abandon, haltCause := none, wasHalted := false,
                            openSeg := none, segsInFlight := f.segsInFlight - failed }
    ∃ t, exec (.fileAbandon a source fileNo) s = .next t
      ∧ (∀ b, f.openSeg = some b → tget t.stager.bufs b = none)
      ∧ (∀ b v, tget s.stager.bufs b = some v → v.failedOf f = true → tget t.stager.bufs b = none)
      ∧ (failed < f.segsInFlight → tget t.files k = some closing
          ∧ (s.feedOn k = none →
              sameAway k s.files t.files ∧ s.finishes a [] (Completion.plain .done 0) t
              ∧ s.sameBut [.files, .stager, .settings, .ports, .out] t))
      ∧ (failed = f.segsInFlight → s.feedOn k = none → tget s.recons k = none →
          ∀ st, tget s.streams f.stream = some st →
          let cut := fun n : Nat => min n (2 ^ 32 - 1)
          let record : Recon :=
            { fileNo := f.fileNo, source := st.source, owner := f.owner, cause := .abandon, presented := cut f.presented,
              presentedSaturated := decide (2 ^ 32 - 1 < f.presented), accepted := cut f.accepted,
              duplicates := cut f.duplicates, dropped := cut f.dropped, clamped := cut f.clamped, durSum := f.durSum,
              durSaturated := f.durSaturated, unitsSum := f.unitsSum, unitsSaturated := f.unitsSaturated,
              segsSealed := f.segsSealed, sticky := st.sticky, trailer := f.trailer }
          .completion a.port (s.fetchAddress a + 32) (Completion.plain .done 0) ∈ t.out
          ∧ sameAway k s.files t.files ∧ sameAway k s.recons t.recons
          ∧ (s.canAppend 1 = true →
              tget t.files k = none ∧ tget t.recons k = none
              ∧ tget t.streams f.stream = some { st with file := none } ∧ sameAway f.stream s.streams t.streams
              ∧ s.appended (.fileClosed record.closedFields) t
              ∧ (t.port f.owner).intakeNotices = ((s.port f.owner).intakeNotices + 1) % 2 ^ 32
              ∧ (∀ area, (s.port f.owner).area = some area → area.intake = true →
                  .notice f.owner (area.addr + 64) .intake .fileClosed (.file st.source f.fileNo) s.clock.value
                    (((s.port f.owner).intakeNotices + 1) % 2 ^ 32) ∈ t.out)
              ∧ (∀ c g, s.feed c = some g → t.feed c = some { g with fileGone := g.fileGone || decide (g.file = k) })
              ∧ s.sameBut [.files, .streams, .stager, .settings, .recons, .ports, .journal, .store, .scanner, .out] t)
          ∧ (s.canAppend 1 = false →
              tget t.files k = some closing ∧ tget t.recons k = some record
              ∧ t.journal.wait = s.journal.wait ++ [.entry (.fileClosed record.closedFields) (.fileClosed k)]
              ∧ t.journal.next = s.journal.next
              ∧ s.sameBut [.files, .stager, .settings, .recons, .ports, .journal, .scanner, .out] t))

/-- A deadline that has run out hands a file's open segment to sealing, with the next seal serial, and makes the file
CLOSING with cause DEADLINE; each field of the stream is trained from the segment (R16, R60, R65, R72).
That the row occurs only where the remaining time is 0 (log entry 33), and that the store stays where no seal waits for a
queue place (log entry 24), are the model's readings; that the seal serial counter goes on past 2^32 - 1 is its choice (log
entry 84). -/
def Obligations.DeadlineExpiryClosesTheFile : Prop :=
  ∀ (s : State) (k b : Nat) (f : FileEntry) (v : Staging) (codec : Codec) (st : Stream),
    tget s.files k = some f → f.closingCause = none → f.state = .opened ∨ f.state = .halted ∨ f.state = .orphaned →
    f.deadline = 0 → f.openSeg = some b → tget s.stager.bufs b = some v → v.state = .opened codec →
    tget s.streams f.stream = some st → Table.rising s.stager.bufs = true →
    let failed := s.stager.bufs.countP (fun p => p.2.failedOf f)
    failed ≤ f.segsInFlight →
    ∃ t, exec (.fileDeadlineExpiry k) s = .next t
      ∧ tget t.files k = some
          { f with state := .closing, closingCause := some .deadline, haltCause := none, wasHalted := false,
                   openSeg := none, segsInFlight := f.segsInFlight + 1 - failed }
      ∧ tget t.stager.bufs b = some
          { v with state :=
              .sealing (segmentHeader st.source st.cls f.fileNo s.settings.sealCounter codec) 1 none }
      ∧ b ∈ t.stager.seals
      ∧ t.settings.sealCounter = s.settings.sealCounter + 1
      ∧ (∃ tr, tget t.streams f.stream = some { st with training := tr } ∧ st.training.trainedFrom codec.widths tr)
      ∧ (∀ j w, tget s.stager.bufs j = some w → w.failedOf f = true → tget t.stager.bufs j = none)
      ∧ (s.feedOn k = none → t.out = s.out ∧ sameAway k s.files t.files ∧ sameAway f.stream s.streams t.streams
          ∧ (PlaceReq.seal ∉ s.store.placeWait → t.store = s.store)
          ∧ s.sameBut [.files, .streams, .stager, .store, .settings] t)

/-- A data record that passes every check and fits its file's open segment is taken: it is encoded into the segment, marked,
and counted as presented and accepted, and within the sample count it raises the observed maxima (R5, R10, R23, R53,
R64). -/
def Obligations.AcceptedRecordIsTakenWhole : Prop :=
  ∀ (s : State) (port : PortId) (chain : ChainNo) (bytes : Vector Byte 64) (f : Feed) (g : FileEntry) (st : Stream)
    (b : Nat) (v : Staging) (codec : Codec) (c : SeqClass),
    let raw := rawRecord bytes.toList
    let marked := mark st.account c raw.seq
    let bits := encodeRec codec (archived raw)
    s.feed ⟨port, chain⟩ = some f → f.laneHeld = true → f.waiting = none → f.next + 1 < f.places →
    tget s.files f.file = some g → g.stream = f.stream → tget s.streams f.stream = some st →
    g.openSeg = some b → tget s.stager.bufs b = some v → v.state = .opened codec →
    bytes[0] = 0xD1 → raw.source = st.source → badDigits raw = false → badRange raw = false →
    skewed s.clock.value raw = false → classify st.account raw.seq = some c →
    expired s.clock.value (s.activeDays st.cls) raw = false → fits codec (archived raw) = true → marked.2 = [] →
    s.journal.low = decide (s.freePlaces < lowMark) →
    ∃ t, exec (.recordPlace port chain bytes) s = .next t
      ∧ tget t.files f.file = some
          { g with presented := g.presented + 1, accepted := g.accepted + 1,
                   durSum := min (g.durSum + raw.duration) max64,
                   durSaturated := g.durSaturated || decide (max64 < g.durSum + raw.duration),
                   unitsSum := min (g.unitsSum + raw.units) max64,
                   unitsSaturated := g.unitsSaturated || decide (max64 < g.unitsSum + raw.units) }
      ∧ sameAway f.file s.files t.files
      ∧ tget t.streams f.stream = some
          { st with account := marked.1,
                    training := { st.training with
                      maxima := if codec.summary.count + 1 ≤ st.training.samples then
                          ⟨max st.training.maxima.td (min 32 (bitsOf (codec.startZ (archived raw)))),
                           max st.training.maxima.du (bitsOf raw.duration),
                           max st.training.maxima.cu (bitsOf raw.units)⟩
                        else st.training.maxima } }
      ∧ sameAway f.stream s.streams t.streams
      ∧ tget t.stager.bufs b = some
          { v with body := v.body ++ bits, state := .opened (codec.after (archived raw) bits.length) }
      ∧ sameAway b s.stager.bufs t.stager.bufs
      ∧ t.feed ⟨port, chain⟩ = some { f with next := f.next + 1, accepted := f.accepted + 1 }
      ∧ s.sameBut [.files, .streams, .stager, .ports] t

/-- An unmasked fault at a data place halts the file there: no count, sum, window position or segment changes for the
record, the stream records the last fault, and the feed ends HALTED_FAULT (R14, R33, R35). -/
def Obligations.UnmaskedFaultHaltsAtTheRecord : Prop :=
  ∀ (s : State) (port : PortId) (chain : ChainNo) (bytes : Vector Byte 64) (f : Feed) (g : FileEntry) (st : Stream)
    (d : Desc) (kind : FaultKind),
    let c : ChainRef := ⟨port, chain⟩
    let raw := rawRecord bytes.toList
    let checked := checkRecord { source := st.source, mask := st.mask, account := st.account, clock := s.clock.value,
                                 days := s.activeDays st.cls } st.sticky raw
    (s.port port).state = .opened → (s.chain c).desc = some d → d.job = some (.feed f) → f.laneHeld = true →
    f.fileGone = false → f.waiting = none → tget s.files f.file = some g → g.stream = f.stream →
    tget s.streams f.stream = some st → bytes[0] = 0xD1 → checked.result = .halt kind →
    ∃ t, exec (.recordPlace port chain bytes) s = .next t
      ∧ masked st.mask kind = false
      ∧ tget t.files f.file = some { g with state := .halted, haltCause := some .fault }
      ∧ sameAway f.file s.files t.files
      ∧ tget t.streams f.stream = some
          { st with sticky := checked.sticky,
                    lastFault := some { kind, fileNo := g.fileNo, place := some (f.next / 32, f.next % 32),
                                        record := some (raw.seq, raw.start), foundFile := none } }
      ∧ sameAway f.stream s.streams t.streams
      ∧ t.stager.bufs = s.stager.bufs
      ∧ t.job c = none
      ∧ .completion port (d.addr + 32)
          { status := .haltedFault, flags := Flags.none, mismatch := false, stateAfter := some (.file .halted),
            countDone := f.accepted + f.duplicates + f.dropped,
            results := .feed f.accepted f.duplicates f.dropped f.clamped f.skipped f.beyond } ∈ t.out

/-- A fill place passes over the rest of its block and changes nothing else; an accepted trailer closes the file with its
open segment handed to sealing, whose widths train the stream's, and changes no count of records (R9, R12, R65).
That the seal serial counter goes on past 2^32 - 1 is the model's choice (log entry 84). -/
def Obligations.FillIsPassedAndTheTrailerCloses : Prop :=
  ∀ (s : State) (port : PortId) (chain : ChainNo) (bytes : Vector Byte 64) (f : Feed) (g : FileEntry) (st : Stream)
    (d : Desc),
    let c : ChainRef := ⟨port, chain⟩
    (s.chain c).desc = some d → d.job = some (.feed f) → f.laneHeld = true → f.waiting = none →
    tget s.files f.file = some g → g.stream = f.stream → tget s.streams f.stream = some st →
    (bytes[0] = st.fill → st.fill ≠ 0xD1 → st.fill ≠ 0xE7 → (f.next / 32 + 1) * 32 < f.places →
      ∃ t, exec (.recordPlace port chain bytes) s = .next t
        ∧ t.feed c = some { f with next := (f.next / 32 + 1) * 32 }
        ∧ (∀ q : PortId, q ≠ port → t.port q = s.port q)
        ∧ s.sameBut [.ports] t)
    ∧ (bytes[0] = 0xE7 → (trailerAt bytes.toList).fileNo = g.fileNo → f.fileGone = false →
      ∀ b v codec, g.openSeg = some b → tget s.stager.bufs b = some v → v.state = .opened codec →
      let beyond := f.places - f.next - 1
      ∃ t, exec (.recordPlace port chain bytes) s = .next t
        ∧ tget t.files f.file = some
            { g with trailer := some (trailerAt bytes.toList), closingCause := some .trailer, state := .closing,
                     beyond := g.beyond + beyond, openSeg := none, segsInFlight := g.segsInFlight + 1 }
        ∧ tget t.stager.bufs b = some
            { v with state :=
                .sealing (segmentHeader st.source st.cls g.fileNo s.settings.sealCounter codec) 1 none }
        ∧ t.settings = { s.settings with sealCounter := s.settings.sealCounter + 1 }
        ∧ (∃ tr, tget t.streams f.stream = some { st with training := tr } ∧ st.training.trainedFrom codec.widths tr)
        ∧ sameAway f.stream s.streams t.streams
        ∧ .completion port (d.addr + 32)
            { status := .done, flags := { Flags.none with trailerTaken := true }, mismatch := false,
              stateAfter := some (.file .closing), countDone := f.accepted + f.duplicates + f.dropped,
              results := .feed f.accepted f.duplicates f.dropped f.clamped f.skipped (f.beyond + beyond) } ∈ t.out)

/-- The Service Arbiter grants a free lane to the port with the least tag that has a job to grant, the lower number where
tags are equal, and charges it; no feed is granted while another of its stream, which is its source id's (log entry 55),
holds one. A granted feed of an OPEN file of its port holds the lane, and one whose file is gone, not OPEN or another port's
completes REFUSED_STATE and gives it back; a granted retrieval or verification begins its decode; the scrub is granted one
where no port's job may be, and charges no port (R8, R128, R139, R144, R165).
That every grant of a lane is a LANE_GRANT of its own (log entry 23), that the lane is the lowest free one (log entry 62) and
that the completion of a feed whose file is gone carries no state (log entry 45) are the model's choices. -/
def Obligations.LaneGoesToTheLeastTag : Prop :=
  ∀ (s : State) (l : LaneNo),
    let begun := fun (h : SegHeader) (body : List Bool) => SegPhase.decoding h
      { index := 0, rest := body.take h.seg.bits, codec := Codec.fresh h.base h.widths }
    s.arbiter.lanes[l.val] = none → (∀ k : LaneNo, k.val < l.val → s.arbiter.lanes[k.val] ≠ none) →
    (∀ c, s.nextGrant = some c →
      let port := s.port c.port
      let waiting := vset s.arbiter.waiting c.port
        (s.arbiter.waiting[c.port.val].filter (fun d => decide (d ≠ c.chain)))
      let charged := fun (cost : Nat) (t : State) => (t.port c.port).tag = port.tag + cost * port.interval
      (∀ q d, s.candidate q = some d →
          port.tag ≤ (s.port q).tag ∧ ((s.port q).tag = port.tag → c.port.val ≤ q.val))
      ∧ (∀ q d f e g, s.candidate q = some d → s.feed d = some f → s.feed e = some g → g.laneHeld = true →
          g.source ≠ f.source)
      ∧ (∀ f g, s.job c = some (.feed f) → f.fileGone = false → tget s.files f.file = some g → g.state = .opened →
          g.owner = c.port → port.tag < 2 ^ 46 →
          ∃ t, exec .laneGrant s = .next t
            ∧ t.arbiter = { s.arbiter with lanes := vset s.arbiter.lanes l (some (.chain c)), g := port.tag, waiting }
            ∧ charged (max 1 f.places) t
            ∧ t.feed c = some { f with laneHeld := true } ∧ (t.chain c).state = .running
            ∧ (∀ q : PortId, q ≠ c.port → t.port q = s.port q)
            ∧ s.sameBut [.ports, .arbiter] t)
      ∧ (∀ f d, (s.chain c).desc = some d → d.job = some (.feed f) → port.tag < 2 ^ 46 →
          f.fileGone = true ∨ (∀ g, tget s.files f.file = some g → g.state ≠ .opened ∨ g.owner ≠ c.port) →
          ∃ t, exec .laneGrant s = .next t
            ∧ .completion c.port (d.addr + 32)
                { status := .refusedState, flags := Flags.none, mismatch := false,
                  stateAfter := if f.fileGone then none else (tget s.files f.file).map (fun g => .file g.state),
                  countDone := f.accepted + f.duplicates + f.dropped,
                  results := .feed f.accepted f.duplicates f.dropped f.clamped f.skipped f.beyond } ∈ t.out
            ∧ t.job c = none ∧ s.lanesFreed (.chain c) t
            ∧ t.arbiter.g = port.tag ∧ t.arbiter.waiting = waiting ∧ charged (max 1 f.places) t
            ∧ t.stager.bufs = s.stager.bufs
            ∧ s.sameBut [.files, .stager, .journal, .scanner, .ports, .arbiter, .out] t)
      ∧ (∀ g h body, s.segJob (.chain c) = some g → g.phase = .waitLane h body → widthsInRange h.widths = true →
          body.take h.seg.bits ≠ [] → port.tag < 2 ^ 46 →
          ∃ t, exec .laneGrant s = .next t
            ∧ t.arbiter = { s.arbiter with lanes := vset s.arbiter.lanes l (some (.chain c)), g := port.tag, waiting }
            ∧ charged (max 1 h.seg.count) t
            ∧ t.segJob (.chain c) = some { g with phase := begun h body }
            ∧ (t.chain c).state = .running
            ∧ (∀ q : PortId, q ≠ c.port → t.port q = s.port q)
            ∧ s.sameBut [.ports, .arbiter] t))
    ∧ (s.nextGrant = none → s.arbiter.scrubWaits = true → ∀ g h body, s.audit.scrub = some g →
        g.phase = .waitLane h body → widthsInRange h.widths = true → body.take h.seg.bits ≠ [] →
        ∃ t, exec .laneGrant s = .next t
          ∧ t.arbiter = { s.arbiter with lanes := vset s.arbiter.lanes l (some .scrub), scrubWaits := false }
          ∧ t.audit = { s.audit with scrub := some { g with phase := begun h body } }
          ∧ s.sameBut [.arbiter, .audit] t)

/-- A FREE staging buffer goes to the oldest waiting feed whose record can be taken: the record opens a segment in the
lowest-numbered FREE buffer and is taken there. A feed that wants journal places is passed over and keeps its place, and
its record joins the append wait list (R10, R11, R48, R71, R152).
That it joins that list when it is passed over is the model's reading (log entry 25), and which of several FREE buffers the
feed is given is its choice (log entry 77). -/
def Obligations.GivenBufferTakesTheWaitingRecord : Prop :=
  (∀ (s : State) (before rest : List ChainRef) (c : ChainRef) (f : Feed) (w : WaitRec) (r : Rec) (g : FileEntry)
    (st : Stream) (b : Nat),
    s.stager.bufs.length < 48 → s.stager.wait = before ++ c :: rest →
    (∀ d ∈ before, s.feedAble d = false ∧ s.journal.awaitsPlaces d = true) → s.feed c = some f → f.waiting = some w →
    w.archive = some r → w.places = 0 → (mark st.account w.cls w.seq).2 = [] → s.headReserved c = false →
    s.journal.low = decide (s.freePlaces < lowMark) → f.next + 1 < f.places →
    tget s.files f.file = some g → g.openSeg = none → tget s.streams g.stream = some st →
    lowestFree s.stager.bufs 48 = some b →
    let t0 := st.training.opened
    let codec := Codec.fresh r.start t0.widths
    let bits := encodeRec codec r
    ∃ t, exec .stagingBufferGiven s = .next t
      ∧ tget t.stager.bufs b = some
          { stream := g.stream, fileNo := g.fileNo, body := bits, state := .opened (codec.after r bits.length) }
      ∧ sameAway b s.stager.bufs t.stager.bufs
      ∧ t.stager.wait = s.stager.wait.filter (fun d => decide (d ≠ c))
      ∧ (∃ g', tget t.files f.file = some g' ∧ g'.openSeg = some b ∧ g'.presented = g.presented + 1
          ∧ g'.accepted = g.accepted + 1 ∧ g'.state = g.state)
      ∧ tget t.streams g.stream = some
          { st with account := (mark st.account w.cls w.seq).1,
                    training := { t0 with
                      maxima := if 1 ≤ t0.samples then ⟨1, max 1 (bitsOf r.duration), max 1 (bitsOf r.units)⟩
                        else t0.maxima } }
      ∧ sameAway g.stream s.streams t.streams
      ∧ (∃ f', t.feed c = some f' ∧ f'.next = f.next + 1 ∧ f'.accepted = f.accepted + 1 ∧ f'.waiting = none)
      ∧ (t.chain c).state = .running
      ∧ s.sameBut [.files, .streams, .stager, .ports] t)
  ∧ ∀ (s : State) (c : ChainRef) (f : Feed) (w : WaitRec),
    s.stager.bufs.length < 48 → s.stager.wait = [c] → s.feed c = some f → f.waiting = some w → w.places ≠ 0 →
    s.journal.awaitsPlaces c = false → s.canAppend w.places = false →
    ∃ t, exec .stagingBufferGiven s = .next t
      ∧ t.journal.wait = s.journal.wait ++ [.record c w.places]
      ∧ s.sameBut [.journal, .scanner, .ports, .out] t ∧ (∀ d, t.chain d = s.chain d)

/-! ## Sequence accounting -/

/-- The sequence test: its four classes by the distance from E, and what Record Check does with each (R22). -/
def Obligations.SequenceTestClassifies : Prop :=
  ∀ (a : Account) (n : Seq) (inp : CheckInput) (sticky : BitVec 9) (r : RawRec) (changed : Bool),
    let d := (n.toNat + 2 ^ 32 - a.e.toNat) % 2 ^ 32
    let inGap := ∃ g ∈ a.gaps, ∃ i, i ≤ (g.last - g.first).toNat ∧ n = g.first + BitVec.ofNat 32 i
    (d ≤ 255 → a.advance + d ≥ 2 ^ 32 ∨ a.window.getLsbD d = true → classify a n = none)
    ∧ (d ≤ 255 → a.advance + d < 2 ^ 32 → a.window.getLsbD d = false → classify a n = some .inWindow)
    ∧ (256 ≤ d → d < 2 ^ 31 → a.advance + d ≥ 2 ^ 32 → classify a n = none)
    ∧ (256 ≤ d → d < 2 ^ 31 → a.advance + d < 2 ^ 32 → classify a n = some .farAhead)
    ∧ (2 ^ 31 ≤ d → inGap → classify a n = some .lateFill)
    ∧ (2 ^ 31 ≤ d → ¬ inGap → classify a n = none)
    ∧ (inp.account = a → r.seq = n →
        (classify a n = none → (checkSequence inp sticky r changed).result
          = if masked inp.mask .duplicate then .duplicate else .halt .duplicate)
        ∧ ∀ k, classify a n = some k → checkSequence inp sticky r changed = checkExpired inp sticky r changed k)

/-- Every marking leaves position 0 clear and the gap list short, ordered, disjoint, non-adjacent and behind E; so does the
opening of a stream (R21, R24 to R28, R31). -/
def Obligations.MarkingKeepsTheAccountLawful : Prop :=
  (∀ first : Seq, (Account.fresh first).lawful)
    ∧ ∀ (a : Account) (n : Seq) (c : SeqClass), a.lawful → classify a n = some c → (mark a c n).1.lawful

/-- Within one opening no sequence number is accepted more than once (R30). -/
def Obligations.NoNumberIsAcceptedTwice : Prop :=
  ∀ (first : Seq) (presented : List Seq), ((Account.fresh first).acceptedOf presented).Nodup

/-! ## The codec -/

/-- A record in range decodes back from its encoding, in whatever context it was encoded, and a whole body decodes to the
records that were encoded, leaving the decoder in the encoder's context (R53 to R58, R62, R67). -/
def Obligations.EncodedRecordsDecodeBack : Prop :=
  (∀ (c : Codec) (r : Rec) (rest : List Bool), r.inRange →
    decodeRec r.source c (encodeRec c r ++ rest) = some (r, rest))
  ∧ ∀ (h : SegHeader) (c : Codec) (records : List Rec) (i : Nat),
    (∀ r ∈ records, r.inRange ∧ r.source = h.seg.source) →
    decodeAll h records.length { index := i, rest := (c.encodeAll records).1, codec := c }
      = (records, { index := i + records.length, rest := [], codec := (c.encodeAll records).2 })

/-- A record's 64 bytes are read back as the record (R53, R171). -/
def Obligations.RecordBytesReadBack : Prop :=
  ∀ r : Rec, r.inRange → (recBytes r).length = 64 ∧ archived (rawRecord (recBytes r)) = r

/-- An encoded record is between 23 and 368 bits long, and an append that the fit test allows stays within the body's
capacity and the record limit (R59, R61). -/
def Obligations.EncodedLengthIsBounded : Prop :=
  ∀ (c : Codec) (r : Rec), r.inRange → widthsInRange c.widths = true →
    23 ≤ encodedLength c r ∧ encodedLength c r ≤ 368
    ∧ (fits c r = true →
        (c.after r (encodedLength c r)).summary.bits ≤ 268402688 ∧ (c.after r (encodedLength c r)).summary.count ≤ 1048575)

/-! ## Reconciliation -/

/-- The three comparisons of a file with its trailer and the file outcome that follows (R136, R137). -/
def Obligations.FileOutcomeFollowsTheComparisons : Prop :=
  ∀ (source : Nat) (sticky : BitVec 9) (cause : ClosingCause) (f : FileEntry),
    let fields := (reconOf source sticky cause f).closedFields
    let presented := min f.presented (2 ^ 32 - 1)
    let compared := fun (file : Nat) (trailer : Option Nat) (c : Comparison) =>
      (trailer = none → c = .unordered)
      ∧ ∀ n, trailer = some n → (file = n → c = .equal) ∧ (n < file → c = .archiveHigh) ∧ (file < n → c = .archiveLow)
    compared presented (f.trailer.map (·.count)) fields.count
    ∧ compared f.durSum (f.trailer.map (·.duration)) fields.duration
    ∧ compared f.unitsSum (f.trailer.map (·.units)) fields.units
    ∧ fields.countSaturated = decide (2 ^ 32 - 1 < f.presented)
    ∧ fields.durationSaturated = f.durSaturated ∧ fields.unitsSaturated = f.unitsSaturated
    ∧ (cause = .abandon → fields.outcome = .abandoned)
    ∧ (cause = .deadline → fields.outcome = .incomplete)
    ∧ (cause = .trailer →
        let agrees := fields.count = .equal ∧ fields.duration = .equal ∧ fields.units = .equal
          ∧ fields.countSaturated = false ∧ fields.durationSaturated = false ∧ fields.unitsSaturated = false
        (agrees → fields.outcome = .matched) ∧ (¬ agrees → fields.outcome = .mismatched))

/-! ## The extent store -/

/-- The first waiting seal takes the lowest FREE extent of the open channel with the smallest queue depth, the lowest number
where depths tie; where no channel is open, every waiting seal takes a place on the place wait list; with no FREE extent the
store is full and every port is told (R77, R78, R79, R88).
That the row that finds the store full also sets STORE_FULL is the model's reading (log entry 24), and a seal does not
overtake a waiting request (log entry 8). -/
def Obligations.SealTakesTheLeastLoadedChannel : Prop :=
  ∀ (s : State) (b : Nat) (rest : List Nat), s.canonical → s.stager.seals = b :: rest →
    (∀ ch, s.sealChannel = some ch →
      (∀ other, s.sealOpen other = true →
        (s.queue ch).length ≤ (s.queue other).length
        ∧ ((s.queue other).length = (s.queue ch).length → ch.val ≤ other.val))
      ∧ ∀ x v h attempt target, s.firstFree ch = some x → tget s.stager.bufs b = some v →
          v.state = .sealing h attempt target →
          s.entry x = Entry.free
          ∧ (∀ y, reservedExtents ≤ y → channelOf y = ch → y < x → s.entry y ≠ Entry.free)
          ∧ ∃ t, exec .sealAllocation s = .next t
            ∧ tget t.stager.bufs b = some { v with state := .sealing h attempt (some x) }
            ∧ sameAway b s.stager.bufs t.stager.bufs
            ∧ t.stager.seals = rest
            ∧ t.entry x = { Entry.free with state := .writing, seg := some h.seg }
            ∧ (∀ y, y ≠ x → t.entry y = s.entry y)
            ∧ t.queue ch = s.queue ch ++ [.segWrite b x] ∧ (∀ k, k ≠ ch → t.queue k = s.queue k)
            ∧ t.store.full = false ∧ t.store.placeWait = s.store.placeWait.erase .seal
            ∧ s.sameBut [.stager, .store, .catalogue] t)
    ∧ (s.sealChannel = none → (∃ ch x, s.firstFree ch = some x) →
        s.store.placeWait.count .seal ≤ s.stager.seals.length →
        ∃ t more, exec .sealAllocation s = .next t
          ∧ t.store = { s.store with placeWait := s.store.placeWait ++ more }
          ∧ (∀ r ∈ more, r = .seal) ∧ t.store.placeWait.count .seal = s.stager.seals.length
          ∧ s.sameBut [.store] t)
    ∧ ((∀ ch, s.firstFree ch = none) → s.store.full = false →
        ∃ t, exec .sealAllocation s = .next t ∧ t.store = { s.store with full := true }
          ∧ (∀ p, (t.port p).archiveNotices = ((s.port p).archiveNotices + 1) % 2 ^ 32)
          ∧ s.sameBut [.store, .ports, .out] t)

/-- A segment WRITE that completes makes its entry JOURNALING with its SEALED entry appended and frees its buffer; one that
fails makes its extent BAD, and the seal waits again, or its buffer is FAILED and its file halts with cause STORE (R80, R81,
R82, R89).
What a failed WRITE leaves in the flash (log entry 21) and the byte order of the header under its check (log entry 66) are
the model's choices. -/
def Obligations.SegmentWriteSealsOrFails : Prop :=
  ∀ (s : State) (ch : Channel) (b x attempt : Nat) (v : Staging) (h : SegHeader) (target : Option Nat),
    s.inFlight ch = some (.segWrite b x) → tget s.stager.bufs b = some v → v.state = .sealing h attempt target →
    reservedExtents ≤ x → s.canAppend 1 = true →
    (∃ t, exec (.segmentWriteComplete ch true) s = .next t
      ∧ t.entry x = { s.entry x with state := .journaling, sealJournal := some s.journal.next }
      ∧ (∀ y, y ≠ x → t.entry y = s.entry y)
      ∧ tget t.flash.extents x = some (.segment h (headerCheck h) v.body) ∧ sameAway x s.flash.extents t.flash.extents
      ∧ tget t.stager.bufs b = none ∧ sameAway b s.stager.bufs t.stager.bufs
      ∧ s.appended (.sealed { extent := x, source := h.seg.source, cls := h.seg.cls, fileNo := h.seg.fileNo,
                              serial := h.seg.serial, count := h.seg.count, minDay := h.seg.minDay,
                              maxDay := h.seg.maxDay }) t
      ∧ (∃ more, t.queue ch = (s.queue ch).tail ++ more)
      ∧ s.sameBut [.flash, .catalogue, .stager, .store, .journal, .scanner, .ports, .out] t)
    ∧ (∃ t, exec (.segmentWriteComplete ch false) s = .next t
      ∧ t.entry x = { Entry.free with state := .bad } ∧ (∀ y, y ≠ x → t.entry y = s.entry y)
      ∧ x ∈ t.settings.bad
      ∧ s.appended (.badExtent x .writeFailed (some h.seg.serial)) t
      ∧ (attempt = 1 → tget t.stager.bufs b = some { v with state := .sealing h 2 none } ∧ b ∈ t.stager.seals
          ∧ s.sameBut [.flash, .catalogue, .settings, .stager, .store, .journal, .scanner, .ports, .out] t)
      ∧ (attempt ≠ 1 → tget t.stager.bufs b = some { v with state := .failed h }
          ∧ ∀ st k f, tget s.streams v.stream = some st → st.file = some k → tget s.files k = some f →
              f.state = .opened → (s.port f.owner).state = .opened →
              tget t.files k = some { f with state := .halted, haltCause := some .store }))

/-- An ERASE that completes makes its extent FREE and erased; one that fails makes it BAD (R84, R85).
That the BAD_EXTENT entry of a failed ERASE carries no seal serial is the model's choice (log entry 50). -/
def Obligations.EraseFreesOrRetiresTheExtent : Prop :=
  ∀ (s : State) (ch : Channel) (x : Nat), s.inFlight ch = some (.erase x) → reservedExtents ≤ x →
    (∃ t, exec (.eraseComplete ch true) s = .next t
      ∧ t.entry x = Entry.free ∧ (∀ y, y ≠ x → t.entry y = s.entry y)
      ∧ tget t.flash.extents x = none ∧ sameAway x s.flash.extents t.flash.extents
      ∧ t.queue ch = (s.queue ch).tail ∧ (∀ k, k ≠ ch → t.queue k = s.queue k)
      ∧ s.sameBut [.flash, .catalogue, .store] t)
    ∧ (s.canAppend 1 = true → ∃ t, exec (.eraseComplete ch false) s = .next t
      ∧ t.entry x = { Entry.free with state := .bad } ∧ (∀ y, y ≠ x → t.entry y = s.entry y)
      ∧ x ∈ t.settings.bad ∧ s.appended (.badExtent x .eraseFailed none) t
      ∧ s.sameBut [.flash, .catalogue, .settings, .store, .journal, .scanner, .ports, .out] t)

/-- A freed queue place goes to the oldest request that can use the channel, whose operation joins the queue's tail, and a
chain that waited with it goes on; where a seal takes it, that is the first of the seal wait list, and the other seals keep
their places (R76, R78).
That a newcomer does not overtake is the model's choice (log entry 8). -/
def Obligations.FreedPlaceGoesToTheOldestRequest : Prop :=
  ∀ (s : State) (ch : Channel), (s.queue ch).length < 16 →
    (∀ (c : Channel) (op : StoreOp), s.store.placeWait.find? (s.canUse ch) = some (.op c op) →
      c = ch ∧ ∃ t, exec (.queuePlaceGiven ch) s = .next t
        ∧ t.queue ch = s.queue ch ++ [op] ∧ (∀ k, k ≠ ch → t.queue k = s.queue k)
        ∧ t.store.placeWait = s.store.placeWait.erase (.op c op) ∧ t.store.full = s.store.full
        ∧ (∀ x r again g, op = .segRead x (some (.chain r)) again → s.segJob (.chain r) = some g →
            t.segJob (.chain r) = some { g with phase := .reading } ∧ (t.chain r).state = .running)
        ∧ s.sameBut [.store, .ports, .audit] t)
    ∧ (∀ b rest x v h attempt target, s.store.placeWait.find? (s.canUse ch) = some .seal →
      s.stager.seals = b :: rest → s.firstFree ch = some x → tget s.stager.bufs b = some v →
      v.state = .sealing h attempt target → Table.rising s.stager.bufs = true → Table.rising s.catalogue = true →
      ∃ t, exec (.queuePlaceGiven ch) s = .next t
        ∧ t.stager.seals = rest ∧ tget t.stager.bufs b = some { v with state := .sealing h attempt (some x) }
        ∧ t.entry x = { Entry.free with state := .writing, seg := some h.seg } ∧ (∀ y, y ≠ x → t.entry y = s.entry y)
        ∧ t.queue ch = s.queue ch ++ [.segWrite b x] ∧ (∀ k, k ≠ ch → t.queue k = s.queue k)
        ∧ t.store.placeWait = s.store.placeWait.erase .seal
        ∧ s.sameBut [.stager, .store, .catalogue] t)

/-- A segment READ is good where its header is valid and carries the entry's serial; its job then waits for a lane. A first
failure is read once more, and a second ends the segment of a retrieval, a verification or the scrub with a read failure
(R73, R83, R128, R130, R139, R144).
The READ's outcome is an operand (log entry 20), a good READ grants no lane in its own row, even where one is free (log entry
23), an EXPIRY_WAIT entry is retested with the pin's release, before the report of the failure is taken (log entry 72),
the header's values stand low byte first under its check (log entry 66), and a verification's count done is 0 (log entry 78),
by the model's choice. -/
def Obligations.SegmentReadIsTestedAndRetried : Prop :=
  (∀ (s : State) (ch : Channel) (x : Nat) (c : ChainRef) (again : Bool) (g : SegJob) (outcome : ReadOutcome),
    s.inFlight ch = some (.segRead x (some (.chain c)) again) → s.segJob (.chain c) = some g →
    let serial := (s.entry x).seg.map (·.serial)
    (∀ h body, goodRead serial (s.returned x outcome) = some (h, body) ↔
      ∃ check, s.returned x outcome = some (.segment h check body) ∧ check = headerCheck h
        ∧ 1 ≤ h.seg.count ∧ h.seg.count ≤ 1048575 ∧ serial = some h.seg.serial)
    ∧ (∀ h body, goodRead serial (s.returned x outcome) = some (h, body) →
        ∃ t, exec (.segmentReadComplete ch outcome) s = .next t
          ∧ t.segJob (.chain c) = some { g with phase := .waitLane h body }
          ∧ t.arbiter.waiting[c.port.val] = s.arbiter.waiting[c.port.val] ++ [c.chain]
          ∧ (t.chain c).state = .waiting
          ∧ t.queue ch = (s.queue ch).tail ∧ (∀ k, k ≠ ch → t.queue k = s.queue k)
          ∧ s.sameBut [.store, .ports, .arbiter] t)
    ∧ (goodRead serial (s.returned x outcome) = none → again = false → channelOf x = ch → s.store.placeWait = [] →
        (s.queue ch).length ≤ 16 →
        ∃ t, exec (.segmentReadComplete ch outcome) s = .next t
          ∧ t.queue ch = (s.queue ch).tail ++ [.segRead x (some (.chain c)) true]
          ∧ t.segJob (.chain c) = some { g with phase := .reading }
          ∧ s.sameBut [.store, .ports] t)
    ∧ (goodRead serial (s.returned x outcome) = none → again = true → g.phase = .reading →
        ∃ t, exec (.segmentReadComplete ch outcome) s = .next t
          ∧ (∀ r, s.job c = some (.retrieval r) → s.retrievalEnds c r g (.failed .readFailure) r.filled t)
          ∧ (∀ v f, s.job c = some (.verify v) → (s.entry g.extent).seg = some f →
              s.verifyEnds c v f (.failed .readFailure) t)))
  ∧ ∀ (s : State) (ch : Channel) (x : Nat) (again : Bool) (g : SegJob) (f : SegFields) (outcome : ReadOutcome),
    s.inFlight ch = some (.segRead x (some .scrub) again) → s.audit.scrub = some g → g.phase = .reading →
    g.extent = x → (s.entry x).seg = some f →
    (∀ h body, goodRead (some f.serial) (s.returned x outcome) = some (h, body) →
        ∃ t, exec (.segmentReadComplete ch outcome) s = .next t
          ∧ t.audit = { s.audit with scrub := some { g with phase := .waitLane h body } }
          ∧ t.arbiter = { s.arbiter with scrubWaits := true }
          ∧ t.queue ch = (s.queue ch).tail ∧ (∀ k, k ≠ ch → t.queue k = s.queue k)
          ∧ s.sameBut [.store, .audit, .arbiter] t)
    ∧ (goodRead (some f.serial) (s.returned x outcome) = none →
        (again = false → channelOf x = ch → s.store.placeWait = [] → (s.queue ch).length ≤ 16 →
          ∃ t, exec (.segmentReadComplete ch outcome) s = .next t
            ∧ t.queue ch = (s.queue ch).tail ++ [.segRead x (some .scrub) true]
            ∧ t.audit = s.audit ∧ s.sameBut [.store] t)
        ∧ (again = true → ∃ t, exec (.segmentReadComplete ch outcome) s = .next t
            ∧ s.scrubEnds g f (.failed .readFailure) t))

/-! ## The catalogue and what is only read -/

/-- CATALOGUE_READ begins a walk at its start; each extent of the walk is examined by itself, its entry written as it then
stands where it passes the filters, and the walk ends DONE past the last extent, DONE_PARTIAL with the next extent when the
buffer is full, and STOPPED with the next extent at a CHAIN_STOP. STATUS_READ writes its six places and IDENTIFY the
identification block; none changes what it shows (R95, R159, R167).
That a walk goes on while no command waits, one extent a step (log entries 13 and 17), and that STATUS_READ's places are
written in one step (log entry 17) are the model's choices. -/
def Obligations.ReadsWritePlacesAndChangeNothing : Prop :=
  (∀ (s : State) (a : At) (buf : Buf), buf.count ≤ 4096 →
    (∀ (start : Nat) (source stateCode : Option Nat), s.arrives a .retrievalOrAudit →
      ∃ t, exec (.catalogueRead a buf start source stateCode) s = .next t
        ∧ (131072 ≤ start ∨ (∃ code, stateCode = some code ∧ 9 < code) → s.refusedWith a .refusedArgument t)
        ∧ (start < 131072 → (∀ code, stateCode = some code → code ≤ 9) →
            s.holdsJob a .running (.catalogueRead
              { buf, source, filter := stateCode.bind EntryState.ofCode, next := start, filled := 0 }) t
            ∧ s.sameBut [.ports] t))
    ∧ (s.arrives a .anyPort → buf.count = 0 ∨ 6 ≤ buf.count →
      ∃ t, exec (.statusRead a buf) s = .next t
        ∧ (s.statusPlaces a.port).length = 6
        ∧ s.finishes a (placesAt a.port buf.addr (s.statusPlaces a.port)) (Completion.plain .done 6) t
        ∧ s.sameBut [.ports, .out] t)
    ∧ (s.arrives a .anyPort →
      ∃ t, exec (.identify a buf) s = .next t
        ∧ s.finishes a [placeAt a.port buf.addr 0 (.ident { port := a.port, roles := s.straps.roles[a.port.val],
                                                            ext := s.straps.ext, floor := s.straps.floor })]
            (Completion.plain .done 1) t
        ∧ s.sameBut [.ports, .out] t))
  ∧ ∀ (s : State) (c : ChainRef) (d : Desc) (w : CatalogueRead),
    (s.chain c).desc = some d → d.job = some (.catalogueRead w) → (s.port c.port).state = .opened →
    let e := s.entry w.next
    let place := placeAt c.port w.buf.addr w.filled (.entry
      { extent := w.next, state := e.state, seg := e.seg, pins := e.pins, holds := e.holds,
        retainUntil := e.seg.map (fun v => v.maxDay + s.activeDays v.cls), verify := e.verify })
    let passes := (∀ n, w.source = some n → ∃ v, e.seg = some v ∧ v.source = n) ∧ (∀ q, w.filter = some q → e.state = q)
    let room := if w.buf.count = 0 then 4096 else w.buf.count
    let ends := fun (posted : List Output) (word : Completion) (t : State) =>
      (∃ more, t.out = s.out ++ posted ++ .completion c.port (d.addr + 32) word :: more)
        ∧ t.job c = none ∧ s.sameBut [.ports, .out] t
    (s.pending = [] →
      (∀ b : ChainRef, (∃ v, s.job b = some (.catalogueRead v)) →
        c.port.val * 4 + c.chain.val ≤ b.port.val * 4 + b.chain.val) →
      ∀ posted n, (passes → posted = [place] ∧ n = w.filled + 1) → (¬ passes → posted = [] ∧ n = w.filled) →
      ∃ t, step s = .next t
        ∧ (131071 ≤ w.next → ends posted (Completion.plain .done n) t)
        ∧ (w.next < 131071 → room ≤ n →
            ends posted { Completion.plain .donePartial n with results := .nextExtent (w.next + 1) } t)
        ∧ (w.next < 131071 → n < room →
            t.out = s.out ++ posted ∧ t.job c = some (.catalogueRead { w with next := w.next + 1, filled := n })
            ∧ s.sameBut [.ports, .out] t))
    ∧ (∀ (chain mask : Byte), chain.toNat = c.chain.val → s.power = .ready → (s.chain c).state ≠ .idle →
      ∃ t, exec (.chainStop c.port chain mask) s = .next t
        ∧ ends [] { Completion.plain .stopped w.filled with results := .nextExtent w.next } t
        ∧ (t.chain c).state = .idle ∧ (t.port c.port).lastResult = .taken)

/-- A segment of a job is pinned and its READ requested: VERIFY on an entry that accepts a pin, the scrub at its pointer,
and a request granted from the pin wait list (R93, R128, R139, R144).
The list of granted requests between a release and its PIN_GRANT is the model's (log entry 39). -/
def Obligations.PinnedSegmentIsRead : Prop :=
  ∀ (s : State) (x : Nat) (v : SegFields),
    let ch := channelOf x
    (s.entry x).seg = some v → (s.queue ch).length < 16 → s.store.placeWait = [] →
    (∀ (a : At) (journalPass : Bool), s.arrives a .audit → x < 131072 → (s.entry x).pins < 4 →
      (s.entry x).state = .sealed ∨ (s.entry x).state = .expiryWait ∨ (s.entry x).state = .damaged →
      ∃ t, exec (.verify a x journalPass) s = .next t
        ∧ s.holdsJob a .running (.verify { seg := ⟨x, v.serial, .reading⟩, journalPass }) t
        ∧ t.entry x = { s.entry x with pins := (s.entry x).pins + 1 } ∧ (∀ y, y ≠ x → t.entry y = s.entry y)
        ∧ t.queue ch = s.queue ch ++ [.segRead x (some (.chain (refOf a))) false]
        ∧ s.sameBut [.ports, .catalogue, .store] t)
    ∧ (s.power = .ready → s.audit.enable = true → s.audit.scrub = none → s.audit.pointer = x → s.freePlaces ≠ 0 →
      (s.entry x).pins < 4 → (s.entry x).state = .sealed ∨ (s.entry x).state = .damaged →
      ∃ t, exec .scrubConsider s = .next t
        ∧ t.audit = { s.audit with scrub := some ⟨x, v.serial, .reading⟩ }
        ∧ t.entry x = { s.entry x with pins := (s.entry x).pins + 1 } ∧ (∀ y, y ≠ x → t.entry y = s.entry y)
        ∧ t.queue ch = s.queue ch ++ [.segRead x (some .scrub) false]
        ∧ s.sameBut [.audit, .catalogue, .store] t)
    ∧ (∀ (c : ChainRef) (rest : List ChainRef) (g : SegJob), (s.entry x).granted = c :: rest →
      s.segJob (.chain c) = some g →
      (∀ r, s.job c = some (.retrieval r) → r.selects (s.roles c.port).audit (s.entry x) = true) →
      ∃ t, exec (.pinGrant x) s = .next t
        ∧ t.entry x = { s.entry x with granted := rest } ∧ (∀ y, y ≠ x → t.entry y = s.entry y)
        ∧ t.segJob (.chain c) = some { g with phase := .reading } ∧ (t.chain c).state = .running
        ∧ t.queue ch = s.queue ch ++ [.segRead x (some (.chain c)) false]
        ∧ s.sameBut [.ports, .catalogue, .store] t)

/-! ## The clock, the policy and the holds -/

/-- The clock advances by one at a second of the divider while INTERNAL or in HOLDOVER and at a pulse while FOLLOWING; the
first pulse of a HOLDOVER ends it without an advance, and the watchdog's expiry begins one with an advance of two. Running
deadlines shorten with each second, and an advance onto a new day saves the day (R16, R100, R101).
That the watchdog counts seconds of the divider up to two is the model's choice (log entry 35). -/
def Obligations.ClockAdvancesByItsSource : Prop :=
  ∀ s : State, s.power = .ready →
    let v := s.clock.value
    let shortened := fun (n : Nat) (t : State) => ∀ k, tget t.files k
      = (tget s.files k).map (fun f => if f.deadlineRuns then { f with deadline := f.deadline - n } else f)
    (s.clock.state = .internal ∨ s.clock.state = .holdover → v < 2 ^ 32 - 1 →
      ∃ t, exec .dividerSecond s = .next t ∧ t.clock.value = v + 1 ∧ t.clock.state = s.clock.state ∧ shortened 1 t
        ∧ ((v + 1) % 86400 ≠ 0 → s.sameBut [.clock, .files] t)
        ∧ ((v + 1) % 86400 = 0 → t.settings.savedDay = (v + 1) / 86400))
    ∧ (s.clock.state = .internal ∨ s.clock.state = .holdover → v = 2 ^ 32 - 1 → exec .dividerSecond s = .next s)
    ∧ (s.clock.state = .following → v < 2 ^ 32 - 1 → (v + 1) % 86400 ≠ 0 →
      ∃ t, exec .pulse s = .next t ∧ t.clock = { s.clock with value := v + 1, watchdog := 0 } ∧ shortened 1 t
        ∧ s.sameBut [.clock, .files] t)
    ∧ (s.clock.state = .holdover →
      ∃ t, exec .pulse s = .next t ∧ t.clock = { s.clock with state := .following, watchdog := 0 }
        ∧ s.sameBut [.clock] t)
    ∧ (s.clock.state = .following → s.clock.watchdog = 2 → v < 2 ^ 32 - 2 → (v + 1) % 86400 ≠ 0 → (v + 2) % 86400 ≠ 0 →
      ∃ t, exec .pulseWatchdogExpiry s = .next t ∧ t.clock = { s.clock with value := v + 2, state := .holdover }
        ∧ shortened 2 t ∧ (∀ p, (t.port p).archiveNotices = ((s.port p).archiveNotices + 1) % 2 ^ 32)
        ∧ s.sameBut [.clock, .files, .ports, .out] t)

/-- CLOCK_SET refuses a lower value and a full journal, and otherwise moves the clock forward by at most seven days, with a
CLOCK_SET entry, shorter deadlines and the saved day of a day roll (R16, R101, R102).
The archive time of the CLOCK_SET entry is read as the applied value (log entry 38). -/
def Obligations.ClockSetMovesForward : Prop :=
  ∀ (s : State) (a : At) (value : Nat), s.arrives a .audit → s.clock.value < 2 ^ 32 →
    let before := s.clock.value
    let applied := min value (min (before + 604800) (2 ^ 32 - 1))
    ∃ t, exec (.clockSet a value) s = .next t
      ∧ (value < before → s.refusedWith a .refusedArgument t)
      ∧ (before ≤ value → s.freePlaces = 0 → s.refusedWith a .refusedJournal t)
      ∧ (before ≤ value → s.freePlaces ≠ 0 →
          t.clock.value = applied ∧ t.clock.state = s.clock.state ∧ t.clock.watchdog = s.clock.watchdog
          ∧ (∀ k, tget t.files k = (tget s.files k).map (fun f =>
              if f.deadlineRuns then { f with deadline := f.deadline - (applied - before) } else f))
          ∧ t.journal.awaits { serial := s.journal.next, time := applied,
                               body := .clockSet before value applied (decide (applied ≠ value)) a.port }
          ∧ .completion a.port (s.fetchAddress a + 32)
              { Completion.doneWith (.clock applied) with
                flags := { Flags.none with clamped := decide (applied ≠ value) } } ∈ t.out
          ∧ (applied / 86400 ≠ before / 86400 → t.settings.savedDay = applied / 86400)
          ∧ (applied / 86400 = before / 86400 → t.journal.next = s.journal.next + 1
              ∧ s.sameBut [.clock, .files, .journal, .store, .scanner, .ports, .out] t))

/-- POLICY_PROPOSE stages the days given, raised to the floor; POLICY_ENDORSE acts by the staged row, the port and the days
as its table has it (R105, R106).
The days are kept as written, 0 standing for 4,096 (log entry 26). -/
def Obligations.PolicyIsProposedThenEndorsed : Prop :=
  ∀ (s : State) (a : At) (i : Fin 8) (days : Nat), days ≤ 4095 →
    let read := fun n : Nat => if n = 0 then 4096 else n
    let floor := if s.straps.floor = 0 then 1 else s.straps.floor
    let staged := if read days < floor then floor else days
    let row := s.retention.staged[i.val]
    let others := fun t : State => ∀ j : Fin 8, j ≠ i → t.retention.staged[j.val] = s.retention.staged[j.val]
    let mismatch : Completion := { Completion.plain .refusedArgument 0 with mismatch := true }
    (s.arrives a .retrieval →
      ∃ t, exec (.policyPropose a i.val days) s = .next t
        ∧ t.retention.staged[i.val] = .proposed staged a.port ∧ others t
        ∧ (s.clock.commitPending = false →
            s.finishes a [] { Completion.doneWith (.staged staged row) with
                              flags := { Flags.none with clamped := decide (staged ≠ days) } } t
            ∧ s.sameBut [.retention, .ports, .out] t))
    ∧ (s.arrives a .audit →
      ∃ t, exec (.policyEndorse a i.val days) s = .next t
        ∧ (row = .none → s.refusedWith a .refusedState t)
        ∧ (∀ n p, row = .proposed n p ∨ (∃ q, row = .endorsed n p q) →
            (p = a.port → s.refusedWith a .refusedState t)
            ∧ (p ≠ a.port → read days ≠ read n → s.sameBut [.ports, .out] t
                ∧ ∃ more, t.out = s.out ++ .completion a.port (s.fetchAddress a + 32) mismatch :: more)
            ∧ (p ≠ a.port → read days = read n →
                t.retention.staged[i.val] = (if row = .proposed n p then .endorsed n p a.port else row) ∧ others t
                ∧ s.finishes a [] (Completion.plain .done 0) t ∧ s.sameBut [.retention, .ports, .out] t)))

/-- The policy commit, when its places stand reserved, makes every endorsed row active with its POLICY_COMMITTED entry, lets
every proposal lapse, clears the staged rows and signals the scanner (R107, R117).
The days are kept as written, 0 standing for 4,096 (log entry 26), and the reserved places go to the head of the append
wait list first (log entry 40). -/
def Obligations.CommitMakesEndorsedRowsActive : Prop :=
  ∀ (s : State) (n : Nat) (rest : List AppendReq), s.journal.wait = .commit n :: rest → s.clock.commitPending = true →
    n ≤ s.journal.reserved →
    ∃ t, exec .policyCommit s = .next t
      ∧ (∀ i : Fin 8, ∀ d p q, s.retention.staged[i.val] = .endorsed d p q →
          t.settings.rows[i.val] = d
          ∧ ∃ e, t.journal.awaits e ∧ e.body = .policyCommitted i.val s.settings.rows[i.val] d p q)
      ∧ (∀ i : Fin 8, ∀ d p, s.retention.staged[i.val] = .proposed d p →
          t.settings.rows[i.val] = s.settings.rows[i.val]
          ∧ ∃ e, t.journal.awaits e ∧ e.body = .policyLapsed i.val d p)
      ∧ (∀ i : Fin 8, s.retention.staged[i.val] = .none → t.settings.rows[i.val] = s.settings.rows[i.val])
      ∧ (∀ i : Fin 8, t.retention.staged[i.val] = .none)
      ∧ t.clock = { s.clock with commitPending := false, commitDays := 0 }
      ∧ t.scanner.state ≠ .idle
      ∧ t.journal.wait = rest
      ∧ s.sameBut [.settings, .retention, .clock, .journal, .store, .scanner, .ports, .out] t

/-- HOLD_PLACE takes the lowest free slot with the next id, and counts the hold on every covered entry; HOLD_RELEASE frees
the slot and uncounts it (R110 to R112, R114). -/
def Obligations.HoldsCountOnWhatTheyCover : Prop :=
  ∀ (s : State) (at_ : At), s.arrives at_ .audit → s.canonical → s.freePlaces ≠ 0 →
    let counted := fun e : Entry => e.state = .sealed ∨ e.state = .expiryWait ∨ e.state = .damaged
    let covered := fun (h : Hold) (e : Entry) => ∃ v, e.seg = some v ∧ h.covers v = true
    (∀ (source : Option Nat) (a b slot : Nat), a ≤ b → b ≤ 49710 → slot < 64 → tget s.settings.holds slot = none →
      (∀ k, k < slot → tget s.settings.holds k ≠ none) →
      ∃ t h, exec (.holdPlace at_ source a b) s = .next t
        ∧ tget t.settings.holds slot = some h ∧ sameAway slot s.settings.holds t.settings.holds
        ∧ h.source = source ∧ h.a = a ∧ h.b = b ∧ h.placedDay = s.today ∧ h.unknown = false
        ∧ (∃ i, h.id = (s.retention.lastHoldId + i) % 65535 + 1
            ∧ ∀ j, j < i → ∃ p ∈ s.settings.holds, p.2.id = (s.retention.lastHoldId + j) % 65535 + 1)
        ∧ (∀ p ∈ s.settings.holds, p.2.id ≠ h.id)
        ∧ t.retention = { s.retention with lastHoldId := h.id }
        ∧ (∀ x, (covered h (s.entry x) ∧ counted (s.entry x) → t.entry x =
              { s.entry x with holds := (s.entry x).holds + 1,
                               state := if (s.entry x).state = .expiryWait then .sealed else (s.entry x).state })
            ∧ (¬ (covered h (s.entry x) ∧ counted (s.entry x)) → t.entry x = s.entry x))
        ∧ s.appended (.holdPlaced h.id source a b s.today (s.covered h) (s.late h) at_.port) t
        ∧ .completion at_.port (s.fetchAddress at_ + 32) (Completion.doneWith (.hold h.id (s.covered h) (s.late h)))
            ∈ t.out
        ∧ s.sameBut [.settings, .retention, .catalogue, .journal, .store, .scanner, .ports, .out] t)
    ∧ (∀ (slot : Nat) (h : Hold), (slot, h) ∈ s.settings.holds → h.id ≠ 0 →
      (∀ p ∈ s.settings.holds, p.2.id = h.id → p = (slot, h)) →
      ∃ t, exec (.holdRelease at_ h.id) s = .next t
        ∧ tget t.settings.holds slot = none ∧ sameAway slot s.settings.holds t.settings.holds
        ∧ (∀ x, (covered h (s.entry x) ∧ counted (s.entry x) →
              t.entry x = { s.entry x with holds := (s.entry x).holds - 1 })
            ∧ (¬ (covered h (s.entry x) ∧ counted (s.entry x)) → t.entry x = s.entry x))
        ∧ s.appended (.holdReleased h.id h.source h.a h.b h.unknown (s.covered h) (s.freed h) at_.port) t
        ∧ .completion at_.port (s.fetchAddress at_ + 32)
            (Completion.doneWith (.holdsReleased 1 (s.covered h) (s.freed h))) ∈ t.out
        ∧ s.sameBut [.settings, .catalogue, .journal, .store, .scanner, .ports, .out] t)

/-! ## Expiry -/

/-- A visit retires a due SEALED entry with no hold and no pin, makes a pinned one EXPIRY_WAIT, and passes over one that is
held or not due (R109, R119, R120).
That the retired count grows past 131,072 too is the model's choice (log entry 82). -/
def Obligations.VisitRetiresWhatIsDue : Prop :=
  ∀ (s : State) (x : Nat) (v : SegFields), s.scanner.state = .scanning → s.scanner.position = x → x + 1 < 131072 →
    (s.entry x).state = .sealed → (s.entry x).seg = some v →
    let e := s.entry x
    let days := if s.settings.rows.toList.getD v.cls 0 = 0 then 4096 else s.settings.rows.toList.getD v.cls 0
    let due := v.maxDay + days < s.clock.value / 86400
    ∃ t, exec .scanVisit s = .next t ∧ t.scanner.position = x + 1 ∧ (∀ y, y ≠ x → t.entry y = s.entry y)
      ∧ (0 < e.holds ∨ ¬ due → t.entry x = e ∧ s.sameBut [.scanner] t)
      ∧ (e.holds = 0 → due → e.pins = 0 →
          t.entry x = { e with state := .retiring, retireJournal := some s.journal.next }
          ∧ s.appended (.expired x v.source v.serial v.cls days (v.maxDay + days) s.today) t
          ∧ t.scanner.retired = s.scanner.retired + 1
          ∧ s.sameBut [.catalogue, .scanner, .journal, .store, .ports, .out] t)
      ∧ (e.holds = 0 → due → 0 < e.pins →
          t.entry x = { e with state := .expiryWait } ∧ t.scanner.waited = s.scanner.waited + 1
          ∧ s.sameBut [.catalogue, .scanner] t)

/-! ## Retrieval -/

/-- RETRIEVE without a cursor goes to the selectable segment of least seal serial, pins it and requests its READ, or
completes DONE where there is none (R125, R126, R128, R132). -/
def Obligations.RetrieveGoesToTheLeastSerial : Prop :=
  ∀ (s : State) (at_ : At) (buf : Buf) (source : Option Nat) (a b : Nat),
    s.arrives at_ .retrieval → s.canonical → buf.count ≤ 4096 → a ≤ b → b ≤ 49710 →
    let audit := (s.roles at_.port).audit
    let wanted := fun v : SegFields => (source = none ∨ source = some v.source) ∧ v.minDay ≤ b ∧ a ≤ v.maxDay
    let selectable := fun (e : Entry) (v : SegFields) =>
      e.seg = some v ∧ wanted v ∧ (e.state = .sealed ∨ (audit = true ∧ e.state = .damaged))
    let passed := s.catalogue.countP (fun p => decide (p.2.state = .damaged)
      && (match p.2.seg with | some v => decide (wanted v) | none => false))
    ((∀ p ∈ s.catalogue, ∀ v, ¬ selectable p.2 v) →
      ∃ t, exec (.retrieve at_ buf source a b none) s = .next t
        ∧ .completion at_.port (s.fetchAddress at_ + 32)
            (Completion.doneWith (.retrieval 0 (if audit = true then 0 else passed) 0 0 none s.settings.lastSeal)) ∈ t.out
        ∧ s.sameBut [.ports, .out] t)
    ∧ (∀ x e v, (x, e) ∈ s.catalogue → selectable e v →
        (∀ p ∈ s.catalogue, ∀ w, selectable p.2 w → p.1 ≠ x → v.serial < w.serial) → e.pins < 4 →
        (s.queue (channelOf x)).length < 16 → s.store.placeWait = [] →
        ∃ t r, exec (.retrieve at_ buf source a b none) s = .next t
          ∧ s.holdsJob at_ .running (.retrieval r) t
          ∧ r.current = some ⟨x, v.serial, .reading⟩ ∧ r.position = some v.serial ∧ r.filled = 0 ∧ r.start = 0
          ∧ r.projection = (if audit = true then none else some (s.port at_.port).pendingProj)
          ∧ t.entry x = { e with pins := e.pins + 1 } ∧ (∀ y, y ≠ x → t.entry y = s.entry y)
          ∧ t.queue (channelOf x) = s.queue (channelOf x) ++ [.segRead x (some (.chain (refOf at_))) false]
          ∧ s.sameBut [.ports, .catalogue, .store] t)

/-- A decoded record in a retrieval's range is delivered into the next place, shaped by the job's projection, and one outside
it is not; a full buffer completes the job DONE_PARTIAL with its lane and its pin given back, and otherwise the job goes on
to the next record. Where the segment ends with the record, or at a decode failure, the job counts it and goes on to its
next segment or its end; a verification and the scrub take its outcome (R67, R68, R94, R129 to R131, R134, R139 to R141,
R144, R145).
A start time that cannot be rebuilt is a free value (log entry 7), that an EXPIRY_WAIT entry is retested with the pin's
release, before the report of a failure is taken (log entry 72), and that a verification's count done is 0 (log entry 78), are
the model's choices. -/
def Obligations.DecodedRecordIsDeliveredInRange : Prop :=
  ∀ (s : State) (lane : LaneNo) (ref : JobRef) (g : SegJob) (h : SegHeader) (d : Decode),
    s.arbiter.lanes[lane.val] = some ref → s.segJob ref = some g → g.phase = .decoding h d →
    ∃ t, exec (.decodedRecord lane) s = .next t
      ∧ (∀ c r, ref = .chain c → s.job c = some (.retrieval r) →
          (decodeNext h d = none →
            s.retrievalEnds c r g (.failed (.decodeFailure d.index)) r.filled t)
          ∧ ∀ record next, decodeNext h d = some (record, next) →
            let wanted := r.start ≤ d.index ∧ r.a ≤ record.start / 86400 ∧ record.start / 86400 ≤ r.b
            let room := if r.buf.count = 0 then 4096 else r.buf.count
            let moved := some { g with phase := .decoding h next }
            let place := placeAt c.port r.buf.addr r.filled (.record
              (match r.projection with | some p => project p record | none => record))
            (¬ wanted → endOf h d = none →
              t.out = s.out ∧ t.job c = some (.retrieval { r with current := moved }) ∧ s.sameBut [.ports] t)
            ∧ (¬ wanted → ∀ e, endOf h d = some e → s.retrievalEnds c r g e r.filled t)
            ∧ (wanted → r.filled + 1 < room → endOf h d = none →
                t.out = s.out ++ [place]
                ∧ t.job c = some (.retrieval
                    { r with current := moved, filled := r.filled + 1, lastIndex := some d.index })
                ∧ s.sameBut [.ports, .out] t)
            ∧ (wanted → r.filled + 1 < room → ∀ e, endOf h d = some e →
                (∃ more, t.out = s.out ++ place :: more) ∧ s.retrievalEnds c r g e (r.filled + 1) t)
            ∧ (wanted → room ≤ r.filled + 1 →
                (∃ more, t.out = s.out ++ place :: more)
                ∧ t.job c = none ∧ s.lanesFreed (.chain c) t ∧ s.pinReleased g.extent (.chain c) t
                ∧ t.audit = s.audit
                ∧ (∀ desc, (s.chain c).desc = some desc → .completion c.port (desc.addr + 32)
                    { status := .donePartial, flags := { Flags.none with cursorGone := r.gone }, mismatch := false,
                      stateAfter := none, countDone := r.filled + 1,
                      results := .retrieval r.whole r.passedOver r.failed r.delivered (some ⟨g.serial, d.index + 1⟩)
                        s.settings.lastSeal } ∈ t.out)
                ∧ s.sameBut [.out, .catalogue, .store, .scanner, .journal, .files, .ports, .arbiter] t))
      ∧ (∀ c v, ref = .chain c → s.job c = some (.verify v) →
          (∀ record next, decodeNext h d = some (record, next) → endOf h d = none →
            t.job c = some (.verify { v with seg := { g with phase := .decoding h next } }) ∧ s.sameBut [.ports] t)
          ∧ ∀ e f, endOf h d = some e → (s.entry g.extent).seg = some f → s.verifyEnds c v f e t)
      ∧ (ref = .scrub →
          (∀ record next, decodeNext h d = some (record, next) → endOf h d = none →
            t.audit = { s.audit with scrub := some { g with phase := .decoding h next } } ∧ s.sameBut [.audit] t)
          ∧ ∀ e f, endOf h d = some e → (s.entry g.extent).seg = some f → s.scrubEnds g f e t)

/-- A projection shapes a record digit by digit and field by field as its handlings say, and leaves every other field as
archived (R134). -/
def Obligations.ProjectionShapesTheRecord : Prop :=
  ∀ (p : Projection) (r : Rec), projectionInRange p = true →
    let t := project p r
    (t.calling.length = r.calling.length ∧ t.called.length = r.called.length)
    ∧ (∀ i, i < r.calling.length → t.calling[i]? = if i < p.k1 then r.calling[i]? else some p.fillDigit)
    ∧ (∀ i, i < r.called.length → t.called[i]? = if i < p.k2 then r.called[i]? else some p.fillDigit)
    ∧ (p.cell = .deliver → t.cell = r.cell) ∧ (p.cell = .absent → t.cell = none)
    ∧ (∀ v, p.cell = .fill v → t.cell = r.cell.map (fun _ => v))
    ∧ (p.trunk = .deliver → t.trunk = r.trunk) ∧ (p.trunk = .absent → t.trunk = none)
    ∧ (∀ v, p.trunk = .fill v → t.trunk = r.trunk.map (fun _ => v))
    ∧ (p.units = .deliver → t.units = r.units) ∧ (∀ v, p.units = .fill v → t.units = v)
    ∧ (p.supp = .deliver → t.supp = r.supp) ∧ (p.supp = .empty → t.supp = [])
    ∧ (t.source, t.seq, t.start, t.duration, t.callType, t.cause)
        = (r.source, r.seq, r.start, r.duration, r.callType, r.cause)

/-! ## Audit -/

/-- SCRUB_SET ends a scrub verification in progress, releasing its pin, and switches the scrub on at its start with fresh
pass counts, or off with pointer and counts kept; it reports the pointer and counts as they were (R94, R143). -/
def Obligations.ScrubSetStartsOrStopsThePass : Prop :=
  ∀ (s : State) (a : At) (enable : Bool) (start : Nat), s.arrives a .audit → start < 131072 →
    ∃ t, exec (.scrubSet a enable start) s = .next t
      ∧ t.audit.scrub = none ∧ t.audit.enable = enable ∧ t.audit.reports = s.audit.reports
      ∧ (enable = true → t.audit.pointer = start ∧ t.audit.passStart = start ∧ t.audit.counts = ⟨0, 0, 0, 0, 0, 0⟩)
      ∧ (enable = false → t.audit.pointer = s.audit.pointer ∧ t.audit.passStart = s.audit.passStart
          ∧ t.audit.counts = s.audit.counts)
      ∧ (∀ g, s.audit.scrub = some g → g.phase ≠ .waitPin → (s.entry g.extent).pinWait = [] →
          (t.entry g.extent).pins = (s.entry g.extent).pins - 1)
      ∧ (s.audit.scrub = none →
          s.finishes a [] (Completion.doneWith (.scrub s.audit.pointer s.audit.counts)) t
          ∧ s.sameBut [.audit, .ports, .out] t)

/-- A failure report quarantines a SEALED or EXPIRY_WAIT entry of its serial with a DAMAGED entry, and is discarded
otherwise; DAMAGED_DISCARD tests its entry and the journal in order, and sends a DAMAGED segment to erasure with a DISCARDED
entry (R142, R146).
That the oldest of several waiting reports is taken first is the model's choice (log entry 60). -/
def Obligations.DamageIsQuarantinedOrDiscarded : Prop :=
  ∀ s : State,
    (∀ (r : Report) (rest : List Report), s.audit.reports = r :: rest →
      let e := s.entry r.extent
      let named := fun v : SegFields => e.seg = some v ∧ v.serial = r.serial ∧ (e.state = .sealed ∨ e.state = .expiryWait)
      ∃ t, exec .damageReport s = .next t ∧ t.audit = { s.audit with reports := rest }
        ∧ (∀ v, named v → s.canAppend 1 = true →
            t.entry r.extent = { e with state := .damaged } ∧ (∀ y, y ≠ r.extent → t.entry y = s.entry y)
            ∧ s.appended (.damaged r.extent v.source v.serial .retrieval
                ⟨true, true, true, true, true, true, true, true⟩ (some r.failure) none) t
            ∧ s.sameBut [.audit, .catalogue, .journal, .store, .scanner, .ports, .out] t)
        ∧ ((∀ v, ¬ named v) → s.sameBut [.audit] t))
    ∧ (∀ (a : At) (x : Nat), s.arrives a .audit →
      let e := s.entry x
      let fit := e.state = .damaged ∧ e.holds = 0 ∧ e.pins = 0 ∧ e.reports = 0
      ∃ t, exec (.damagedDiscard a x) s = .next t
        ∧ (131071 < x → s.refusedWith a .refusedArgument t)
        ∧ (x ≤ 131071 → ¬ fit → s.refusedWith a .refusedState t)
        ∧ (∀ v, x ≤ 131071 → fit → e.seg = some v → s.freePlaces = 0 → s.refusedWith a .refusedJournal t)
        ∧ (∀ v, x ≤ 131071 → fit → e.seg = some v → s.freePlaces ≠ 0 →
            t.entry x = { e with state := .retiring, retireJournal := some s.journal.next }
            ∧ (∀ y, y ≠ x → t.entry y = s.entry y)
            ∧ s.appended (.discarded x v.source v.serial v.cls v.count v.minDay v.maxDay a.port) t
            ∧ .completion a.port (s.fetchAddress a + 32) (Completion.plain .done 0) ∈ t.out
            ∧ s.sameBut [.catalogue, .journal, .store, .scanner, .ports, .out] t))

/-! ## The Journal -/

/-- JOURNAL_READ begins at the greater of its serial and the oldest unreleased one, completes at once past the newest
durable one, and otherwise reads the page that holds the entry; the page READ that completes writes the entry, or a lost
marker where the page holds none whose check holds, and one that fails twice ends the command (R150, R154).
That the READ's outcome is an operand (log entry 20), and that the first serial reported is 0 where the page map no longer
lists the page (log entry 61), are the model's choices. -/
def Obligations.JournalReadWritesDurableEntries : Prop :=
  (∀ (s : State) (a : At) (buf : Buf) (serial : Nat), s.arrives a .audit → buf.count ≤ 4096 →
    let from_ := if serial ≤ s.settings.release then s.settings.release + 1 else serial
    let skipped := decide (serial ≤ s.settings.release)
    (s.journal.durable < from_ →
      ∃ t, exec (.journalRead a buf serial) s = .next t
        ∧ s.finishes a [] { Completion.doneWith (.nextSerial from_) with
                            flags := { Flags.none with releasedSkipped := skipped } } t
        ∧ s.sameBut [.ports, .out] t)
    ∧ (∀ slot, from_ ≤ s.journal.durable → s.journal.slotOf from_ = some slot → (s.queue 0).length < 16 →
        s.store.placeWait = [] →
        ∃ t, exec (.journalRead a buf serial) s = .next t
          ∧ s.holdsJob a .running (.journalRead { serial := from_, buf, filled := 0, skipped }) t
          ∧ t.queue 0 = s.queue 0 ++ [.pageRead slot (.job (some (refOf a))) false]
          ∧ (∀ k : Channel, k ≠ 0 → t.queue k = s.queue k)
          ∧ s.sameBut [.ports, .store] t))
  ∧ ∀ (s : State) (outcome : PageOutcome) (c : ChainRef) (d : Desc) (j : JournalRead) (slot : Nat) (again : Bool),
    s.inFlight 0 = some (.pageRead slot (.job (some c)) again) → (s.chain c).desc = some d →
    d.job = some (.journalRead j) →
    (∀ content, s.returnedPage slot outcome = some content → s.settings.release < j.serial →
      j.serial ≤ s.journal.durable → j.filled < (if j.buf.count = 0 then 4096 else j.buf.count) →
      s.journal.slotOf j.serial = some slot →
      ∃ t more place, exec (.journalPageReadComplete outcome) s = .next t
        ∧ t.out = s.out ++ placeAt c.port j.buf.addr j.filled place :: more
        ∧ ((∀ e ∈ SlotContent.entries content, ¬ (e.checkHolds = true ∧ e.entry.serial = j.serial)) →
            place = .lost j.serial)
        ∧ ((∃ e ∈ SlotContent.entries content, e.checkHolds = true ∧ e.entry.serial = j.serial) →
            ∃ e ∈ SlotContent.entries content, e.checkHolds = true ∧ e.entry.serial = j.serial ∧ place = .journal e.entry)
        ∧ s.journal = t.journal ∧ s.settings = t.settings)
    ∧ (s.returnedPage slot outcome = none → again = false → (s.queue 0).length ≤ 16 → s.store.placeWait = [] →
      ∃ t, exec (.journalPageReadComplete outcome) s = .next t
        ∧ t.queue 0 = (s.queue 0).tail ++ [.pageRead slot (.job (some c)) true]
        ∧ t.journal = { s.journal with failures := s.journal.failures + 1 } ∧ t.out = s.out)
    ∧ (s.returnedPage slot outcome = none → again = true →
      ∃ t, exec (.journalPageReadComplete outcome) s = .next t
        ∧ t.job c = none ∧ t.journal = { s.journal with failures := s.journal.failures + 1 }
        ∧ .completion c.port (d.addr + 32)
            { Completion.plain .donePartial j.filled with
              flags := { Flags.none with releasedSkipped := j.skipped, readFailed := true },
              results := .nextSerial (s.journal.firstSerial slot) } ∈ t.out)

/-- JOURNAL_RELEASE moves the release serial up to the serial named or the newest durable one, never down, and requests the
ERASE of every WRITTEN extent whose entries are then all released (R150, R155).
The free places are reserved for the requests of the append wait list in their order, and the low state and the free places
reported are those after that (R151, R152). That the row appends nothing of the list, so that the next serial stays (log entry
40), and how the occupied places are counted where the oldest unreleased entry is lost (log entry 80) are the model's
choices. -/
def Obligations.ReleaseErasesWhatIsReleased : Prop :=
  ∀ (s : State) (a : At) (serial : Nat), s.arrives a .audit →
    let applied := min serial s.journal.durable
    let flags := { Flags.none with clamped := decide (applied < serial) }
    let freed := { s with settings := { s.settings with release := applied } }.freePlaces
    (applied ≤ s.settings.release →
      ∃ t, exec (.journalRelease a serial) s = .next t
        ∧ s.finishes a [] { Completion.doneWith (.release s.settings.release 0 s.freePlaces) with flags } t
        ∧ s.sameBut [.ports, .out] t)
    ∧ (s.settings.release < applied →
      ∃ t, exec (.journalRelease a serial) s = .next t
        ∧ t.settings = { s.settings with release := applied }
        ∧ (∀ x : Fin 4, s.journal.extents[x.val] = .written →
            (∀ p ∈ s.journal.pageMap, slotExtent p.1 = x → ∀ n ∈ p.2, n ≤ applied) → t.journal.extents[x.val] = .erasing)
        ∧ t.journal.next = s.journal.next ∧ t.journal.durable = s.journal.durable ∧ t.journal.wait = s.journal.wait
        ∧ t.journal.reserved = (if s.journal.wait = [] then s.journal.reserved
            else min (waitNeeds s.stager.wait s.journal.wait) (s.journal.reserved + freed))
        ∧ t.journal.low = decide (t.freePlaces < 65536)
        ∧ .completion a.port (s.fetchAddress a + 32)
            { Completion.doneWith (.release applied (applied - s.settings.release) t.freePlaces) with flags } ∈ t.out
        ∧ s.sameBut [.settings, .journal, .store, .scanner, .ports, .out] t)

/-- A page WRITE that completes makes its entries durable at the write position, seals the entries and starts the erasures
that waited on them, of expired and of discarded segments alike; one that fails leaves its slot unused and its entries to
the next slot (R90, R122, R146, R149, R150).
That the slot of a failed WRITE reads as a page without entries is the model's choice (log entry 21), and a seal that was
recovered is told to no file (log entry 41). -/
def Obligations.PageWriteMakesEntriesDurable : Prop :=
  ∀ (s : State) (i : Fin 2), s.inFlight 0 = some .pageWrite → s.journal.bufIn .writing = some i →
    let entries := s.journal.bufs[i.val].entries
    let w := s.journal.writePos
    (∀ last, entries.getLast? = some last →
      ∃ t, exec (.journalPageWriteComplete true) s = .next t
        ∧ t.journal.durable = last.serial ∧ t.journal.lastSlot = some w ∧ t.journal.writePos = (w + 1) % 32768
        ∧ tget t.journal.pageMap w = some (entries.map (·.serial))
        ∧ tget t.flash.pages w = some (entries.map (fun e => ⟨e, true⟩)) ∧ sameAway w s.flash.pages t.flash.pages
        ∧ (∀ e ∈ entries, ∀ f v, e.body = .sealed f ∨ e.body = .recoveredSeal f →
            (s.entry f.extent).state = .journaling → (s.entry f.extent).sealJournal = some e.serial →
            (s.entry f.extent).seg = some v →
            t.entry f.extent = { s.entry f.extent with state := .sealed, sealJournal := none, holds := s.coverCount v })
        ∧ (∀ e ∈ entries, ∀ x source serial cls days until_ today, e.body = .expired x source serial cls days until_ today →
            (s.entry x).state = .retiring → (s.entry x).retireJournal = some e.serial →
            t.entry x = { s.entry x with state := .erasing, retireJournal := none })
        ∧ (∀ e ∈ entries, ∀ x source serial cls count minDay maxDay p,
            e.body = .discarded x source serial cls count minDay maxDay p →
            (s.entry x).state = .retiring → (s.entry x).retireJournal = some e.serial →
            t.entry x = { s.entry x with state := .erasing, retireJournal := none })
        ∧ s.sameBut [.flash, .journal, .store, .catalogue, .settings, .streams, .files, .recons, .scanner, .ports, .out] t)
    ∧ (∃ t, exec (.journalPageWriteComplete false) s = .next t
        ∧ t.journal.durable = s.journal.durable ∧ t.journal.failures = s.journal.failures + 1
        ∧ t.journal.writePos = (w + 1) % 32768 ∧ tget t.flash.pages w = some []
        ∧ t.journal.bufs[i.val].entries = entries
        ∧ s.sameBut [.flash, .journal, .store] t)

/-- The page timer closes a gathering buffer; the ERASE of a journal extent that completes empties it, and one that fails
is requested again; the head of the append wait list is appended once its place is reserved, and not before (R149, R150,
R152).
That the page timer's row occurs only with an entry in the page (log entry 33), that the erased extent which holds the write
position becomes CURRENT (log entry 37) and that APPEND_WAIT_SERVED appends the head itself (log entry 40) are the model's
choices. -/
def Obligations.JournalMovesAtItsEvents : Prop :=
  ∀ s : State,
    (∀ i, s.journal.bufIn .gathering = some i → s.journal.bufs[i.val].entries ≠ [] →
      ∃ t, exec .pageTimerExpiry s = .next t
        ∧ t.journal.bufs[i.val].entries = s.journal.bufs[i.val].entries
        ∧ (t.journal.bufs[i.val].state = .ready ∨ t.journal.bufs[i.val].state = .writing)
        ∧ ((∀ b ∈ s.journal.bufs.toList, b.state ≠ .ready ∧ b.state ≠ .writing) → s.journal.slotReady = true →
            t.journal.bufs[i.val].state = .writing)
        ∧ s.sameBut [.journal, .store] t)
    ∧ (∀ x : Fin 4, s.inFlight 0 = some (.journalErase x) →
      (∃ t, exec (.journalEraseComplete true) s = .next t
        ∧ (∀ slot, tget t.flash.pages slot = if slotExtent slot = x then none else tget s.flash.pages slot)
        ∧ t.journal.extents = vset s.journal.extents x
            (if slotExtent s.journal.writePos = x then .current else .erased)
        ∧ s.sameBut [.flash, .journal, .store] t)
      ∧ (s.store.placeWait = [] → (s.queue 0).length ≤ 16 → ∃ t, exec (.journalEraseComplete false) s = .next t
        ∧ t.queue 0 = (s.queue 0).tail ++ [.journalErase x]
        ∧ t.journal = { s.journal with failures := s.journal.failures + 1 }
        ∧ s.sameBut [.journal, .store] t))
    ∧ (∀ (body : JBody) (rest : List AppendReq), s.journal.wait = .entry body .plain :: rest →
      (1 ≤ s.journal.reserved → ∃ t, exec .appendWaitServed s = .next t
        ∧ s.appended body t ∧ t.journal.wait = rest
        ∧ s.sameBut [.journal, .store, .scanner, .ports, .out] t)
      ∧ (s.journal.reserved = 0 → exec .appendWaitServed s = .next s))

/-! ## The ports -/

/-- SERVICE_SET clamps and sets the port's interval; PROJECTION_SET sets the pending projection of a port without AUDIT where
it is within its values; JUMP moves the chain to an aligned target; HALT ends the chain with its notice (R133, R160,
R166).
The completion of HALT tells "descriptor done" besides "chain halted" (log entry 9), and the next address does not wrap past
the last one of 64 bits (log entry 83), by the model's choice. -/
def Obligations.SimplePortCommands : Prop :=
  ∀ (s : State) (a : At),
    (∀ interval, s.arrives a .anyRole →
      let n := max 1 (min interval 4095)
      ∃ t, exec (.serviceSet a interval) s = .next t
        ∧ (s.modPort a.port (fun q => { q with interval := n })).finishes a []
            { Completion.doneWith (.interval n) with flags := { Flags.none with clamped := decide (n ≠ interval) } } t
        ∧ s.sameBut [.ports, .out] t)
    ∧ (∀ p, s.arrives a .retrieval →
      ∃ t, exec (.projectionSet a p) s = .next t
        ∧ ((s.roles a.port).audit = true → s.refusedWith a .refusedState t)
        ∧ ((s.roles a.port).audit = false → projectionInRange p = false → s.refusedWith a .refusedArgument t)
        ∧ ((s.roles a.port).audit = false → projectionInRange p = true →
            (s.modPort a.port (fun q => { q with pendingProj := p })).finishes a [] (Completion.plain .done 0) t
            ∧ s.sameBut [.ports, .out] t))
    ∧ (∀ target, s.arrives a .anyPort →
      ∃ t, exec (.jump a target) s = .next t
        ∧ (target % 64 = 0 → t.ports = s.portsAfter a target
            ∧ t.out = s.out ++ s.endPosts a (Completion.plain .done 0) s.clock.value ∧ s.sameBut [.ports, .out] t)
        ∧ (target % 64 ≠ 0 → s.refusedWith a .refusedArgument t))
    ∧ (s.arrives a .anyPort →
      ∃ t, exec (.halt a) s = .next t
        ∧ t.chain (refOf a) = { state := .idle, next := s.fetchAddress a + 64, desc := none }
        ∧ t.out = s.out ++ s.endPosts a (Completion.plain .done 0) s.clock.value
            ++ (if a.notify then
                  chainNotice ((s.port a.port).countNotice .chain) a .chainHalted (s.fetchAddress a) s.clock.value
                else [])
        ∧ s.sameBut [.ports, .out] t)

/-- A cell command is tested in the order of its row and, where it is taken, has its effect; the word stands with its marks
clear, the result is recorded and the cell count grows (R158, R159, R162, R164).
That a port can be written only with its link up is the model's choice (log entry 10), as are the notices that go with a
completion (log entry 9) and that the completion of a stopped feed whose file is gone carries no state (log entry 45). -/
def Obligations.CellCommandsAreTestedThenTaken : Prop :=
  ∀ (s : State) (p : PortId) (chain mask : Byte), s.power = .ready → (s.port p).state ≠ .down →
    let q := s.port p
    let noted := fun (cmd : Byte) (r : CellResult) (t : State) =>
      (t.port p).cell0 = ⟨cmd, chain, mask⟩ ∧ (t.port p).cellCount = (q.cellCount + 1) % 256
        ∧ (t.port p).lastResult = r ∧ ∀ k, k ≠ p → t.port k = s.port k
    let kept := fun t : State => (t.port p).chains = q.chains ∧ (t.port p).state = q.state ∧ (t.port p).area = q.area
      ∧ s.sameBut [.ports] t
    (∀ c : ChainNo, chain.toNat = c.val →
      (∃ t, exec (.chainStart p chain mask) s = .next t
        ∧ (q.state ≠ .opened → noted 1 .state t ∧ kept t)
        ∧ (q.state = .opened → q.chains[c.val].state ≠ .idle → noted 1 .busy t ∧ kept t)
        ∧ (q.state = .opened → q.chains[c.val].state = .idle → q.cell1.toNat % 64 ≠ 0 → noted 1 .argument t ∧ kept t)
        ∧ (q.state = .opened → q.chains[c.val].state = .idle → q.cell1.toNat % 64 = 0 → noted 1 .taken t
            ∧ (t.port p).chains = vset q.chains c { state := .running, next := q.cell1.toNat, desc := none }
            ∧ s.sameBut [.ports] t))
      ∧ (∃ t, exec (.chainStop p chain mask) s = .next t
        ∧ (q.chains[c.val].state = .idle → noted 2 .state t ∧ kept t)
        ∧ (q.state = .opened → s.fetching ⟨p, c⟩ = true → noted 2 .taken t
            ∧ (t.port p).chains = vset q.chains c { q.chains[c.val] with state := .idle, desc := none }
            ∧ s.sameBut [.ports] t)
        ∧ (∀ d f, q.state = .opened → q.chains[c.val].state ≠ .idle → q.chains[c.val].desc = some d →
            d.job = some (.feed f) →
            (t.port p).lastResult = .taken ∧ (t.port p).cellCount = (q.cellCount + 1) % 256
            ∧ (t.port p).chains[c.val].state = .idle ∧ t.files = s.files ∧ t.streams = s.streams
            ∧ .completion p (d.addr + 32)
                { status := .stopped, flags := Flags.none, mismatch := false,
                  stateAfter := if f.fileGone then none else (tget s.files f.file).map (fun g => .file g.state),
                  countDone := f.accepted + f.duplicates + f.dropped,
                  results := .feed f.accepted f.duplicates f.dropped f.clamped f.skipped f.beyond } ∈ t.out)))
    ∧ (3 < chain.toNat →
        (∃ t, exec (.chainStart p chain mask) s = .next t ∧ noted 1 .argument t ∧ kept t)
        ∧ ∃ t, exec (.chainStop p chain mask) s = .next t ∧ noted 2 .argument t ∧ kept t)
    ∧ (∃ t, exec (.portDrain p chain mask) s = .next t
        ∧ (q.state ≠ .opened → noted 3 .state t ∧ kept t)
        ∧ (q.state = .opened → (∀ c : ChainNo, q.chains[c.val].state = .idle ∨ s.fetching ⟨p, c⟩ = true) →
            noted 3 .taken t ∧ (t.port p).state = .closed ∧ (∀ c : ChainNo, (t.port p).chains[c.val].state = .idle)
            ∧ (∀ k, tget t.files k = (tget s.files k).map (orphanFile p)) ∧ s.sameBut [.ports, .files] t)
        ∧ (q.state = .opened → (∃ c : ChainNo, q.chains[c.val].state ≠ .idle ∧ s.fetching ⟨p, c⟩ = false) →
            noted 3 .taken t ∧ (t.port p).state = .draining ∧ s.sameBut [.ports] t))
    ∧ (∃ t, exec (.portOpen p chain mask) s = .next t
        ∧ (q.state ≠ .closed → noted 4 .state t ∧ kept t)
        ∧ (q.state = .closed → noted 4 .taken t ∧ (t.port p).state = .opened ∧ (t.port p).chains = q.chains
            ∧ s.sameBut [.ports] t))
    ∧ (∃ t, exec (.noticeArea p chain mask) s = .next t
        ∧ (q.cell1.toNat % 64 ≠ 0 → noted 5 .argument t ∧ kept t)
        ∧ (q.cell1.toNat % 64 = 0 → noted 5 .taken t ∧ (t.port p).chains = q.chains ∧ (t.port p).state = q.state
            ∧ (t.port p).area = (if q.cell1 = 0 then none else some
                { addr := q.cell1.toNat, chain := mask.getLsbD 0, intake := mask.getLsbD 1,
                  archive := mask.getLsbD 2 })
            ∧ s.sameBut [.ports] t))

/-- A write of cell word 0 with one mark is TORN, with both marks takes the command it names, with neither only stands; a
write of word 1 stands, and one to a read-only register changes nothing; while the part is STARTING every command is
refused (R157, R158, R171).
That a torn write stays TORN while STARTING (log entry 12) and that a port can be written only with power on and its link up
(log entry 10) are the model's choices. -/
def Obligations.WindowWritesActByTheirMarks : Prop :=
  ∀ (s : State) (p : PortId) (v : BitVec 64), s.power ≠ .off → (s.port p).state ≠ .down →
    let q := s.port p
    let cmd := v.extractLsb' 8 8
    let chain := v.extractLsb' 16 8
    let mask := v.extractLsb' 24 8
    let low := v.extractLsb' 0 8
    let high := v.extractLsb' 56 8
    let becomes := fun (q' : Port) (t : State) => t.ports = vset s.ports p q' ∧ s.sameBut [.ports] t
    (∃ t, exec (.torn p cmd chain mask) s = .next t ∧ becomes
        { q with cell0 := ⟨cmd, chain, mask⟩, cellCount := (q.cellCount + 1) % 256, lastResult := .torn } t)
    ∧ (low = 0 ∧ high ≠ 0 ∨ low ≠ 0 ∧ high = 0 → exec (.registerWrite p .cell0 v) s = exec (.torn p cmd chain mask) s)
    ∧ (low = 0 → high = 0 →
        ∃ t, exec (.registerWrite p .cell0 v) s = .next t ∧ becomes { q with cell0 := ⟨cmd, chain, mask⟩ } t)
    ∧ (low ≠ 0 → high ≠ 0 →
        (cmd = 1 → exec (.registerWrite p .cell0 v) s = exec (.chainStart p chain mask) s)
        ∧ (cmd = 2 → exec (.registerWrite p .cell0 v) s = exec (.chainStop p chain mask) s)
        ∧ (cmd = 3 → exec (.registerWrite p .cell0 v) s = exec (.portDrain p chain mask) s)
        ∧ (cmd = 4 → exec (.registerWrite p .cell0 v) s = exec (.portOpen p chain mask) s)
        ∧ (cmd = 5 → exec (.registerWrite p .cell0 v) s = exec (.noticeArea p chain mask) s)
        ∧ (cmd = 0 ∨ 5 < cmd.toNat → ∃ t, exec (.registerWrite p .cell0 v) s = .next t ∧ becomes
            { q with cell0 := ⟨cmd, chain, mask⟩, cellCount := (q.cellCount + 1) % 256,
                     lastResult := if s.power = .starting then .starting else .argument } t)
        ∧ (s.power = .starting → ∃ t, exec (.registerWrite p .cell0 v) s = .next t ∧ becomes
            { q with cell0 := ⟨cmd, chain, mask⟩, cellCount := (q.cellCount + 1) % 256, lastResult := .starting } t))
    ∧ (∃ t, exec (.registerWrite p .cell1 v) s = .next t ∧ becomes { q with cell1 := v } t)
    ∧ exec (.registerWrite p .readOnly v) s = .next s

/-- An arriving descriptor runs the command its code names, at its chain and with its flags; one whose code names none
completes ILLEGAL_COMMAND. Any descriptor command whose port lacks its role completes REFUSED_ROLE, and any that moves a
buffer of more than 4,096 places REFUSED_ARGUMENT with count 0 (R160, R171).
Which byte values of a flag read as set, and where an argument or a result stands in its bytes are the model's choices where R171 does not say (log entry 6). -/
def Obligations.DescriptorRunsItsCommand : Prop :=
  ∀ (s : State) (port : PortId) (chain : ChainNo) (bytes : Vector Byte 64),
    let codes : List Nat := [0x01, 0x02, 0x03, 0x04, 0x05, 0x06, 0x07, 0x08, 0x09, 0x0A, 0x10, 0x11, 0x12, 0x13, 0x14, 0x20,
      0x21, 0x22, 0x23, 0x24, 0x25, 0x26, 0x27, 0x28, 0x30, 0x31, 0x32, 0x3E, 0x3F]
    let a : At := { port, chain, notify := bytes[1].getLsbD 0, haltOnError := bytes[1].getLsbD 1 }
    (bytes[0].toNat ∈ codes ↔ descriptorCommand port chain bytes.toList ≠ none)
    ∧ (∀ c, descriptorCommand port chain bytes.toList = some c →
        (∃ x, described c = some x ∧ x.code = bytes[0].toNat ∧ x.place = a)
        ∧ ∃ t, exec (.descriptorFetch port chain bytes) s = .next t ∧ exec c s = .next t)
    ∧ (bytes[0].toNat ∉ codes → s.arrives a .anyPort →
        ∃ t, exec (.descriptorFetch port chain bytes) s = .next t ∧ s.refusedWith a .illegalCommand t)
    ∧ ∀ c x, described c = some x → s.fetching (refOf x.place) = true → (s.port x.place.port).state = .opened →
        (x.role.admits (s.roles x.place.port) = false →
          ∃ t, exec c s = .next t ∧ s.refusedWith x.place .refusedRole t)
        ∧ (∀ buf, x.role.admits (s.roles x.place.port) = true → x.buf = some buf → 4096 < buf.count →
          ∃ t, exec c s = .next t ∧ s.refusedWith x.place .refusedArgument t)

/-- A fetch not answered ends its chain with a notice and no completion; a buffer read not answered ends a feed
FETCH_TIMEOUT with its lane given back and its records kept; an error completion does what a timeout does (R13, R161).
The timeouts are rows of their own, whose time the model does not count (log entry 42). -/
def Obligations.UnansweredReadEndsTheChain : Prop :=
  ∀ (s : State) (a : At),
    let c := refOf a
    (s.port a.port).state = .opened →
    (s.fetching c = true →
      ∃ t, exec (.descriptorFetchTimeout a.port a.chain) s = .next t
        ∧ exec (.errorCompletion a.port a.chain) s = .next t
        ∧ t.chain c = { s.chain c with state := .idle }
        ∧ t.out = s.out ++ chainNotice (s.port a.port) a .fetchTimeout (s.fetchAddress a) s.clock.value
        ∧ s.sameBut [.ports, .out] t)
    ∧ (∀ d f, (s.chain c).desc = some d → d.job = some (.feed f) → f.laneHeld = true →
      ∃ t, exec (.bufferReadTimeout a.port a.chain) s = .next t
        ∧ exec (.errorCompletion a.port a.chain) s = .next t
        ∧ (t.chain c).state = .idle ∧ t.job c = none
        ∧ (∀ l : LaneNo, t.arbiter.lanes[l.val] ≠ some (.chain c))
        ∧ .completion a.port (d.addr + 32)
            { status := .fetchTimeout, flags := Flags.none, mismatch := false,
              stateAfter := if f.fileGone then none else (tget s.files f.file).map (fun g => .file g.state),
              countDone := f.accepted + f.duplicates + f.dropped,
              results := .feed f.accepted f.duplicates f.dropped f.clamped f.skipped f.beyond } ∈ t.out
        ∧ t.files = s.files ∧ t.streams = s.streams ∧ t.stager.bufs = s.stager.bufs)

/-- A link that comes up opens its port; a link down and a function-level reset reset the port and orphan its files, and the
end of a function-level reset opens it again (R17, R157, R163).
That a function-level reset lasts from its row to the row of its end, with the port DOWN, is the model's reading (log
entry 34), and the chains' next addresses stay, which no rule resets (log entry 1). -/
def Obligations.LinkEventsOpenAndResetThePort : Prop :=
  ∀ (s : State) (p : PortId), s.power ≠ .off →
    let reset := fun (inReset : Bool) (t : State) =>
      t.port p = { state := .down, inReset, cell0 := ⟨0, 0, 0⟩, cell1 := 0, lastResult := .taken, cellCount := 0,
                   chains := (s.port p).chains.map (fun c => { c with state := .idle, desc := none }), area := none,
                   chainNotices := 0, intakeNotices := 0, archiveNotices := 0, active := Projection.everything,
                   pendingProj := Projection.everything, interval := 16, tag := s.arbiter.g }
      ∧ (∀ k, tget t.files k = (tget s.files k).map (orphanFile p))
      ∧ t.streams = s.streams ∧ t.stager.bufs = s.stager.bufs ∧ t.settings = s.settings ∧ t.clock = s.clock
      ∧ t.retention = s.retention
    ((s.port p).state = .down → (s.port p).inReset = false →
      ∃ t, exec (.linkUp p) s = .next t ∧ t.ports = vset s.ports p { s.port p with state := .opened }
        ∧ s.sameBut [.ports] t)
    ∧ (∃ t, exec (.linkDown p) s = .next t ∧ reset false t)
    ∧ ((s.port p).state ≠ .down → ∃ t, exec (.functionLevelReset p) s = .next t ∧ reset true t)
    ∧ ((s.port p).inReset = true →
      ∃ t, exec (.functionLevelResetEnd p) s = .next t
        ∧ t.ports = vset s.ports p { s.port p with state := .opened, inReset := false } ∧ s.sameBut [.ports] t)

/-! ## Power and start-up -/

/-- Power on latches the straps, adds the settings records found damaged to those that still are, and requests the scan's
first READ, every volatile piece at its power-on value; power off loses what is volatile and keeps Settings Memory and what
the flash holds. Start-up notes each slot and header that it reads and goes on to the next. The last slot ends the scan: the
Journal stands where it left off, the settings records are restored and the clock is set; the last header ends the rebuild:
every segment is SEALED, JOURNALING or erased as its header and L have it, and the part is READY (R72, R83, R85, R96, R97,
R98, R99, R103, R108, R115, R156, R170).
The values that stand while the power is off and the clock at 0 until the scan's end (log entry 1), the catalogue before the
rebuild (log entry 2), the operands of POWER_ON and POWER_OFF (log entry 20), one scan READ and one header READ a channel at
a time (log entry 19), the write position after the scan (log entry 14), which of two damaged hold slots keeps one id (log
entry 54) and the byte order of the header under its check (log entry 66) are the model's choices. -/
def Obligations.PowerAndStartUp : Prop :=
  (∀ s : State,
    (∀ pins damaged, s.power = .off →
      ∃ t, exec (.powerOn pins damaged) s = .next t
        ∧ t = { State.powerOnValues s.pending s.out pins { s.settings with damaged := damaged ++ s.settings.damaged } s.flash
                with power := .starting,
                     store := { queues := #v[[.pageRead 0 .scan false], [], [], []], placeWait := [], full := false } }
        ∧ t.atPowerOn)
    ∧ (∀ c0 c1 c2 c3, s.power ≠ .off →
      ∃ t, exec (.powerOff c0 c1 c2 c3) s = .next t
        ∧ t = State.powerOnValues s.pending s.out s.straps s.settings t.flash
        ∧ ((∀ ch, s.inFlight ch = none) → t.flash = s.flash)
        ∧ t.power = .off ∧ t.atPowerOn ∧ ∀ ch, t.queue ch = []))
  ∧ ∀ s : State, s.power = .starting →
    (s.store.placeWait = [] → (∀ ch, (s.queue ch).length ≤ 16) →
      (∀ slot again outcome content, s.boot.stage = .scan → s.inFlight 0 = some (.pageRead slot .scan again) →
        slot + 1 < 32768 → s.returnedPage slot outcome = some content →
        ∃ t, exec (.journalScanReadComplete outcome) s = .next t
          ∧ t.boot = { s.boot with slot := slot + 1, scanned := s.scannedWith slot content }
          ∧ t.queue 0 = (s.queue 0).tail ++ [.pageRead (slot + 1) .scan false]
          ∧ s.sameBut [.boot, .store] t)
      ∧ (∀ ch x again outcome content, s.boot.stage = .rebuild → s.inFlight ch = some (.headerRead x again) →
        s.returned x outcome = some content → x + 1 < (ch.val + 1) * 32768 → x + 1 ∉ s.settings.bad →
        ∃ t, exec (.headerReadComplete ch outcome) s = .next t
          ∧ t.boot = { s.boot with headers := s.headersWith x content,
                                   nextHeader := vset s.boot.nextHeader ch (x + 1) }
          ∧ t.queue ch = (s.queue ch).tail ++ [.headerRead (x + 1) false]
          ∧ s.sameBut [.boot, .store] t))
    ∧ (s.canonical →
      (∀ again outcome content, s.boot.stage = .scan → s.inFlight 0 = some (.pageRead 32767 .scan again) →
        s.returnedPage 32767 outcome = some content
          ∨ (s.returnedPage 32767 outcome = none ∧ again = true ∧ content = .page []) →
        let scanned := s.scannedWith 32767 content
        copiesAgree scanned →
        (∃ x, reservedExtents ≤ x ∧ x < 131072 ∧ x ∉ s.settings.bad
          ∧ ∀ slot e cause n, foundAt scanned slot e → e.body ≠ .badExtent x cause n) →
        ∃ t, exec (.journalScanReadComplete outcome) s = .next t ∧ s.scanEnds scanned t)
      ∧ (∀ ch x again outcome content, s.boot.stage = .rebuild → s.inFlight ch = some (.headerRead x again) →
        s.returned x outcome = some content → x + 1 = (ch.val + 1) * 32768 →
        (∀ k : Channel, k ≠ ch → (k.val + 1) * 32768 ≤ s.boot.nextHeader[k.val]) →
        (∀ p ∈ s.headersWith x content, reservedExtents ≤ p.1) → copiesAgree s.boot.scanned →
        ∃ t, exec (.headerReadComplete ch outcome) s = .next t ∧ s.rebuildEnds (s.headersWith x content) t))

/-! ## What every step keeps -/

/-- The part as shipped: Settings Memory at its shipped values, nothing volatile present, and every law holding (R169).
That the part stands OFF, and what is volatile at its power-on values, is the model's choice (log entries 1 and 2). -/
def Obligations.ResetIsThePartAsShipped : Prop :=
  let r := State.reset
  r.settings.rows = Vector.replicate 8 0 ∧ r.settings.holds = [] ∧ r.settings.savedDay = 0 ∧ r.settings.sealCounter = 1
    ∧ r.settings.lastSeal = 0 ∧ r.settings.release = 0 ∧ r.settings.bad = [] ∧ r.settings.damaged = []
    ∧ r.pending = [] ∧ r.streams = [] ∧ r.files = [] ∧ r.catalogue = [] ∧ (∀ p, (r.port p).state = .down)
    ∧ r.canonical ∧ r.pinsBounded ∧ r.fileSums ∧ r.stacksLawful ∧ r.holdsExact ∧ r.pinsLawful ∧ r.waitsUnheld
    ∧ r.rowsAboveFloor ∧ r.journal.orderly

/-- Every step keeps every table in its canonical form and within its size, and no more than four pins on any entry. -/
def Obligations.StepKeepsTablesCanonical : Prop :=
  ∀ s t : State, step s = .next t → s.canonical → s.pinsBounded → t.canonical ∧ t.pinsBounded

/-- Law 2: every step keeps the records presented of each file equal to those accepted, found duplicate and dropped. -/
def Obligations.StepKeepsFileSums : Prop := ∀ s t : State, step s = .next t → s.fileSums → t.fileSums

/-- Law 12: at reset and after every step the VALID slots of every predictor stack, of an open segment and of a decode,
occupy depths 0 to v - 1 for some v, and hold distinct heads (R52). -/
def Obligations.StepKeepsStacksLawful : Prop :=
  State.reset.stacksLawful ∧ ∀ s t : State, step s = .next t → s.stacksLawful → t.stacksLawful

/-- Law 7: while the part runs the clock stays within its 32 bits and never moves back, and the saved day stays the day of
the clock (R99, R101, R103). -/
def Obligations.ClockNeverMovesBack : Prop :=
  ∀ s t : State, step s = .next t → s.power = .ready → t.power = .ready → s.clock.value < 2 ^ 32 →
    t.clock.value < 2 ^ 32 ∧ s.clock.value ≤ t.clock.value ∧ (s.settings.savedDay = s.today → t.settings.savedDay = t.today)

/-- Law 5: while the part runs, every table in its form, every job stays on a segment that is pinned for it, with the pin
lists and the queues as they go with that (R93), and the hold counts stay the numbers of active holds that cover their
segments (R92). -/
def Obligations.StepKeepsHoldCountsExact : Prop :=
  ∀ s t : State, step s = .next t → s.power = .ready → t.power = .ready → s.canonical → s.pinsLawful →
    t.pinsLawful ∧ (s.holdsExact → t.holdsExact)

/-- Law 8: while the part runs no active or staged policy row falls below the retention floor. -/
def Obligations.StepKeepsRowsAboveTheFloor : Prop :=
  ∀ s t : State, step s = .next t → s.power = .ready → t.power = .ready → s.rowsAboveFloor → t.rowsAboveFloor

/-- Law 3: a segment starts on its way to erasure only without pins and holds, and either DAMAGED or due; and its extent is
erased only from there, at the page write that makes its EXPIRED or DISCARDED entry durable (R122, R124, R146). -/
def Obligations.ErasureOnlyAfterRetirement : Prop :=
  ∀ s t : State, step s = .next t → s.power = .ready → t.power = .ready → s.waitsUnheld → s.journal.orderly →
    t.waitsUnheld
    ∧ (∀ x, (t.entry x).state = .retiring → (s.entry x).state ≠ .retiring →
        (t.entry x).pins = 0 ∧ (t.entry x).holds = 0 ∧ (t.entry x).retireJournal ≠ none
        ∧ (t.entry x).seg = (s.entry x).seg
        ∧ ((s.entry x).state = .damaged
            ∨ (((s.entry x).state = .sealed ∨ (s.entry x).state = .expiryWait)
                ∧ ∀ v, (s.entry x).seg = some v → v.maxDay + t.activeDays v.cls < t.today)))
    ∧ (∀ x, (t.entry x).state = .erasing → (s.entry x).state ≠ .erasing →
        (s.entry x).state = .retiring
        ∧ ∃ rest n, s.pending = .journalPageWriteComplete true :: rest ∧ (s.entry x).retireJournal = some n
            ∧ s.journal.durable < n ∧ n ≤ t.journal.durable)

/-- Law 6: while the part runs, the entries not yet durable carry consecutive serials in append order. Where n places are
free, n more entries keep the unreleased and the reserved ones within 1,048,576, and the service of a single waiting entry
and a release leave them within it (R151 to R153, R155).
How the occupied places are counted where the oldest unreleased serials are lost is the model's choice within R153 (log entry
80), and so is the row that serves one request at a time (log entry 40). -/
def Obligations.JournalSerialsRunConsecutivelyInTheirPlaces : Prop :=
  (∀ s t : State, step s = .next t → s.power = .ready → t.power = .ready → s.journal.orderly → t.journal.orderly)
  ∧ (∀ (s : State) (n : Nat), 0 < n → n ≤ s.freePlaces →
      (s.journal.next - 1 - s.settings.release) + s.journal.reserved + n ≤ 1048576)
  ∧ (∀ (s t : State) (body : JBody) (note : AppendNote) (rest : List AppendReq),
      s.journal.wait = .entry body note :: rest → s.withinPlaces → exec .appendWaitServed s = .next t → t.withinPlaces)
  ∧ ∀ (s t : State) (a : At) (serial : Nat), s.withinPlaces → exec (.journalRelease a serial) s = .next t → t.withinPlaces
end

