-- ==== Sys2Proof/Laws/State.lean ====
section
/-!
SUPPORT. What each update of one part of the state leaves of every part: true by definition, so that no later proof unfolds
a record update.
-/

namespace Sys2Proof.Machine

variable (s : State)

/-! ## `pending` replaced -/

@[simp] theorem State.setPending_pending (v : List Instr) : (s.setPending v).pending = v := rfl
@[simp] theorem State.setPending_out (v : List Instr) : (s.setPending v).out = s.out := rfl
@[simp] theorem State.setPending_power (v : List Instr) : (s.setPending v).power = s.power := rfl
@[simp] theorem State.setPending_straps (v : List Instr) : (s.setPending v).straps = s.straps := rfl
@[simp] theorem State.setPending_settings (v : List Instr) : (s.setPending v).settings = s.settings := rfl
@[simp] theorem State.setPending_flash (v : List Instr) : (s.setPending v).flash = s.flash := rfl
@[simp] theorem State.setPending_streams (v : List Instr) : (s.setPending v).streams = s.streams := rfl
@[simp] theorem State.setPending_files (v : List Instr) : (s.setPending v).files = s.files := rfl
@[simp] theorem State.setPending_recons (v : List Instr) : (s.setPending v).recons = s.recons := rfl
@[simp] theorem State.setPending_stager (v : List Instr) : (s.setPending v).stager = s.stager := rfl
@[simp] theorem State.setPending_store (v : List Instr) : (s.setPending v).store = s.store := rfl
@[simp] theorem State.setPending_catalogue (v : List Instr) : (s.setPending v).catalogue = s.catalogue := rfl
@[simp] theorem State.setPending_clock (v : List Instr) : (s.setPending v).clock = s.clock := rfl
@[simp] theorem State.setPending_retention (v : List Instr) : (s.setPending v).retention = s.retention := rfl
@[simp] theorem State.setPending_scanner (v : List Instr) : (s.setPending v).scanner = s.scanner := rfl
@[simp] theorem State.setPending_audit (v : List Instr) : (s.setPending v).audit = s.audit := rfl
@[simp] theorem State.setPending_journal (v : List Instr) : (s.setPending v).journal = s.journal := rfl
@[simp] theorem State.setPending_ports (v : List Instr) : (s.setPending v).ports = s.ports := rfl
@[simp] theorem State.setPending_arbiter (v : List Instr) : (s.setPending v).arbiter = s.arbiter := rfl
@[simp] theorem State.setPending_boot (v : List Instr) : (s.setPending v).boot = s.boot := rfl

/-! ## `out` replaced -/

@[simp] theorem State.setOut_pending (v : List Output) : (s.setOut v).pending = s.pending := rfl
@[simp] theorem State.setOut_out (v : List Output) : (s.setOut v).out = v := rfl
@[simp] theorem State.setOut_power (v : List Output) : (s.setOut v).power = s.power := rfl
@[simp] theorem State.setOut_straps (v : List Output) : (s.setOut v).straps = s.straps := rfl
@[simp] theorem State.setOut_settings (v : List Output) : (s.setOut v).settings = s.settings := rfl
@[simp] theorem State.setOut_flash (v : List Output) : (s.setOut v).flash = s.flash := rfl
@[simp] theorem State.setOut_streams (v : List Output) : (s.setOut v).streams = s.streams := rfl
@[simp] theorem State.setOut_files (v : List Output) : (s.setOut v).files = s.files := rfl
@[simp] theorem State.setOut_recons (v : List Output) : (s.setOut v).recons = s.recons := rfl
@[simp] theorem State.setOut_stager (v : List Output) : (s.setOut v).stager = s.stager := rfl
@[simp] theorem State.setOut_store (v : List Output) : (s.setOut v).store = s.store := rfl
@[simp] theorem State.setOut_catalogue (v : List Output) : (s.setOut v).catalogue = s.catalogue := rfl
@[simp] theorem State.setOut_clock (v : List Output) : (s.setOut v).clock = s.clock := rfl
@[simp] theorem State.setOut_retention (v : List Output) : (s.setOut v).retention = s.retention := rfl
@[simp] theorem State.setOut_scanner (v : List Output) : (s.setOut v).scanner = s.scanner := rfl
@[simp] theorem State.setOut_audit (v : List Output) : (s.setOut v).audit = s.audit := rfl
@[simp] theorem State.setOut_journal (v : List Output) : (s.setOut v).journal = s.journal := rfl
@[simp] theorem State.setOut_ports (v : List Output) : (s.setOut v).ports = s.ports := rfl
@[simp] theorem State.setOut_arbiter (v : List Output) : (s.setOut v).arbiter = s.arbiter := rfl
@[simp] theorem State.setOut_boot (v : List Output) : (s.setOut v).boot = s.boot := rfl

/-! ## `power` replaced -/

@[simp] theorem State.setPower_pending (v : Power) : (s.setPower v).pending = s.pending := rfl
@[simp] theorem State.setPower_out (v : Power) : (s.setPower v).out = s.out := rfl
@[simp] theorem State.setPower_power (v : Power) : (s.setPower v).power = v := rfl
@[simp] theorem State.setPower_straps (v : Power) : (s.setPower v).straps = s.straps := rfl
@[simp] theorem State.setPower_settings (v : Power) : (s.setPower v).settings = s.settings := rfl
@[simp] theorem State.setPower_flash (v : Power) : (s.setPower v).flash = s.flash := rfl
@[simp] theorem State.setPower_streams (v : Power) : (s.setPower v).streams = s.streams := rfl
@[simp] theorem State.setPower_files (v : Power) : (s.setPower v).files = s.files := rfl
@[simp] theorem State.setPower_recons (v : Power) : (s.setPower v).recons = s.recons := rfl
@[simp] theorem State.setPower_stager (v : Power) : (s.setPower v).stager = s.stager := rfl
@[simp] theorem State.setPower_store (v : Power) : (s.setPower v).store = s.store := rfl
@[simp] theorem State.setPower_catalogue (v : Power) : (s.setPower v).catalogue = s.catalogue := rfl
@[simp] theorem State.setPower_clock (v : Power) : (s.setPower v).clock = s.clock := rfl
@[simp] theorem State.setPower_retention (v : Power) : (s.setPower v).retention = s.retention := rfl
@[simp] theorem State.setPower_scanner (v : Power) : (s.setPower v).scanner = s.scanner := rfl
@[simp] theorem State.setPower_audit (v : Power) : (s.setPower v).audit = s.audit := rfl
@[simp] theorem State.setPower_journal (v : Power) : (s.setPower v).journal = s.journal := rfl
@[simp] theorem State.setPower_ports (v : Power) : (s.setPower v).ports = s.ports := rfl
@[simp] theorem State.setPower_arbiter (v : Power) : (s.setPower v).arbiter = s.arbiter := rfl
@[simp] theorem State.setPower_boot (v : Power) : (s.setPower v).boot = s.boot := rfl

/-! ## `straps` replaced -/

@[simp] theorem State.setStraps_pending (v : StrapPins) : (s.setStraps v).pending = s.pending := rfl
@[simp] theorem State.setStraps_out (v : StrapPins) : (s.setStraps v).out = s.out := rfl
@[simp] theorem State.setStraps_power (v : StrapPins) : (s.setStraps v).power = s.power := rfl
@[simp] theorem State.setStraps_straps (v : StrapPins) : (s.setStraps v).straps = v := rfl
@[simp] theorem State.setStraps_settings (v : StrapPins) : (s.setStraps v).settings = s.settings := rfl
@[simp] theorem State.setStraps_flash (v : StrapPins) : (s.setStraps v).flash = s.flash := rfl
@[simp] theorem State.setStraps_streams (v : StrapPins) : (s.setStraps v).streams = s.streams := rfl
@[simp] theorem State.setStraps_files (v : StrapPins) : (s.setStraps v).files = s.files := rfl
@[simp] theorem State.setStraps_recons (v : StrapPins) : (s.setStraps v).recons = s.recons := rfl
@[simp] theorem State.setStraps_stager (v : StrapPins) : (s.setStraps v).stager = s.stager := rfl
@[simp] theorem State.setStraps_store (v : StrapPins) : (s.setStraps v).store = s.store := rfl
@[simp] theorem State.setStraps_catalogue (v : StrapPins) : (s.setStraps v).catalogue = s.catalogue := rfl
@[simp] theorem State.setStraps_clock (v : StrapPins) : (s.setStraps v).clock = s.clock := rfl
@[simp] theorem State.setStraps_retention (v : StrapPins) : (s.setStraps v).retention = s.retention := rfl
@[simp] theorem State.setStraps_scanner (v : StrapPins) : (s.setStraps v).scanner = s.scanner := rfl
@[simp] theorem State.setStraps_audit (v : StrapPins) : (s.setStraps v).audit = s.audit := rfl
@[simp] theorem State.setStraps_journal (v : StrapPins) : (s.setStraps v).journal = s.journal := rfl
@[simp] theorem State.setStraps_ports (v : StrapPins) : (s.setStraps v).ports = s.ports := rfl
@[simp] theorem State.setStraps_arbiter (v : StrapPins) : (s.setStraps v).arbiter = s.arbiter := rfl
@[simp] theorem State.setStraps_boot (v : StrapPins) : (s.setStraps v).boot = s.boot := rfl

/-! ## `settings` replaced -/

@[simp] theorem State.setSettings_pending (v : Settings) : (s.setSettings v).pending = s.pending := rfl
@[simp] theorem State.setSettings_out (v : Settings) : (s.setSettings v).out = s.out := rfl
@[simp] theorem State.setSettings_power (v : Settings) : (s.setSettings v).power = s.power := rfl
@[simp] theorem State.setSettings_straps (v : Settings) : (s.setSettings v).straps = s.straps := rfl
@[simp] theorem State.setSettings_settings (v : Settings) : (s.setSettings v).settings = v := rfl
@[simp] theorem State.setSettings_flash (v : Settings) : (s.setSettings v).flash = s.flash := rfl
@[simp] theorem State.setSettings_streams (v : Settings) : (s.setSettings v).streams = s.streams := rfl
@[simp] theorem State.setSettings_files (v : Settings) : (s.setSettings v).files = s.files := rfl
@[simp] theorem State.setSettings_recons (v : Settings) : (s.setSettings v).recons = s.recons := rfl
@[simp] theorem State.setSettings_stager (v : Settings) : (s.setSettings v).stager = s.stager := rfl
@[simp] theorem State.setSettings_store (v : Settings) : (s.setSettings v).store = s.store := rfl
@[simp] theorem State.setSettings_catalogue (v : Settings) : (s.setSettings v).catalogue = s.catalogue := rfl
@[simp] theorem State.setSettings_clock (v : Settings) : (s.setSettings v).clock = s.clock := rfl
@[simp] theorem State.setSettings_retention (v : Settings) : (s.setSettings v).retention = s.retention := rfl
@[simp] theorem State.setSettings_scanner (v : Settings) : (s.setSettings v).scanner = s.scanner := rfl
@[simp] theorem State.setSettings_audit (v : Settings) : (s.setSettings v).audit = s.audit := rfl
@[simp] theorem State.setSettings_journal (v : Settings) : (s.setSettings v).journal = s.journal := rfl
@[simp] theorem State.setSettings_ports (v : Settings) : (s.setSettings v).ports = s.ports := rfl
@[simp] theorem State.setSettings_arbiter (v : Settings) : (s.setSettings v).arbiter = s.arbiter := rfl
@[simp] theorem State.setSettings_boot (v : Settings) : (s.setSettings v).boot = s.boot := rfl

/-! ## `flash` replaced -/

@[simp] theorem State.setFlash_pending (v : Flash) : (s.setFlash v).pending = s.pending := rfl
@[simp] theorem State.setFlash_out (v : Flash) : (s.setFlash v).out = s.out := rfl
@[simp] theorem State.setFlash_power (v : Flash) : (s.setFlash v).power = s.power := rfl
@[simp] theorem State.setFlash_straps (v : Flash) : (s.setFlash v).straps = s.straps := rfl
@[simp] theorem State.setFlash_settings (v : Flash) : (s.setFlash v).settings = s.settings := rfl
@[simp] theorem State.setFlash_flash (v : Flash) : (s.setFlash v).flash = v := rfl
@[simp] theorem State.setFlash_streams (v : Flash) : (s.setFlash v).streams = s.streams := rfl
@[simp] theorem State.setFlash_files (v : Flash) : (s.setFlash v).files = s.files := rfl
@[simp] theorem State.setFlash_recons (v : Flash) : (s.setFlash v).recons = s.recons := rfl
@[simp] theorem State.setFlash_stager (v : Flash) : (s.setFlash v).stager = s.stager := rfl
@[simp] theorem State.setFlash_store (v : Flash) : (s.setFlash v).store = s.store := rfl
@[simp] theorem State.setFlash_catalogue (v : Flash) : (s.setFlash v).catalogue = s.catalogue := rfl
@[simp] theorem State.setFlash_clock (v : Flash) : (s.setFlash v).clock = s.clock := rfl
@[simp] theorem State.setFlash_retention (v : Flash) : (s.setFlash v).retention = s.retention := rfl
@[simp] theorem State.setFlash_scanner (v : Flash) : (s.setFlash v).scanner = s.scanner := rfl
@[simp] theorem State.setFlash_audit (v : Flash) : (s.setFlash v).audit = s.audit := rfl
@[simp] theorem State.setFlash_journal (v : Flash) : (s.setFlash v).journal = s.journal := rfl
@[simp] theorem State.setFlash_ports (v : Flash) : (s.setFlash v).ports = s.ports := rfl
@[simp] theorem State.setFlash_arbiter (v : Flash) : (s.setFlash v).arbiter = s.arbiter := rfl
@[simp] theorem State.setFlash_boot (v : Flash) : (s.setFlash v).boot = s.boot := rfl

/-! ## `streams` replaced -/

@[simp] theorem State.setStreams_pending (v : Table Stream) : (s.setStreams v).pending = s.pending := rfl
@[simp] theorem State.setStreams_out (v : Table Stream) : (s.setStreams v).out = s.out := rfl
@[simp] theorem State.setStreams_power (v : Table Stream) : (s.setStreams v).power = s.power := rfl
@[simp] theorem State.setStreams_straps (v : Table Stream) : (s.setStreams v).straps = s.straps := rfl
@[simp] theorem State.setStreams_settings (v : Table Stream) : (s.setStreams v).settings = s.settings := rfl
@[simp] theorem State.setStreams_flash (v : Table Stream) : (s.setStreams v).flash = s.flash := rfl
@[simp] theorem State.setStreams_streams (v : Table Stream) : (s.setStreams v).streams = v := rfl
@[simp] theorem State.setStreams_files (v : Table Stream) : (s.setStreams v).files = s.files := rfl
@[simp] theorem State.setStreams_recons (v : Table Stream) : (s.setStreams v).recons = s.recons := rfl
@[simp] theorem State.setStreams_stager (v : Table Stream) : (s.setStreams v).stager = s.stager := rfl
@[simp] theorem State.setStreams_store (v : Table Stream) : (s.setStreams v).store = s.store := rfl
@[simp] theorem State.setStreams_catalogue (v : Table Stream) : (s.setStreams v).catalogue = s.catalogue := rfl
@[simp] theorem State.setStreams_clock (v : Table Stream) : (s.setStreams v).clock = s.clock := rfl
@[simp] theorem State.setStreams_retention (v : Table Stream) : (s.setStreams v).retention = s.retention := rfl
@[simp] theorem State.setStreams_scanner (v : Table Stream) : (s.setStreams v).scanner = s.scanner := rfl
@[simp] theorem State.setStreams_audit (v : Table Stream) : (s.setStreams v).audit = s.audit := rfl
@[simp] theorem State.setStreams_journal (v : Table Stream) : (s.setStreams v).journal = s.journal := rfl
@[simp] theorem State.setStreams_ports (v : Table Stream) : (s.setStreams v).ports = s.ports := rfl
@[simp] theorem State.setStreams_arbiter (v : Table Stream) : (s.setStreams v).arbiter = s.arbiter := rfl
@[simp] theorem State.setStreams_boot (v : Table Stream) : (s.setStreams v).boot = s.boot := rfl

/-! ## `files` replaced -/

@[simp] theorem State.setFiles_pending (v : Table FileEntry) : (s.setFiles v).pending = s.pending := rfl
@[simp] theorem State.setFiles_out (v : Table FileEntry) : (s.setFiles v).out = s.out := rfl
@[simp] theorem State.setFiles_power (v : Table FileEntry) : (s.setFiles v).power = s.power := rfl
@[simp] theorem State.setFiles_straps (v : Table FileEntry) : (s.setFiles v).straps = s.straps := rfl
@[simp] theorem State.setFiles_settings (v : Table FileEntry) : (s.setFiles v).settings = s.settings := rfl
@[simp] theorem State.setFiles_flash (v : Table FileEntry) : (s.setFiles v).flash = s.flash := rfl
@[simp] theorem State.setFiles_streams (v : Table FileEntry) : (s.setFiles v).streams = s.streams := rfl
@[simp] theorem State.setFiles_files (v : Table FileEntry) : (s.setFiles v).files = v := rfl
@[simp] theorem State.setFiles_recons (v : Table FileEntry) : (s.setFiles v).recons = s.recons := rfl
@[simp] theorem State.setFiles_stager (v : Table FileEntry) : (s.setFiles v).stager = s.stager := rfl
@[simp] theorem State.setFiles_store (v : Table FileEntry) : (s.setFiles v).store = s.store := rfl
@[simp] theorem State.setFiles_catalogue (v : Table FileEntry) : (s.setFiles v).catalogue = s.catalogue := rfl
@[simp] theorem State.setFiles_clock (v : Table FileEntry) : (s.setFiles v).clock = s.clock := rfl
@[simp] theorem State.setFiles_retention (v : Table FileEntry) : (s.setFiles v).retention = s.retention := rfl
@[simp] theorem State.setFiles_scanner (v : Table FileEntry) : (s.setFiles v).scanner = s.scanner := rfl
@[simp] theorem State.setFiles_audit (v : Table FileEntry) : (s.setFiles v).audit = s.audit := rfl
@[simp] theorem State.setFiles_journal (v : Table FileEntry) : (s.setFiles v).journal = s.journal := rfl
@[simp] theorem State.setFiles_ports (v : Table FileEntry) : (s.setFiles v).ports = s.ports := rfl
@[simp] theorem State.setFiles_arbiter (v : Table FileEntry) : (s.setFiles v).arbiter = s.arbiter := rfl
@[simp] theorem State.setFiles_boot (v : Table FileEntry) : (s.setFiles v).boot = s.boot := rfl

/-! ## `recons` replaced -/

@[simp] theorem State.setRecons_pending (v : Table Recon) : (s.setRecons v).pending = s.pending := rfl
@[simp] theorem State.setRecons_out (v : Table Recon) : (s.setRecons v).out = s.out := rfl
@[simp] theorem State.setRecons_power (v : Table Recon) : (s.setRecons v).power = s.power := rfl
@[simp] theorem State.setRecons_straps (v : Table Recon) : (s.setRecons v).straps = s.straps := rfl
@[simp] theorem State.setRecons_settings (v : Table Recon) : (s.setRecons v).settings = s.settings := rfl
@[simp] theorem State.setRecons_flash (v : Table Recon) : (s.setRecons v).flash = s.flash := rfl
@[simp] theorem State.setRecons_streams (v : Table Recon) : (s.setRecons v).streams = s.streams := rfl
@[simp] theorem State.setRecons_files (v : Table Recon) : (s.setRecons v).files = s.files := rfl
@[simp] theorem State.setRecons_recons (v : Table Recon) : (s.setRecons v).recons = v := rfl
@[simp] theorem State.setRecons_stager (v : Table Recon) : (s.setRecons v).stager = s.stager := rfl
@[simp] theorem State.setRecons_store (v : Table Recon) : (s.setRecons v).store = s.store := rfl
@[simp] theorem State.setRecons_catalogue (v : Table Recon) : (s.setRecons v).catalogue = s.catalogue := rfl
@[simp] theorem State.setRecons_clock (v : Table Recon) : (s.setRecons v).clock = s.clock := rfl
@[simp] theorem State.setRecons_retention (v : Table Recon) : (s.setRecons v).retention = s.retention := rfl
@[simp] theorem State.setRecons_scanner (v : Table Recon) : (s.setRecons v).scanner = s.scanner := rfl
@[simp] theorem State.setRecons_audit (v : Table Recon) : (s.setRecons v).audit = s.audit := rfl
@[simp] theorem State.setRecons_journal (v : Table Recon) : (s.setRecons v).journal = s.journal := rfl
@[simp] theorem State.setRecons_ports (v : Table Recon) : (s.setRecons v).ports = s.ports := rfl
@[simp] theorem State.setRecons_arbiter (v : Table Recon) : (s.setRecons v).arbiter = s.arbiter := rfl
@[simp] theorem State.setRecons_boot (v : Table Recon) : (s.setRecons v).boot = s.boot := rfl

/-! ## `stager` replaced -/

@[simp] theorem State.setStager_pending (v : Stager) : (s.setStager v).pending = s.pending := rfl
@[simp] theorem State.setStager_out (v : Stager) : (s.setStager v).out = s.out := rfl
@[simp] theorem State.setStager_power (v : Stager) : (s.setStager v).power = s.power := rfl
@[simp] theorem State.setStager_straps (v : Stager) : (s.setStager v).straps = s.straps := rfl
@[simp] theorem State.setStager_settings (v : Stager) : (s.setStager v).settings = s.settings := rfl
@[simp] theorem State.setStager_flash (v : Stager) : (s.setStager v).flash = s.flash := rfl
@[simp] theorem State.setStager_streams (v : Stager) : (s.setStager v).streams = s.streams := rfl
@[simp] theorem State.setStager_files (v : Stager) : (s.setStager v).files = s.files := rfl
@[simp] theorem State.setStager_recons (v : Stager) : (s.setStager v).recons = s.recons := rfl
@[simp] theorem State.setStager_stager (v : Stager) : (s.setStager v).stager = v := rfl
@[simp] theorem State.setStager_store (v : Stager) : (s.setStager v).store = s.store := rfl
@[simp] theorem State.setStager_catalogue (v : Stager) : (s.setStager v).catalogue = s.catalogue := rfl
@[simp] theorem State.setStager_clock (v : Stager) : (s.setStager v).clock = s.clock := rfl
@[simp] theorem State.setStager_retention (v : Stager) : (s.setStager v).retention = s.retention := rfl
@[simp] theorem State.setStager_scanner (v : Stager) : (s.setStager v).scanner = s.scanner := rfl
@[simp] theorem State.setStager_audit (v : Stager) : (s.setStager v).audit = s.audit := rfl
@[simp] theorem State.setStager_journal (v : Stager) : (s.setStager v).journal = s.journal := rfl
@[simp] theorem State.setStager_ports (v : Stager) : (s.setStager v).ports = s.ports := rfl
@[simp] theorem State.setStager_arbiter (v : Stager) : (s.setStager v).arbiter = s.arbiter := rfl
@[simp] theorem State.setStager_boot (v : Stager) : (s.setStager v).boot = s.boot := rfl

/-! ## `store` replaced -/

@[simp] theorem State.setStore_pending (v : Store) : (s.setStore v).pending = s.pending := rfl
@[simp] theorem State.setStore_out (v : Store) : (s.setStore v).out = s.out := rfl
@[simp] theorem State.setStore_power (v : Store) : (s.setStore v).power = s.power := rfl
@[simp] theorem State.setStore_straps (v : Store) : (s.setStore v).straps = s.straps := rfl
@[simp] theorem State.setStore_settings (v : Store) : (s.setStore v).settings = s.settings := rfl
@[simp] theorem State.setStore_flash (v : Store) : (s.setStore v).flash = s.flash := rfl
@[simp] theorem State.setStore_streams (v : Store) : (s.setStore v).streams = s.streams := rfl
@[simp] theorem State.setStore_files (v : Store) : (s.setStore v).files = s.files := rfl
@[simp] theorem State.setStore_recons (v : Store) : (s.setStore v).recons = s.recons := rfl
@[simp] theorem State.setStore_stager (v : Store) : (s.setStore v).stager = s.stager := rfl
@[simp] theorem State.setStore_store (v : Store) : (s.setStore v).store = v := rfl
@[simp] theorem State.setStore_catalogue (v : Store) : (s.setStore v).catalogue = s.catalogue := rfl
@[simp] theorem State.setStore_clock (v : Store) : (s.setStore v).clock = s.clock := rfl
@[simp] theorem State.setStore_retention (v : Store) : (s.setStore v).retention = s.retention := rfl
@[simp] theorem State.setStore_scanner (v : Store) : (s.setStore v).scanner = s.scanner := rfl
@[simp] theorem State.setStore_audit (v : Store) : (s.setStore v).audit = s.audit := rfl
@[simp] theorem State.setStore_journal (v : Store) : (s.setStore v).journal = s.journal := rfl
@[simp] theorem State.setStore_ports (v : Store) : (s.setStore v).ports = s.ports := rfl
@[simp] theorem State.setStore_arbiter (v : Store) : (s.setStore v).arbiter = s.arbiter := rfl
@[simp] theorem State.setStore_boot (v : Store) : (s.setStore v).boot = s.boot := rfl

/-! ## `catalogue` replaced -/

@[simp] theorem State.setCatalogue_pending (v : Table Entry) : (s.setCatalogue v).pending = s.pending := rfl
@[simp] theorem State.setCatalogue_out (v : Table Entry) : (s.setCatalogue v).out = s.out := rfl
@[simp] theorem State.setCatalogue_power (v : Table Entry) : (s.setCatalogue v).power = s.power := rfl
@[simp] theorem State.setCatalogue_straps (v : Table Entry) : (s.setCatalogue v).straps = s.straps := rfl
@[simp] theorem State.setCatalogue_settings (v : Table Entry) : (s.setCatalogue v).settings = s.settings := rfl
@[simp] theorem State.setCatalogue_flash (v : Table Entry) : (s.setCatalogue v).flash = s.flash := rfl
@[simp] theorem State.setCatalogue_streams (v : Table Entry) : (s.setCatalogue v).streams = s.streams := rfl
@[simp] theorem State.setCatalogue_files (v : Table Entry) : (s.setCatalogue v).files = s.files := rfl
@[simp] theorem State.setCatalogue_recons (v : Table Entry) : (s.setCatalogue v).recons = s.recons := rfl
@[simp] theorem State.setCatalogue_stager (v : Table Entry) : (s.setCatalogue v).stager = s.stager := rfl
@[simp] theorem State.setCatalogue_store (v : Table Entry) : (s.setCatalogue v).store = s.store := rfl
@[simp] theorem State.setCatalogue_catalogue (v : Table Entry) : (s.setCatalogue v).catalogue = v := rfl
@[simp] theorem State.setCatalogue_clock (v : Table Entry) : (s.setCatalogue v).clock = s.clock := rfl
@[simp] theorem State.setCatalogue_retention (v : Table Entry) : (s.setCatalogue v).retention = s.retention := rfl
@[simp] theorem State.setCatalogue_scanner (v : Table Entry) : (s.setCatalogue v).scanner = s.scanner := rfl
@[simp] theorem State.setCatalogue_audit (v : Table Entry) : (s.setCatalogue v).audit = s.audit := rfl
@[simp] theorem State.setCatalogue_journal (v : Table Entry) : (s.setCatalogue v).journal = s.journal := rfl
@[simp] theorem State.setCatalogue_ports (v : Table Entry) : (s.setCatalogue v).ports = s.ports := rfl
@[simp] theorem State.setCatalogue_arbiter (v : Table Entry) : (s.setCatalogue v).arbiter = s.arbiter := rfl
@[simp] theorem State.setCatalogue_boot (v : Table Entry) : (s.setCatalogue v).boot = s.boot := rfl

/-! ## `clock` replaced -/

@[simp] theorem State.setClock_pending (v : Clock) : (s.setClock v).pending = s.pending := rfl
@[simp] theorem State.setClock_out (v : Clock) : (s.setClock v).out = s.out := rfl
@[simp] theorem State.setClock_power (v : Clock) : (s.setClock v).power = s.power := rfl
@[simp] theorem State.setClock_straps (v : Clock) : (s.setClock v).straps = s.straps := rfl
@[simp] theorem State.setClock_settings (v : Clock) : (s.setClock v).settings = s.settings := rfl
@[simp] theorem State.setClock_flash (v : Clock) : (s.setClock v).flash = s.flash := rfl
@[simp] theorem State.setClock_streams (v : Clock) : (s.setClock v).streams = s.streams := rfl
@[simp] theorem State.setClock_files (v : Clock) : (s.setClock v).files = s.files := rfl
@[simp] theorem State.setClock_recons (v : Clock) : (s.setClock v).recons = s.recons := rfl
@[simp] theorem State.setClock_stager (v : Clock) : (s.setClock v).stager = s.stager := rfl
@[simp] theorem State.setClock_store (v : Clock) : (s.setClock v).store = s.store := rfl
@[simp] theorem State.setClock_catalogue (v : Clock) : (s.setClock v).catalogue = s.catalogue := rfl
@[simp] theorem State.setClock_clock (v : Clock) : (s.setClock v).clock = v := rfl
@[simp] theorem State.setClock_retention (v : Clock) : (s.setClock v).retention = s.retention := rfl
@[simp] theorem State.setClock_scanner (v : Clock) : (s.setClock v).scanner = s.scanner := rfl
@[simp] theorem State.setClock_audit (v : Clock) : (s.setClock v).audit = s.audit := rfl
@[simp] theorem State.setClock_journal (v : Clock) : (s.setClock v).journal = s.journal := rfl
@[simp] theorem State.setClock_ports (v : Clock) : (s.setClock v).ports = s.ports := rfl
@[simp] theorem State.setClock_arbiter (v : Clock) : (s.setClock v).arbiter = s.arbiter := rfl
@[simp] theorem State.setClock_boot (v : Clock) : (s.setClock v).boot = s.boot := rfl

/-! ## `retention` replaced -/

@[simp] theorem State.setRetention_pending (v : Retention) : (s.setRetention v).pending = s.pending := rfl
@[simp] theorem State.setRetention_out (v : Retention) : (s.setRetention v).out = s.out := rfl
@[simp] theorem State.setRetention_power (v : Retention) : (s.setRetention v).power = s.power := rfl
@[simp] theorem State.setRetention_straps (v : Retention) : (s.setRetention v).straps = s.straps := rfl
@[simp] theorem State.setRetention_settings (v : Retention) : (s.setRetention v).settings = s.settings := rfl
@[simp] theorem State.setRetention_flash (v : Retention) : (s.setRetention v).flash = s.flash := rfl
@[simp] theorem State.setRetention_streams (v : Retention) : (s.setRetention v).streams = s.streams := rfl
@[simp] theorem State.setRetention_files (v : Retention) : (s.setRetention v).files = s.files := rfl
@[simp] theorem State.setRetention_recons (v : Retention) : (s.setRetention v).recons = s.recons := rfl
@[simp] theorem State.setRetention_stager (v : Retention) : (s.setRetention v).stager = s.stager := rfl
@[simp] theorem State.setRetention_store (v : Retention) : (s.setRetention v).store = s.store := rfl
@[simp] theorem State.setRetention_catalogue (v : Retention) : (s.setRetention v).catalogue = s.catalogue := rfl
@[simp] theorem State.setRetention_clock (v : Retention) : (s.setRetention v).clock = s.clock := rfl
@[simp] theorem State.setRetention_retention (v : Retention) : (s.setRetention v).retention = v := rfl
@[simp] theorem State.setRetention_scanner (v : Retention) : (s.setRetention v).scanner = s.scanner := rfl
@[simp] theorem State.setRetention_audit (v : Retention) : (s.setRetention v).audit = s.audit := rfl
@[simp] theorem State.setRetention_journal (v : Retention) : (s.setRetention v).journal = s.journal := rfl
@[simp] theorem State.setRetention_ports (v : Retention) : (s.setRetention v).ports = s.ports := rfl
@[simp] theorem State.setRetention_arbiter (v : Retention) : (s.setRetention v).arbiter = s.arbiter := rfl
@[simp] theorem State.setRetention_boot (v : Retention) : (s.setRetention v).boot = s.boot := rfl

/-! ## `scanner` replaced -/

@[simp] theorem State.setScanner_pending (v : Scanner) : (s.setScanner v).pending = s.pending := rfl
@[simp] theorem State.setScanner_out (v : Scanner) : (s.setScanner v).out = s.out := rfl
@[simp] theorem State.setScanner_power (v : Scanner) : (s.setScanner v).power = s.power := rfl
@[simp] theorem State.setScanner_straps (v : Scanner) : (s.setScanner v).straps = s.straps := rfl
@[simp] theorem State.setScanner_settings (v : Scanner) : (s.setScanner v).settings = s.settings := rfl
@[simp] theorem State.setScanner_flash (v : Scanner) : (s.setScanner v).flash = s.flash := rfl
@[simp] theorem State.setScanner_streams (v : Scanner) : (s.setScanner v).streams = s.streams := rfl
@[simp] theorem State.setScanner_files (v : Scanner) : (s.setScanner v).files = s.files := rfl
@[simp] theorem State.setScanner_recons (v : Scanner) : (s.setScanner v).recons = s.recons := rfl
@[simp] theorem State.setScanner_stager (v : Scanner) : (s.setScanner v).stager = s.stager := rfl
@[simp] theorem State.setScanner_store (v : Scanner) : (s.setScanner v).store = s.store := rfl
@[simp] theorem State.setScanner_catalogue (v : Scanner) : (s.setScanner v).catalogue = s.catalogue := rfl
@[simp] theorem State.setScanner_clock (v : Scanner) : (s.setScanner v).clock = s.clock := rfl
@[simp] theorem State.setScanner_retention (v : Scanner) : (s.setScanner v).retention = s.retention := rfl
@[simp] theorem State.setScanner_scanner (v : Scanner) : (s.setScanner v).scanner = v := rfl
@[simp] theorem State.setScanner_audit (v : Scanner) : (s.setScanner v).audit = s.audit := rfl
@[simp] theorem State.setScanner_journal (v : Scanner) : (s.setScanner v).journal = s.journal := rfl
@[simp] theorem State.setScanner_ports (v : Scanner) : (s.setScanner v).ports = s.ports := rfl
@[simp] theorem State.setScanner_arbiter (v : Scanner) : (s.setScanner v).arbiter = s.arbiter := rfl
@[simp] theorem State.setScanner_boot (v : Scanner) : (s.setScanner v).boot = s.boot := rfl

/-! ## `audit` replaced -/

@[simp] theorem State.setAudit_pending (v : Audit) : (s.setAudit v).pending = s.pending := rfl
@[simp] theorem State.setAudit_out (v : Audit) : (s.setAudit v).out = s.out := rfl
@[simp] theorem State.setAudit_power (v : Audit) : (s.setAudit v).power = s.power := rfl
@[simp] theorem State.setAudit_straps (v : Audit) : (s.setAudit v).straps = s.straps := rfl
@[simp] theorem State.setAudit_settings (v : Audit) : (s.setAudit v).settings = s.settings := rfl
@[simp] theorem State.setAudit_flash (v : Audit) : (s.setAudit v).flash = s.flash := rfl
@[simp] theorem State.setAudit_streams (v : Audit) : (s.setAudit v).streams = s.streams := rfl
@[simp] theorem State.setAudit_files (v : Audit) : (s.setAudit v).files = s.files := rfl
@[simp] theorem State.setAudit_recons (v : Audit) : (s.setAudit v).recons = s.recons := rfl
@[simp] theorem State.setAudit_stager (v : Audit) : (s.setAudit v).stager = s.stager := rfl
@[simp] theorem State.setAudit_store (v : Audit) : (s.setAudit v).store = s.store := rfl
@[simp] theorem State.setAudit_catalogue (v : Audit) : (s.setAudit v).catalogue = s.catalogue := rfl
@[simp] theorem State.setAudit_clock (v : Audit) : (s.setAudit v).clock = s.clock := rfl
@[simp] theorem State.setAudit_retention (v : Audit) : (s.setAudit v).retention = s.retention := rfl
@[simp] theorem State.setAudit_scanner (v : Audit) : (s.setAudit v).scanner = s.scanner := rfl
@[simp] theorem State.setAudit_audit (v : Audit) : (s.setAudit v).audit = v := rfl
@[simp] theorem State.setAudit_journal (v : Audit) : (s.setAudit v).journal = s.journal := rfl
@[simp] theorem State.setAudit_ports (v : Audit) : (s.setAudit v).ports = s.ports := rfl
@[simp] theorem State.setAudit_arbiter (v : Audit) : (s.setAudit v).arbiter = s.arbiter := rfl
@[simp] theorem State.setAudit_boot (v : Audit) : (s.setAudit v).boot = s.boot := rfl

/-! ## `journal` replaced -/

@[simp] theorem State.setJournal_pending (v : Journal) : (s.setJournal v).pending = s.pending := rfl
@[simp] theorem State.setJournal_out (v : Journal) : (s.setJournal v).out = s.out := rfl
@[simp] theorem State.setJournal_power (v : Journal) : (s.setJournal v).power = s.power := rfl
@[simp] theorem State.setJournal_straps (v : Journal) : (s.setJournal v).straps = s.straps := rfl
@[simp] theorem State.setJournal_settings (v : Journal) : (s.setJournal v).settings = s.settings := rfl
@[simp] theorem State.setJournal_flash (v : Journal) : (s.setJournal v).flash = s.flash := rfl
@[simp] theorem State.setJournal_streams (v : Journal) : (s.setJournal v).streams = s.streams := rfl
@[simp] theorem State.setJournal_files (v : Journal) : (s.setJournal v).files = s.files := rfl
@[simp] theorem State.setJournal_recons (v : Journal) : (s.setJournal v).recons = s.recons := rfl
@[simp] theorem State.setJournal_stager (v : Journal) : (s.setJournal v).stager = s.stager := rfl
@[simp] theorem State.setJournal_store (v : Journal) : (s.setJournal v).store = s.store := rfl
@[simp] theorem State.setJournal_catalogue (v : Journal) : (s.setJournal v).catalogue = s.catalogue := rfl
@[simp] theorem State.setJournal_clock (v : Journal) : (s.setJournal v).clock = s.clock := rfl
@[simp] theorem State.setJournal_retention (v : Journal) : (s.setJournal v).retention = s.retention := rfl
@[simp] theorem State.setJournal_scanner (v : Journal) : (s.setJournal v).scanner = s.scanner := rfl
@[simp] theorem State.setJournal_audit (v : Journal) : (s.setJournal v).audit = s.audit := rfl
@[simp] theorem State.setJournal_journal (v : Journal) : (s.setJournal v).journal = v := rfl
@[simp] theorem State.setJournal_ports (v : Journal) : (s.setJournal v).ports = s.ports := rfl
@[simp] theorem State.setJournal_arbiter (v : Journal) : (s.setJournal v).arbiter = s.arbiter := rfl
@[simp] theorem State.setJournal_boot (v : Journal) : (s.setJournal v).boot = s.boot := rfl

/-! ## `ports` replaced -/

@[simp] theorem State.setPorts_pending (v : Vector Port 4) : (s.setPorts v).pending = s.pending := rfl
@[simp] theorem State.setPorts_out (v : Vector Port 4) : (s.setPorts v).out = s.out := rfl
@[simp] theorem State.setPorts_power (v : Vector Port 4) : (s.setPorts v).power = s.power := rfl
@[simp] theorem State.setPorts_straps (v : Vector Port 4) : (s.setPorts v).straps = s.straps := rfl
@[simp] theorem State.setPorts_settings (v : Vector Port 4) : (s.setPorts v).settings = s.settings := rfl
@[simp] theorem State.setPorts_flash (v : Vector Port 4) : (s.setPorts v).flash = s.flash := rfl
@[simp] theorem State.setPorts_streams (v : Vector Port 4) : (s.setPorts v).streams = s.streams := rfl
@[simp] theorem State.setPorts_files (v : Vector Port 4) : (s.setPorts v).files = s.files := rfl
@[simp] theorem State.setPorts_recons (v : Vector Port 4) : (s.setPorts v).recons = s.recons := rfl
@[simp] theorem State.setPorts_stager (v : Vector Port 4) : (s.setPorts v).stager = s.stager := rfl
@[simp] theorem State.setPorts_store (v : Vector Port 4) : (s.setPorts v).store = s.store := rfl
@[simp] theorem State.setPorts_catalogue (v : Vector Port 4) : (s.setPorts v).catalogue = s.catalogue := rfl
@[simp] theorem State.setPorts_clock (v : Vector Port 4) : (s.setPorts v).clock = s.clock := rfl
@[simp] theorem State.setPorts_retention (v : Vector Port 4) : (s.setPorts v).retention = s.retention := rfl
@[simp] theorem State.setPorts_scanner (v : Vector Port 4) : (s.setPorts v).scanner = s.scanner := rfl
@[simp] theorem State.setPorts_audit (v : Vector Port 4) : (s.setPorts v).audit = s.audit := rfl
@[simp] theorem State.setPorts_journal (v : Vector Port 4) : (s.setPorts v).journal = s.journal := rfl
@[simp] theorem State.setPorts_ports (v : Vector Port 4) : (s.setPorts v).ports = v := rfl
@[simp] theorem State.setPorts_arbiter (v : Vector Port 4) : (s.setPorts v).arbiter = s.arbiter := rfl
@[simp] theorem State.setPorts_boot (v : Vector Port 4) : (s.setPorts v).boot = s.boot := rfl

/-! ## `arbiter` replaced -/

@[simp] theorem State.setArbiter_pending (v : Arbiter) : (s.setArbiter v).pending = s.pending := rfl
@[simp] theorem State.setArbiter_out (v : Arbiter) : (s.setArbiter v).out = s.out := rfl
@[simp] theorem State.setArbiter_power (v : Arbiter) : (s.setArbiter v).power = s.power := rfl
@[simp] theorem State.setArbiter_straps (v : Arbiter) : (s.setArbiter v).straps = s.straps := rfl
@[simp] theorem State.setArbiter_settings (v : Arbiter) : (s.setArbiter v).settings = s.settings := rfl
@[simp] theorem State.setArbiter_flash (v : Arbiter) : (s.setArbiter v).flash = s.flash := rfl
@[simp] theorem State.setArbiter_streams (v : Arbiter) : (s.setArbiter v).streams = s.streams := rfl
@[simp] theorem State.setArbiter_files (v : Arbiter) : (s.setArbiter v).files = s.files := rfl
@[simp] theorem State.setArbiter_recons (v : Arbiter) : (s.setArbiter v).recons = s.recons := rfl
@[simp] theorem State.setArbiter_stager (v : Arbiter) : (s.setArbiter v).stager = s.stager := rfl
@[simp] theorem State.setArbiter_store (v : Arbiter) : (s.setArbiter v).store = s.store := rfl
@[simp] theorem State.setArbiter_catalogue (v : Arbiter) : (s.setArbiter v).catalogue = s.catalogue := rfl
@[simp] theorem State.setArbiter_clock (v : Arbiter) : (s.setArbiter v).clock = s.clock := rfl
@[simp] theorem State.setArbiter_retention (v : Arbiter) : (s.setArbiter v).retention = s.retention := rfl
@[simp] theorem State.setArbiter_scanner (v : Arbiter) : (s.setArbiter v).scanner = s.scanner := rfl
@[simp] theorem State.setArbiter_audit (v : Arbiter) : (s.setArbiter v).audit = s.audit := rfl
@[simp] theorem State.setArbiter_journal (v : Arbiter) : (s.setArbiter v).journal = s.journal := rfl
@[simp] theorem State.setArbiter_ports (v : Arbiter) : (s.setArbiter v).ports = s.ports := rfl
@[simp] theorem State.setArbiter_arbiter (v : Arbiter) : (s.setArbiter v).arbiter = v := rfl
@[simp] theorem State.setArbiter_boot (v : Arbiter) : (s.setArbiter v).boot = s.boot := rfl

/-! ## `boot` replaced -/

@[simp] theorem State.setBoot_pending (v : Boot) : (s.setBoot v).pending = s.pending := rfl
@[simp] theorem State.setBoot_out (v : Boot) : (s.setBoot v).out = s.out := rfl
@[simp] theorem State.setBoot_power (v : Boot) : (s.setBoot v).power = s.power := rfl
@[simp] theorem State.setBoot_straps (v : Boot) : (s.setBoot v).straps = s.straps := rfl
@[simp] theorem State.setBoot_settings (v : Boot) : (s.setBoot v).settings = s.settings := rfl
@[simp] theorem State.setBoot_flash (v : Boot) : (s.setBoot v).flash = s.flash := rfl
@[simp] theorem State.setBoot_streams (v : Boot) : (s.setBoot v).streams = s.streams := rfl
@[simp] theorem State.setBoot_files (v : Boot) : (s.setBoot v).files = s.files := rfl
@[simp] theorem State.setBoot_recons (v : Boot) : (s.setBoot v).recons = s.recons := rfl
@[simp] theorem State.setBoot_stager (v : Boot) : (s.setBoot v).stager = s.stager := rfl
@[simp] theorem State.setBoot_store (v : Boot) : (s.setBoot v).store = s.store := rfl
@[simp] theorem State.setBoot_catalogue (v : Boot) : (s.setBoot v).catalogue = s.catalogue := rfl
@[simp] theorem State.setBoot_clock (v : Boot) : (s.setBoot v).clock = s.clock := rfl
@[simp] theorem State.setBoot_retention (v : Boot) : (s.setBoot v).retention = s.retention := rfl
@[simp] theorem State.setBoot_scanner (v : Boot) : (s.setBoot v).scanner = s.scanner := rfl
@[simp] theorem State.setBoot_audit (v : Boot) : (s.setBoot v).audit = s.audit := rfl
@[simp] theorem State.setBoot_journal (v : Boot) : (s.setBoot v).journal = s.journal := rfl
@[simp] theorem State.setBoot_ports (v : Boot) : (s.setBoot v).ports = s.ports := rfl
@[simp] theorem State.setBoot_arbiter (v : Boot) : (s.setBoot v).arbiter = s.arbiter := rfl
@[simp] theorem State.setBoot_boot (v : Boot) : (s.setBoot v).boot = v := rfl

end Sys2Proof.Machine
end

