-- ==== Sys2Proof/Laws/Tables.lean ====
section
/-!
SUPPORT. What reading and writing a table, and a vector of four, can do: read after write, what is left alone, and the
canonical form kept.
-/

namespace Sys2Proof.Machine

variable {α β : Type}

/-! ## Read after write -/

@[simp] theorem tget_nil (n : Nat) : tget ([] : Table α) n = none := rfl

theorem tget_cons (k : Nat) (v : α) (t : Table α) (n : Nat) :
    tget ((k, v) :: t) n = if n = k then some v else tget t n := rfl

theorem tget_tput (t : Table α) (n : Nat) (v : α) (m : Nat) : tget (tput t n v) m = if m = n then some v else tget t m := by
  induction t with
  | nil => simp [tput, tget_cons]
  | cons p t ih =>
    obtain ⟨k, w⟩ := p
    simp only [tput]
    split
    · simp [tget_cons]
    · split
      · rename_i h; subst h; simp only [tget_cons]; split <;> rfl
      · simp only [tget_cons, ih]; split <;> rename_i h
        · subst h; rw [if_neg (by omega)]
        · rfl

@[simp] theorem tget_tput_self (t : Table α) (n : Nat) (v : α) : tget (tput t n v) n = some v := by simp [tget_tput]

theorem tget_tput_of_ne {n m : Nat} (h : m ≠ n) (t : Table α) (v : α) : tget (tput t n v) m = tget t m := by
  simp [tget_tput, h]

theorem tget_tdel (t : Table α) (n m : Nat) : tget (tdel t n) m = if m = n then none else tget t m := by
  induction t with
  | nil => simp [tdel]
  | cons p t ih =>
    obtain ⟨k, w⟩ := p
    simp only [tdel]
    split <;> rename_i h
    · subst h; simp only [ih, tget_cons]; split <;> rfl
    · simp only [tget_cons, ih]; split <;> rename_i h'
      · subst h'; rw [if_neg (by omega)]
      · rfl

@[simp] theorem tget_tdel_self (t : Table α) (n : Nat) : tget (tdel t n) n = none := by simp [tget_tdel]

theorem tget_tmod (t : Table α) (n : Nat) (f : α → α) (m : Nat) :
    tget (tmod t n f) m = if m = n then (tget t n).map f else tget t m := by
  unfold tmod
  split <;> rename_i h
  · simp [tget_tput, h]
  · split <;> rename_i h'
    · subst h'; simp [h]
    · rfl

theorem tget_map (t : Table α) (f : α → β) (n : Nat) : tget (t.map (fun p => (p.1, f p.2))) n = (tget t n).map f := by
  induction t with
  | nil => rfl
  | cons p t ih =>
    simp only [List.map_cons, tget_cons, ih]
    obtain ⟨k, w⟩ := p
    simp only [tget_cons]; split <;> rfl

/-! ## Membership -/

theorem mem_of_tget {t : Table α} {n : Nat} {v : α} (h : tget t n = some v) : (n, v) ∈ t := by
  induction t with
  | nil => simp at h
  | cons p t ih =>
    obtain ⟨k, w⟩ := p
    rw [tget_cons] at h
    split at h
    · rename_i e; subst e; cases h; simp
    · exact List.mem_cons_of_mem _ (ih h)

theorem tget_none_iff {t : Table α} {n : Nat} : tget t n = none ↔ ∀ p ∈ t, p.1 ≠ n := by
  induction t with
  | nil => simp
  | cons p t ih =>
    obtain ⟨k, w⟩ := p
    rw [tget_cons]
    constructor
    · intro h
      split at h
      · cases h
      · rename_i e; simpa using ⟨fun x => e x.symm, fun a b hm => (ih.mp h) (a, b) hm⟩
    · intro h
      rw [if_neg (fun e => h (k, w) (by simp) e.symm)]
      exact ih.mpr (fun p hp => h p (List.mem_cons_of_mem _ hp))

/-! ## The canonical form -/

theorem rising_iff_pairwise (t : Table α) : Table.rising t = true ↔ (t.map Prod.fst).Pairwise (· < ·) := by
  induction t with
  | nil => simp [Table.rising]
  | cons p t ih =>
    cases t with
    | nil => simp [Table.rising]
    | cons q t =>
      obtain ⟨k, v⟩ := p
      obtain ⟨l, w⟩ := q
      rw [Table.rising, Bool.and_eq_true, decide_eq_true_eq, ih]
      simp only [List.map_cons, List.pairwise_cons, List.mem_cons, forall_eq_or_imp]
      constructor
      · rintro ⟨h, h1, h2⟩
        exact ⟨⟨h, fun a ha => lt_trans h (h1 a ha)⟩, h1, h2⟩
      · rintro ⟨⟨h, _⟩, h1, h2⟩
        exact ⟨h, h1, h2⟩

theorem tget_of_mem {t : Table α} (h : Table.rising t = true) {n : Nat} {v : α} (hm : (n, v) ∈ t) : tget t n = some v := by
  rw [rising_iff_pairwise] at h
  induction t with
  | nil => simp at hm
  | cons p t ih =>
    obtain ⟨k, w⟩ := p
    simp only [List.map_cons, List.pairwise_cons] at h
    rcases List.mem_cons.mp hm with e | e
    · cases e; simp [tget_cons]
    · rw [tget_cons, if_neg (by have := h.1 n (List.mem_map.mpr ⟨_, e, rfl⟩); omega)]
      exact ih h.2 e

theorem mem_iff_tget {t : Table α} (h : Table.rising t = true) (n : Nat) (v : α) : (n, v) ∈ t ↔ tget t n = some v :=
  ⟨tget_of_mem h, mem_of_tget⟩

theorem key_mem_tput {t : Table α} {n : Nat} {v : α} {k : Nat} (h : k ∈ (tput t n v).map Prod.fst) :
    k = n ∨ k ∈ t.map Prod.fst := by
  induction t with
  | nil => simpa [tput] using h
  | cons p t ih =>
    obtain ⟨l, w⟩ := p
    simp only [tput] at h
    split at h
    · simpa using h
    · split at h
      · rename_i e; subst e; simp only [List.map_cons, List.mem_cons] at h ⊢; tauto
      · simp only [List.map_cons, List.mem_cons] at h ⊢
        rcases h with h | h
        · exact .inr (.inl h)
        · rcases ih h with h | h <;> tauto

theorem rising_tput {t : Table α} (h : Table.rising t = true) (n : Nat) (v : α) : Table.rising (tput t n v) = true := by
  rw [rising_iff_pairwise] at h ⊢
  induction t with
  | nil => simp [tput]
  | cons p t ih =>
    obtain ⟨k, w⟩ := p
    simp only [List.map_cons, List.pairwise_cons] at h
    simp only [tput]
    split
    · rename_i e
      simp only [List.map_cons, List.pairwise_cons, List.mem_cons, forall_eq_or_imp]
      exact ⟨⟨e, fun a ha => lt_trans e (h.1 a ha)⟩, h⟩
    · split
      · rename_i e; subst e; simpa using h
      · simp only [List.map_cons, List.pairwise_cons]
        refine ⟨fun a ha => ?_, ih h.2⟩
        rcases key_mem_tput ha with e | e
        · omega
        · exact h.1 a e

theorem tdel_eq_filter (t : Table α) (n : Nat) : tdel t n = t.filter (fun p => decide (p.1 ≠ n)) := by
  induction t with
  | nil => rfl
  | cons p t ih =>
    obtain ⟨k, w⟩ := p
    simp only [tdel, List.filter_cons, ih]
    by_cases h : n = k
    · simp [h]
    · simp [h, Ne.symm h]

theorem rising_filter {t : Table α} (h : Table.rising t = true) (f : Nat × α → Bool) : Table.rising (t.filter f) = true := by
  rw [rising_iff_pairwise] at h ⊢
  exact h.sublist (List.filter_sublist.map _)

theorem rising_tdel {t : Table α} (h : Table.rising t = true) (n : Nat) : Table.rising (tdel t n) = true := by
  rw [tdel_eq_filter]; exact rising_filter h _

theorem rising_tmod {t : Table α} (h : Table.rising t = true) (n : Nat) (f : α → α) : Table.rising (tmod t n f) = true := by
  unfold tmod
  split
  · exact rising_tput h n _
  · exact h

theorem rising_map {t : Table α} (h : Table.rising t = true) (f : α → β) :
    Table.rising (t.map (fun p => (p.1, f p.2))) = true := by
  rw [rising_iff_pairwise] at h ⊢
  simpa [List.map_map, Function.comp_def] using h

/-- Two tables in canonical form that read alike are one table. -/
theorem table_ext {t u : Table α} (ht : Table.rising t = true) (hu : Table.rising u = true)
    (h : ∀ n, tget t n = tget u n) : t = u := by
  rw [rising_iff_pairwise] at ht hu
  have nd : ∀ {x : Table α}, (x.map Prod.fst).Pairwise (· < ·) → x.Pairwise (fun a b => a.1 < b.1) := fun hx =>
    List.pairwise_map.mp hx
  refine List.Perm.eq_of_pairwise (le := fun a b => a.1 < b.1) (fun a b _ _ h1 h2 => by omega) (nd ht) (nd hu) ?_
  have key : ∀ {x : Table α}, (x.map Prod.fst).Pairwise (· < ·) → x.Nodup := fun hx =>
    (nd hx).imp (fun h e => by subst e; omega)
  rw [List.perm_ext_iff_of_nodup (key ht) (key hu)]
  rintro ⟨n, v⟩
  rw [mem_iff_tget ((rising_iff_pairwise t).mpr ht), mem_iff_tget ((rising_iff_pairwise u).mpr hu), h]

/-! ## The lowest free number -/

theorem lowestAbsent_ge (t : Table α) (n : Nat) : n ≤ lowestAbsent t n := by
  induction t generalizing n with
  | nil => exact le_refl n
  | cons p t ih =>
    obtain ⟨k, w⟩ := p
    simp only [lowestAbsent]
    split
    · exact le_refl n
    · split
      · exact le_trans (Nat.le_succ n) (ih (n + 1))
      · exact ih n

/-- What the lowest absent number is: absent, with every number between listed. -/
theorem lowestAbsent_spec {t : Table α} (h : Table.rising t = true) (n : Nat) :
    tget t (lowestAbsent t n) = none ∧ ∀ m, n ≤ m → m < lowestAbsent t n → tget t m ≠ none := by
  rw [rising_iff_pairwise] at h
  induction t generalizing n with
  | nil => exact ⟨rfl, fun m h1 h2 => by simp only [lowestAbsent] at h2; omega⟩
  | cons p t ih =>
    obtain ⟨k, w⟩ := p
    simp only [List.map_cons, List.pairwise_cons] at h
    simp only [lowestAbsent]
    split
    · rename_i e
      refine ⟨?_, fun m h1 h2 => by omega⟩
      rw [tget_none_iff]
      rintro ⟨l, v⟩ hm
      rcases List.mem_cons.mp hm with e' | e'
      · cases e'; simp; omega
      · have := h.1 l (List.mem_map.mpr ⟨_, e', rfl⟩); simp; omega
    · split <;> rename_i e1 e2
      · subst e2
        have ih' := ih h.2 (n + 1)
        have ge := lowestAbsent_ge t (n + 1)
        refine ⟨?_, fun m h1 h2 => ?_⟩
        · rw [tget_cons, if_neg (by omega)]; exact ih'.1
        · rw [tget_cons]; split
          · simp
          · exact ih'.2 m (by omega) h2
      · have ih' := ih h.2 n
        have ge := lowestAbsent_ge t n
        refine ⟨?_, fun m h1 h2 => ?_⟩
        · rw [tget_cons]; rw [if_neg (by omega)]; exact ih'.1
        · rw [tget_cons]; split
          · simp
          · exact ih'.2 m h1 h2

/-- What the lowest free number of a table of a size is. -/
theorem lowestFree_spec {t : Table α} (h : Table.rising t = true) (bound k : Nat) :
    lowestFree t bound = some k ↔ k < bound ∧ tget t k = none ∧ ∀ m, m < k → tget t m ≠ none := by
  have sp := lowestAbsent_spec h 0
  unfold lowestFree
  constructor
  · intro e
    split at e
    · cases e; exact ⟨by assumption, sp.1, fun m hm => sp.2 m (Nat.zero_le m) hm⟩
    · cases e
  · rintro ⟨h1, h2, h3⟩
    have e : lowestAbsent t 0 = k := by
      rcases Nat.lt_trichotomy (lowestAbsent t 0) k with l | l | l
      · exact absurd sp.1 (h3 _ l)
      · exact l
      · exact absurd h2 (sp.2 k (Nat.zero_le k) l)
    rw [e, if_pos h1]

theorem lowestFree_none {t : Table α} (h : Table.rising t = true) (bound : Nat) :
    lowestFree t bound = none ↔ ∀ k, k < bound → tget t k ≠ none := by
  have sp := lowestAbsent_spec h 0
  unfold lowestFree
  constructor
  · intro e k hk
    split at e
    · cases e
    · exact sp.2 k (Nat.zero_le k) (by omega)
  · intro e
    rw [if_neg]
    intro hb
    exact e _ hb sp.1

/-! ## Vectors -/

@[simp] theorem vset_get_self {n : Nat} (v : Vector α n) (i : Fin n) (x : α) : (vset v i x)[i.val] = x := by simp [vset]

theorem vset_get_of_ne {n : Nat} (v : Vector α n) {i j : Fin n} (h : j ≠ i) (x : α) : (vset v i x)[j.val] = v[j.val] := by
  simp only [vset]; rw [Vector.getElem_set_ne]; intro e; exact h (Fin.ext e.symm)

@[simp] theorem vmod_get_self {n : Nat} (v : Vector α n) (i : Fin n) (f : α → α) : (vmod v i f)[i.val] = f v[i.val] := by
  simp [vmod]

theorem vmod_get_of_ne {n : Nat} (v : Vector α n) {i j : Fin n} (h : j ≠ i) (f : α → α) : (vmod v i f)[j.val] = v[j.val] := by
  simp only [vmod]; rw [Vector.getElem_set_ne]; intro e; exact h (Fin.ext e.symm)

theorem vmod_eq_vset {n : Nat} (v : Vector α n) (i : Fin n) (f : α → α) : vmod v i f = vset v i (f v[i.val]) := rfl

@[simp] theorem mem_four (p : Fin 4) : p ∈ four := by revert p; decide

end Sys2Proof.Machine
end

