-- ==== Sys2Proof/Laws/Frames.lean ====
section
/-!
SUPPORT. What each shared operation over the state leaves unchanged, and what those on ports, chains, catalogue entries and
queues do.
-/

namespace Sys2Proof.Machine

/-! ## Frames in general -/

theorem sameBut_refl (l : List Part) (s : State) : s.sameBut l s := fun p _ => by cases p <;> rfl

theorem sameBut_trans {l : List Part} {s t u : State} (h : s.sameBut l t) (k : t.sameBut l u) : s.sameBut l u :=
  fun p hp => by have a := h p hp; have b := k p hp; cases p <;> exact b.trans a

theorem sameBut_mono {l m : List Part} {s t : State} (h : s.sameBut l t) (hs : l.all (fun p => m.contains p) = true) :
    s.sameBut m t := fun p hp => h p (fun hl => hp (by
      have := List.all_eq_true.mp hs p hl
      simpa using this))

/-- One operation after another: both frames lie within the frame of the whole. -/
theorem sameBut_then {l k m : List Part} {s t u : State} (h : s.sameBut l t) (g : t.sameBut k u)
    (hl : l.all (fun p => m.contains p) = true) (hk : k.all (fun p => m.contains p) = true) : s.sameBut m u :=
  sameBut_trans (sameBut_mono h hl) (sameBut_mono g hk)

theorem sameBut_foldl {α : Type} {l : List Part} {f : State → α → State} (h : ∀ (s : State) a, s.sameBut l (f s a)) (xs : List α)
    (s : State) : s.sameBut l (xs.foldl f s) := by
  induction xs generalizing s with
  | nil => exact sameBut_refl l s
  | cons x xs ih => exact sameBut_trans (h s x) (ih (f s x))

theorem sameBut_ite {l : List Part} {s t u : State} {c : Prop} [Decidable c] (h : s.sameBut l t) (k : s.sameBut l u) :
    s.sameBut l (if c then t else u) := by
  split
  · exact h
  · exact k

section
variable {l : List Part} {s t : State}
theorem State.sameBut.pending (h : s.sameBut l t) (n : Part.pending ∉ l) : t.pending = s.pending := h _ n
theorem State.sameBut.out (h : s.sameBut l t) (n : Part.out ∉ l) : t.out = s.out := h _ n
theorem State.sameBut.power (h : s.sameBut l t) (n : Part.power ∉ l) : t.power = s.power := h _ n
theorem State.sameBut.straps (h : s.sameBut l t) (n : Part.straps ∉ l) : t.straps = s.straps := h _ n
theorem State.sameBut.settings (h : s.sameBut l t) (n : Part.settings ∉ l) : t.settings = s.settings := h _ n
theorem State.sameBut.flash (h : s.sameBut l t) (n : Part.flash ∉ l) : t.flash = s.flash := h _ n
theorem State.sameBut.streams (h : s.sameBut l t) (n : Part.streams ∉ l) : t.streams = s.streams := h _ n
theorem State.sameBut.files (h : s.sameBut l t) (n : Part.files ∉ l) : t.files = s.files := h _ n
theorem State.sameBut.recons (h : s.sameBut l t) (n : Part.recons ∉ l) : t.recons = s.recons := h _ n
theorem State.sameBut.stager (h : s.sameBut l t) (n : Part.stager ∉ l) : t.stager = s.stager := h _ n
theorem State.sameBut.store (h : s.sameBut l t) (n : Part.store ∉ l) : t.store = s.store := h _ n
theorem State.sameBut.catalogue (h : s.sameBut l t) (n : Part.catalogue ∉ l) : t.catalogue = s.catalogue := h _ n
theorem State.sameBut.clock (h : s.sameBut l t) (n : Part.clock ∉ l) : t.clock = s.clock := h _ n
theorem State.sameBut.retention (h : s.sameBut l t) (n : Part.retention ∉ l) : t.retention = s.retention := h _ n
theorem State.sameBut.scanner (h : s.sameBut l t) (n : Part.scanner ∉ l) : t.scanner = s.scanner := h _ n
theorem State.sameBut.audit (h : s.sameBut l t) (n : Part.audit ∉ l) : t.audit = s.audit := h _ n
theorem State.sameBut.journal (h : s.sameBut l t) (n : Part.journal ∉ l) : t.journal = s.journal := h _ n
theorem State.sameBut.ports (h : s.sameBut l t) (n : Part.ports ∉ l) : t.ports = s.ports := h _ n
theorem State.sameBut.arbiter (h : s.sameBut l t) (n : Part.arbiter ∉ l) : t.arbiter = s.arbiter := h _ n
theorem State.sameBut.boot (h : s.sameBut l t) (n : Part.boot ∉ l) : t.boot = s.boot := h _ n
end

/-! ## One part of the state written whole -/

section
variable (s : State)
theorem setOut_frame (v) : s.sameBut [.out] (s.setOut v) := fun p h => by cases p <;> first | rfl | simp at h
theorem setPower_frame (v) : s.sameBut [.power] (s.setPower v) := fun p h => by cases p <;> first | rfl | simp at h
theorem setSettings_frame (v) : s.sameBut [.settings] (s.setSettings v) := fun p h => by cases p <;> first | rfl | simp at h
theorem setFlash_frame (v) : s.sameBut [.flash] (s.setFlash v) := fun p h => by cases p <;> first | rfl | simp at h
theorem setStreams_frame (v) : s.sameBut [.streams] (s.setStreams v) := fun p h => by cases p <;> first | rfl | simp at h
theorem setFiles_frame (v) : s.sameBut [.files] (s.setFiles v) := fun p h => by cases p <;> first | rfl | simp at h
theorem setRecons_frame (v) : s.sameBut [.recons] (s.setRecons v) := fun p h => by cases p <;> first | rfl | simp at h
theorem setStager_frame (v) : s.sameBut [.stager] (s.setStager v) := fun p h => by cases p <;> first | rfl | simp at h
theorem setStore_frame (v) : s.sameBut [.store] (s.setStore v) := fun p h => by cases p <;> first | rfl | simp at h
theorem setCatalogue_frame (v) : s.sameBut [.catalogue] (s.setCatalogue v) :=
  fun p h => by cases p <;> first | rfl | simp at h
theorem setClock_frame (v) : s.sameBut [.clock] (s.setClock v) := fun p h => by cases p <;> first | rfl | simp at h
theorem setRetention_frame (v) : s.sameBut [.retention] (s.setRetention v) :=
  fun p h => by cases p <;> first | rfl | simp at h
theorem setScanner_frame (v) : s.sameBut [.scanner] (s.setScanner v) := fun p h => by cases p <;> first | rfl | simp at h
theorem setAudit_frame (v) : s.sameBut [.audit] (s.setAudit v) := fun p h => by cases p <;> first | rfl | simp at h
theorem setJournal_frame (v) : s.sameBut [.journal] (s.setJournal v) := fun p h => by cases p <;> first | rfl | simp at h
theorem setPorts_frame (v) : s.sameBut [.ports] (s.setPorts v) := fun p h => by cases p <;> first | rfl | simp at h
theorem setArbiter_frame (v) : s.sameBut [.arbiter] (s.setArbiter v) := fun p h => by cases p <;> first | rfl | simp at h
theorem setBoot_frame (v) : s.sameBut [.boot] (s.setBoot v) := fun p h => by cases p <;> first | rfl | simp at h
end

/-! ## Ports, chains and notices -/

theorem port_modPort (s : State) (p q : PortId) (f : Port → Port) :
    (s.modPort p f).port q = if q = p then f (s.port p) else s.port q := by
  unfold State.port State.modPort
  simp only [State.setPorts_ports]
  split <;> rename_i h
  · subst h; exact vmod_get_self _ _ _
  · exact vmod_get_of_ne _ h _

theorem modPort_frame (s : State) (p : PortId) (f) : s.sameBut [.ports] (s.modPort p f) := setPorts_frame s _

theorem modChain_frame (s : State) (c : ChainRef) (f) : s.sameBut [.ports] (s.modChain c f) := modPort_frame s _ _

theorem chain_modChain (s : State) (c d : ChainRef) (f : Chain → Chain) :
    (s.modChain c f).chain d = if d = c then f (s.chain c) else s.chain d := by
  obtain ⟨p, k⟩ := c
  obtain ⟨q, m⟩ := d
  unfold State.chain State.modChain
  simp only [port_modPort, ChainRef.mk.injEq]
  by_cases hq : q = p
  · subst hq
    by_cases hm : m = k
    · subst hm; simp
    · simp only [hm, and_false, if_false, if_true]; exact vmod_get_of_ne _ hm _
  · simp [hq]

theorem setJob_frame (s : State) (c : ChainRef) (j) : s.sameBut [.ports] (s.setJob c j) := modChain_frame s _ _

theorem job_setJob (s : State) (c d : ChainRef) (j : Job) :
    (s.setJob c j).job d = if d = c then (s.chain c).desc.map (fun _ => j) else s.job d := by
  unfold State.job State.setJob
  rw [chain_modChain]
  split
  · cases (s.chain c).desc <;> rfl
  · rfl

theorem setChainState_frame (s : State) (c : ChainRef) (st) : s.sameBut [.ports] (s.setChainState c st) :=
  modChain_frame s _ _

theorem job_setChainState (s : State) (c d : ChainRef) (st : ChainState) : (s.setChainState c st).job d = s.job d := by
  unfold State.job State.setChainState
  rw [chain_modChain]
  split
  · rename_i h; subst h; rfl
  · rfl

theorem emit_frame (s : State) (o : Output) : s.sameBut [.out] (s.emit o) := setOut_frame s _

theorem notice_frame (s : State) (p : PortId) (k o) : s.sameBut [.ports, .out] (s.notice p k o) := by
  unfold State.notice
  dsimp only
  have h1 := modPort_frame s p (fun q => q.countNotice (NoticeKind.cls k))
  split
  · split
    · exact sameBut_then (m := [.ports, .out]) (sameBut_then (m := [.ports, .out]) h1 (emit_frame _ _) (by decide) (by decide))
        (emit_frame _ _) (by decide) (by decide)
    · exact sameBut_mono h1 (by decide)
  · exact sameBut_mono h1 (by decide)

/-- What a notice leaves of the ports: the count of its class, one more. -/
theorem port_notice (s : State) (p q : PortId) (k : NoticeKind) (o : NoticeObject) :
    (s.notice p k o).port q = if q = p then (s.port p).countNotice (NoticeKind.cls k) else s.port q := by
  unfold State.notice
  dsimp only
  have h : ∀ t : State, ∀ x, (t.emit x).port q = t.port q := fun _ _ => rfl
  split
  · split
    · rw [h, h, port_modPort]
    · rw [port_modPort]
  · rw [port_modPort]

theorem noticeAll_frame (s : State) (k o) : s.sameBut [.ports, .out] (s.noticeAll k o) :=
  sameBut_foldl (fun s p => notice_frame s p k o) four s

/-! ## Catalogue entries -/

theorem setEntry_frame (s : State) (x : Nat) (e : Entry) : s.sameBut [.catalogue] (s.setEntry x e) := by
  unfold State.setEntry
  exact sameBut_ite (sameBut_refl _ s) (sameBut_ite (setCatalogue_frame s _) (setCatalogue_frame s _))

theorem entry_setEntry (s : State) (x y : Nat) (e : Entry) (h : reservedExtents ≤ x) :
    (s.setEntry x e).entry y = if y = x then e else s.entry y := by
  have hx : ¬ x < reservedExtents := by omega
  unfold State.setEntry State.entry
  by_cases hy : y < reservedExtents
  · have hn : y ≠ x := by omega
    simp only [hy, hx, hn, if_true, if_false]
  · by_cases he : e = Entry.free
    · simp only [hx, hy, he, if_true, if_false, State.setCatalogue_catalogue, tget_tdel]; split <;> rfl
    · simp only [hx, hy, he, if_false, State.setCatalogue_catalogue, tget_tput]; split <;> rfl

theorem modEntry_frame (s : State) (x : Nat) (f) : s.sameBut [.catalogue] (s.modEntry x f) := setEntry_frame s x _

theorem entry_modEntry (s : State) (x y : Nat) (f : Entry → Entry) (h : reservedExtents ≤ x) :
    (s.modEntry x f).entry y = if y = x then f (s.entry x) else s.entry y := entry_setEntry s x y _ h

/-- The catalogue after an entry is replaced lists it, drops it where it is FREE, and keeps its canonical form. -/
theorem rising_setEntry {s : State} (h : Table.rising s.catalogue = true) (x : Nat) (e : Entry) :
    Table.rising (s.setEntry x e).catalogue = true := by
  unfold State.setEntry
  split
  · exact h
  · split
    · exact rising_tdel h x
    · exact rising_tput h x e

/-! ## Channel queues -/

theorem setQueue_frame (s : State) (ch : Channel) (q) : s.sameBut [.store] (s.setQueue ch q) := setStore_frame s _

theorem queue_setQueue (s : State) (ch k : Channel) (q : List StoreOp) :
    (s.setQueue ch q).queue k = if k = ch then q else s.queue k := by
  unfold State.queue State.setQueue
  simp only [State.setStore_store]
  split <;> rename_i h
  · subst h; exact vset_get_self _ _ _
  · exact vset_get_of_ne _ h _

theorem popQueue_frame (s : State) (ch : Channel) : s.sameBut [.store] (s.popQueue ch) := setQueue_frame s _ _

theorem request_frame (s : State) (ch : Channel) (op) : s.sameBut [.store] (s.request ch op) := by
  unfold State.request
  exact sameBut_ite (setQueue_frame s _ _) (setStore_frame s _)

/-- An operation requested joins its channel's queue, or the place wait list. -/
theorem request_cases (s : State) (ch : Channel) (op : StoreOp) :
    (s.placeOpen ch = true ∧ s.request ch op = s.setQueue ch (s.queue ch ++ [op]))
      ∨ (s.placeOpen ch = false
          ∧ s.request ch op = s.setStore { s.store with placeWait := s.store.placeWait ++ [.op ch op] }) := by
  unfold State.request
  cases h : s.placeOpen ch <;> simp

/-! ## The scanner and the low state -/

theorem beginWalk_frame (s : State) (d) : s.sameBut [.scanner] (s.beginWalk d) := setScanner_frame s _

theorem tellScanner_frame (s : State) (b : Bool) : s.sameBut [.scanner] (s.tellScanner b) := by
  unfold State.tellScanner
  split
  · exact sameBut_ite (setScanner_frame s _) (sameBut_refl _ s)
  · dsimp only
    refine sameBut_trans (sameBut_ite (c := s.scanner.state = .paused)
      (setScanner_frame s { s.scanner with state := .scanning }) (sameBut_refl _ s)) ?_
    generalize (if s.scanner.state = .paused then s.setScanner { s.scanner with state := .scanning } else s) = t
    split
    · split
      · exact beginWalk_frame _ _
      · exact setScanner_frame _ _
      · exact sameBut_refl _ t
    · exact sameBut_refl _ t

theorem decideLow_frame (s : State) : s.sameBut [.journal, .scanner, .ports, .out] s.decideLow := by
  unfold State.decideLow
  dsimp only
  split
  · exact sameBut_refl _ s
  · have h1 := setJournal_frame s { s.journal with low := decide (s.freePlaces < lowMark) }
    refine sameBut_then (k := [.scanner]) (l := [.journal, .ports, .out]) ?_ (tellScanner_frame _ _) (by decide) (by decide)
    split
    · exact sameBut_then h1 (noticeAll_frame _ _ _) (by decide) (by decide)
    · exact sameBut_mono h1 (by decide)

/-! ## Page buffers and appends -/

theorem setPageState_frame (s : State) (i st) : s.sameBut [.journal] (s.setPageState i st) := setJournal_frame s _

theorem startPageWrite_frame (s : State) : s.sameBut [.journal, .store] s.startPageWrite := by
  unfold State.startPageWrite
  split
  · split
    · exact sameBut_then (setPageState_frame s _ _) (request_frame _ _ _) (by decide) (by decide)
    · exact sameBut_refl _ s
  · exact sameBut_refl _ s

theorem fillPage_frame (s : State) (i) : s.sameBut [.journal] (s.fillPage i) := setJournal_frame s _

theorem pumpPages_frame (n : Nat) (s : State) : s.sameBut [.journal, .store] (State.pumpPages n s) := by
  induction n generalizing s with
  | zero => exact sameBut_refl _ s
  | succ n ih =>
    unfold State.pumpPages
    split
    · split
      · exact sameBut_trans
          (sameBut_then (setPageState_frame s _ _) (startPageWrite_frame _) (by decide) (by decide)) (ih _)
      · exact sameBut_refl _ s
    · split
      · exact sameBut_trans (sameBut_mono (fillPage_frame s _) (by decide)) (ih _)
      · exact sameBut_refl _ s

theorem appendRaw_frame (s : State) (body : JBody) : s.sameBut [.journal, .store] (s.appendRaw body) := by
  unfold State.appendRaw
  dsimp only
  refine sameBut_trans (sameBut_mono (l := [.journal]) ?_ (by decide)) (pumpPages_frame 6 _)
  have h1 := setJournal_frame s { s.journal with next := s.journal.next + 1 }
  split
  · exact sameBut_ite (sameBut_trans h1 (setJournal_frame _ _)) (sameBut_trans h1 (setJournal_frame _ _))
  · exact sameBut_trans h1 (setJournal_frame _ _)

theorem append_frame (s : State) (body : JBody) : s.sameBut [.journal, .store, .scanner, .ports, .out] (s.append body) :=
  sameBut_then (appendRaw_frame s body) (decideLow_frame _) (by decide) (by decide)

theorem reserveWait_frame (s : State) : s.sameBut [.journal] s.reserveWait := by
  unfold State.reserveWait
  split
  · exact sameBut_refl _ s
  · exact setJournal_frame s _

theorem joinAppend_frame (s : State) (r) : s.sameBut [.journal, .scanner, .ports, .out] (s.joinAppend r) :=
  sameBut_then (sameBut_trans (setJournal_frame s _) (reserveWait_frame _)) (decideLow_frame _) (by decide) (by decide)

theorem popAppend_frame (s : State) : s.sameBut [.journal] s.popAppend := setJournal_frame s _

theorem nextAppend_frame (s : State) : s.sameBut [.journal, .scanner, .ports, .out] s.nextAppend :=
  sameBut_then (reserveWait_frame s) (decideLow_frame _) (by decide) (by decide)

theorem leaveAppend_frame (s : State) (c) : s.sameBut [.journal, .scanner, .ports, .out] (s.leaveAppend c) := by
  unfold State.leaveAppend
  dsimp only
  split
  · exact sameBut_refl _ s
  · exact sameBut_then (sameBut_trans (setJournal_frame s _) (reserveWait_frame _)) (decideLow_frame _) (by decide) (by decide)

/-! ## Chains and completions -/

theorem orphanFiles_frame (s : State) (p) : s.sameBut [.files] (s.orphanFiles p) := setFiles_frame s _

theorem settleDrain_frame (s : State) (p) : s.sameBut [.ports, .files] (s.settleDrain p) := by
  unfold State.settleDrain
  exact sameBut_ite (sameBut_then (modPort_frame s _ _) (orphanFiles_frame _ _) (by decide) (by decide)) (sameBut_refl _ s)

theorem idleChain_frame (s : State) (c) : s.sameBut [.ports, .files] (s.idleChain c) :=
  sameBut_then (modChain_frame s _ _) (settleDrain_frame _ _) (by decide) (by decide)

theorem complete_frame (s : State) (c w) : s.sameBut [.ports, .files, .out] (s.complete c w) := by
  unfold State.complete
  split
  · exact sameBut_refl _ s
  · rename_i d _
    dsimp only
    have notice' : ∀ (t : State) (p k o), t.sameBut [.ports, .files, .out] (t.notice p k o) := fun t p k o =>
      sameBut_mono (notice_frame t p k o) (by decide)
    have idle' : ∀ (t : State) (c), t.sameBut [.ports, .files, .out] (t.idleChain c) := fun t c =>
      sameBut_mono (idleChain_frame t c) (by decide)
    have h1 : s.sameBut [.ports, .files, .out] (s.emit (.completion c.port (d.addr + 32) w)) :=
      sameBut_mono (emit_frame s _) (by decide)
    have h2 : s.sameBut [.ports, .files, .out]
        (if d.notify then (s.emit (.completion c.port (d.addr + 32) w)).notice c.port .descriptorDone
          (.chain c.chain d.addr) else s.emit (.completion c.port (d.addr + 32) w)) :=
      sameBut_ite (sameBut_trans h1 (notice' _ _ _ _)) h1
    generalize (if d.notify then (s.emit (.completion c.port (d.addr + 32) w)).notice c.port .descriptorDone
      (.chain c.chain d.addr) else s.emit (.completion c.port (d.addr + 32) w)) = s2 at h2 ⊢
    have h3 := sameBut_trans h2 (sameBut_ite (c := d.haltOnError ∧ Status.isError w.status ∧ w.status ≠ .stopped)
      (sameBut_trans (idle' s2 c) (notice' _ c.port .haltedOnError (.chain c.chain d.addr)))
      (sameBut_ite (c := w.status = .stopped ∨ w.status = .fetchTimeout ∨ (s2.port c.port).state = .draining) (idle' s2 c)
        (sameBut_mono (modChain_frame s2 c (fun h => { h with state := .running, desc := none })) (by decide))))
    exact sameBut_ite (sameBut_trans h3 (notice' _ _ _ _)) h3

theorem freeLane_frame (s : State) (r) : s.sameBut [.arbiter] (s.freeLane r) := setArbiter_frame s _

theorem leaveArbiter_frame (s : State) (c) : s.sameBut [.arbiter] (s.leaveArbiter c) := setArbiter_frame s _

theorem leaveStore_frame (s : State) (r) : s.sameBut [.store] (s.leaveStore r) := setStore_frame s _

theorem waitForLane_frame (s : State) (c) : s.sameBut [.ports, .arbiter] (s.waitForLane c) := by
  unfold State.waitForLane
  dsimp only
  refine sameBut_then (l := [.ports, .arbiter]) ?_ (setChainState_frame _ _ _) (by decide) (by decide)
  refine sameBut_then (l := [.ports]) ?_ (setArbiter_frame _ _) (by decide) (by decide)
  exact sameBut_ite (modPort_frame s _ _) (sameBut_refl _ s)

theorem leaveFeed_frame (s : State) (c) :
    s.sameBut [.arbiter, .stager, .journal, .scanner, .ports, .out] (s.leaveFeed c) :=
  sameBut_then
    (sameBut_then (sameBut_trans (freeLane_frame s _) (leaveArbiter_frame _ _)) (setStager_frame _ _)
      (m := [.arbiter, .stager]) (by decide) (by decide))
    (leaveAppend_frame _ _) (by decide) (by decide)

theorem endFeed_frame (s : State) (c st b) :
    s.sameBut [.arbiter, .stager, .journal, .scanner, .ports, .out, .files] (s.endFeed c st b) := by
  unfold State.endFeed
  split
  · exact sameBut_then (leaveFeed_frame s c) (complete_frame _ _ _) (by decide) (by decide)
  · exact sameBut_refl _ s

theorem endFeedOf_frame (s : State) (k st) :
    s.sameBut [.arbiter, .stager, .journal, .scanner, .ports, .out, .files] (s.endFeedOf k st) := by
  unfold State.endFeedOf
  split
  · exact endFeed_frame s _ _ _
  · exact sameBut_refl _ s

end Sys2Proof.Machine
end

