-- ==== Sys2Proof/Laws/Chains.lean ====
section
/-!
SUPPORT. How a descriptor reaches its command's own effect, and how its completion leaves its chain, its port and what is
posted.
-/

namespace Sys2Proof.Machine

/-! ## A descriptor that arrives -/

/-- The state in which a descriptor's own effect begins: the chain holds it and its next address has moved on. -/
def State.holding (s : State) (a : At) : State :=
  s.modChain (refOf a) (fun h =>
    { h with next := h.next + 64,
             desc := some { addr := h.next, notify := a.notify, haltOnError := a.haltOnError, job := none } })

theorem holding_frame (s : State) (a : At) : s.sameBut [.ports] (s.holding a) := modChain_frame s _ _

theorem chain_holding (s : State) (a : At) :
    (s.holding a).chain (refOf a)
      = { s.chain (refOf a) with
          next := (s.chain (refOf a)).next + 64,
          desc := some { addr := (s.chain (refOf a)).next, notify := a.notify, haltOnError := a.haltOnError, job := none } } := by
  unfold State.holding; rw [chain_modChain, if_pos rfl]

/-- A descriptor whose port's role set admits it runs its command's own effect. -/
theorem descriptor_of_arrives {s : State} {a : At} {role : Role} (h : s.arrives a role) (effect : State → State) :
    s.descriptor a role effect = effect (s.holding a) := by
  unfold State.descriptor
  rw [if_pos h.fetching]
  dsimp only
  have hr : (s.modChain (refOf a) (fun h =>
    { h with next := h.next + 64,
             desc := some { addr := h.next, notify := a.notify, haltOnError := a.haltOnError, job := none } })).roles a.port
      = s.roles a.port := rfl
  rw [hr, if_pos h.admitted]
  rfl

/-- A descriptor that no fetching chain brought changes nothing. -/
theorem descriptor_of_not_fetching {s : State} {a : At} (h : s.fetching (refOf a) = false) (role : Role)
    (effect : State → State) : s.descriptor a role effect = s := by
  unfold State.descriptor; simp [h]

/-- A command that moves a buffer of at most 4,096 places runs its own effect. -/
theorem bufferDescriptor_of_arrives {s : State} {a : At} {role : Role} {buf : Buf} (h : s.arrives a role)
    (hb : buf.count ≤ 4096) (effect : State → State) : s.bufferDescriptor a buf role effect = effect (s.holding a) := by
  unfold State.bufferDescriptor
  rw [descriptor_of_arrives h]
  simp only [Nat.not_lt.mpr hb, if_false]

/-! ## What a notice posts -/

/-- The slot write and the MSI of a notice of a port, as its context stands when its count has grown (R164). -/
def noticePosts (q : Port) (p : PortId) (k : NoticeKind) (o : NoticeObject) (time : Nat) : List Output :=
  match q.area with
  | some a =>
    if a.enables (NoticeKind.cls k) then
      [.notice p (a.addr + 64 * NoticeClass.code (NoticeKind.cls k)) (NoticeKind.cls k) k o time
        ((q.countNotice (NoticeKind.cls k)).noticeCount (NoticeKind.cls k)), .msi p (NoticeKind.cls k)]
    else []
  | none => []

theorem notice_out (s : State) (p : PortId) (k : NoticeKind) (o : NoticeObject) :
    (s.notice p k o).out = s.out ++ noticePosts (s.port p) p k o s.clock.value := by
  have hp : (s.modPort p (fun q => q.countNotice (NoticeKind.cls k))).port p = (s.port p).countNotice (NoticeKind.cls k) := by
    rw [port_modPort, if_pos rfl]
  have ha : ((s.port p).countNotice (NoticeKind.cls k)).area = (s.port p).area := by
    cases NoticeKind.cls k <;> rfl
  unfold State.notice noticePosts
  dsimp only
  rw [hp, ha]
  cases (s.port p).area with
  | none => simp [State.modPort]
  | some a =>
    dsimp only
    split
    · simp [State.emit, State.modPort]
    · simp [State.modPort]

/-! ## A completion after which the chain goes on -/

/-- A completion that neither ends the chain nor falls in a drain: the word and the notice are posted, and the chain runs
on. -/
theorem complete_goesOn {s : State} {c : ChainRef} {w : Completion} {d : Desc} (hd : (s.chain c).desc = some d)
    (hw : ¬ (d.haltOnError = true ∧ Status.isError w.status = true ∧ w.status ≠ .stopped)) (hs : w.status ≠ .stopped)
    (ht : w.status ≠ .fetchTimeout) (hp : (s.port c.port).state ≠ .draining) :
    s.complete c w =
      ((if d.notify then (s.emit (.completion c.port (d.addr + 32) w)).notice c.port .descriptorDone (.chain c.chain d.addr)
        else s.emit (.completion c.port (d.addr + 32) w)).modChain c (fun h => { h with state := .running, desc := none })) := by
  have hq : ((if d.notify then (s.emit (.completion c.port (d.addr + 32) w)).notice c.port .descriptorDone
      (.chain c.chain d.addr) else s.emit (.completion c.port (d.addr + 32) w)).port c.port).state
      = (s.port c.port).state := by
    split
    · rw [port_notice, if_pos rfl]; cases NoticeKind.cls .descriptorDone <;> rfl
    · rfl
  unfold State.complete
  rw [hd]
  dsimp only
  rw [if_neg ht, if_neg hw, if_neg (by rw [hq]; tauto)]

/-- Such a completion changes the port's context and what is posted, and nothing else. -/
theorem complete_goesOn_frame {s : State} {c : ChainRef} {w : Completion} {d : Desc} (hd : (s.chain c).desc = some d)
    (hw : ¬ (d.haltOnError = true ∧ Status.isError w.status = true ∧ w.status ≠ .stopped)) (hs : w.status ≠ .stopped)
    (ht : w.status ≠ .fetchTimeout) (hp : (s.port c.port).state ≠ .draining) :
    s.sameBut [.ports, .out] (s.complete c w) := by
  rw [complete_goesOn hd hw hs ht hp]
  refine sameBut_trans ?_ (sameBut_mono (modChain_frame _ _ _) (by decide))
  have h1 : s.sameBut [.ports, .out] (s.emit (.completion c.port (d.addr + 32) w)) := sameBut_mono (emit_frame s _) (by decide)
  exact sameBut_ite (sameBut_trans h1 (notice_frame _ _ _ _)) h1

/-- What it posts: the completion word, and the notice where NOTIFY is set. -/
theorem complete_goesOn_out {s : State} {c : ChainRef} {w : Completion} {d : Desc} (hd : (s.chain c).desc = some d)
    (hw : ¬ (d.haltOnError = true ∧ Status.isError w.status = true ∧ w.status ≠ .stopped)) (hs : w.status ≠ .stopped)
    (ht : w.status ≠ .fetchTimeout) (hp : (s.port c.port).state ≠ .draining) :
    (s.complete c w).out = s.out ++ .completion c.port (d.addr + 32) w
      :: (if d.notify then noticePosts (s.port c.port) c.port .descriptorDone (.chain c.chain d.addr) s.clock.value
          else []) := by
  rw [complete_goesOn hd hw hs ht hp]
  have h1 : ∀ t : State, (t.modChain c (fun h => { h with state := .running, desc := none })).out = t.out := fun _ => rfl
  rw [h1]
  split
  · rw [notice_out]
    have h2 : (s.emit (.completion c.port (d.addr + 32) w)).port c.port = s.port c.port := rfl
    have h3 : (s.emit (.completion c.port (d.addr + 32) w)).clock = s.clock := rfl
    rw [h2, h3]
    simp [State.emit]
  · simp [State.emit]

/-- The port after it: the chain runs on without a descriptor, and the notice is counted where NOTIFY is set. -/
theorem complete_goesOn_port {s : State} {c : ChainRef} {w : Completion} {d : Desc} (hd : (s.chain c).desc = some d)
    (hw : ¬ (d.haltOnError = true ∧ Status.isError w.status = true ∧ w.status ≠ .stopped)) (hs : w.status ≠ .stopped)
    (ht : w.status ≠ .fetchTimeout) (hp : (s.port c.port).state ≠ .draining) (q : PortId) :
    (s.complete c w).port q =
      if q = c.port then
        { (if d.notify then (s.port q).countNotice .chain else s.port q) with
          chains := vmod (s.port q).chains c.chain (fun h => { h with state := .running, desc := none }) }
      else s.port q := by
  rw [complete_goesOn hd hw hs ht hp]
  unfold State.modChain
  rw [port_modPort]
  by_cases h : q = c.port
  · subst h
    simp only [if_true]
    cases d.notify
    · rfl
    · simp only [if_true]; rw [port_notice, if_pos rfl]; rfl
  · simp only [h, if_false]
    cases d.notify
    · rfl
    · simp only [if_true]; rw [port_notice, if_neg h]; rfl

end Sys2Proof.Machine
end

