-- ==== Sys2Proof/Laws/FileFrames.lean ====
section
/-!
SUPPORT. What each shared operation on streams, files and staging buffers leaves unchanged, and the taking of a record.
-/

namespace Sys2Proof.Machine

variable (s : State)

/-! ## Streams, files and buffers -/

theorem modStream_frame (k f) : s.sameBut [.streams] (s.modStream k f) := setStreams_frame s _

theorem modFile_frame (k f) : s.sameBut [.files] (s.modFile k f) := setFiles_frame s _

theorem setBuf_frame (b v) : s.sameBut [.stager] (s.setBuf b v) := setStager_frame s _

theorem freeBuf_frame (b) : s.sameBut [.stager] (s.freeBuf b) := setStager_frame s _

theorem joinSeals_frame (b) : s.sameBut [.stager, .store] (s.joinSeals b) :=
  sameBut_then (setStager_frame s _) (setStore_frame _ _) (by decide) (by decide)

/-- No seal begins to wait for a queue place where none waits for one. -/
theorem sealPlace_of_none (g : Store) (h : PlaceReq.seal ∉ g.placeWait) : g.sealPlace = g := by
  simp [Store.sealPlace, h]

theorem recomputeL_frame : s.sameBut [.settings] s.recomputeL := setSettings_frame s _

/-- L alone is recomputed. -/
theorem recomputeL_settings : ∃ l, s.recomputeL.settings = { s.settings with lastSeal := l } := ⟨_, rfl⟩

@[simp] theorem tget_modStream (k j f) : tget (s.modStream k f).streams j
    = if j = k then (tget s.streams k).map f else tget s.streams j := tget_tmod _ _ _ _

@[simp] theorem tget_modFile (k j f) : tget (s.modFile k f).files j
    = if j = k then (tget s.files k).map f else tget s.files j := tget_tmod _ _ _ _

@[simp] theorem tget_setBuf (b j v) : tget (s.setBuf b v).stager.bufs j
    = if j = b then some v else tget s.stager.bufs j := tget_tput _ _ _ _

@[simp] theorem tget_freeBuf (b j) : tget (s.freeBuf b).stager.bufs j
    = if j = b then none else tget s.stager.bufs j := tget_tdel _ _ _

theorem mem_insertSeal (g : Stager) (b c : Nat) (l : List Nat) : c ∈ insertSeal g b l ↔ c = b ∨ c ∈ l := by
  induction l with
  | nil => simp [insertSeal]
  | cons d t ih =>
    simp only [insertSeal]
    split
    · simp
    · simp only [List.mem_cons, ih]; tauto

/-- What a hand-off to sealing does: the widths are trained, the buffer is SEALING with the next seal serial and joins the
seal wait list, and the file has one more segment in flight and none open. -/
theorem handOff_spec {k b : Nat} {f : FileEntry} {v : Staging} {st : Stream} {codec : Codec}
    (hf : tget s.files k = some f) (hb : f.openSeg = some b) (hv : tget s.stager.bufs b = some v)
    (hs : tget s.streams f.stream = some st) (hc : v.state = .opened codec) :
    let header := segmentHeader st.source st.cls f.fileNo s.settings.sealCounter codec
    let w := { v with state := BufState.sealing header 1 none }
    s.handOff k =
      { s with
        streams := tmod s.streams f.stream (fun st => { st with training := st.training.trained codec.widths }),
        stager := { s.stager with
          bufs := tput s.stager.bufs b w,
          seals := insertSeal { s.stager with bufs := tput s.stager.bufs b w } b s.stager.seals },
        store := s.store.sealPlace,
        settings := { s.settings with sealCounter := s.settings.sealCounter + 1 },
        files := tput s.files k { f with segsInFlight := f.segsInFlight + 1, openSeg := none } } := by
  simp only [State.handOff, hf, hb, hv, hs, hc]
  simp only [State.modFile, State.joinSeals, State.setSettings, State.setBuf, State.modStream, State.setStreams,
    State.setStager, State.setStore, State.setFiles]
  simp only [tmod, hf]

theorem handOff_frame (k) : s.sameBut [.streams, .stager, .store, .settings, .files] (s.handOff k) := by
  unfold State.handOff
  split
  · split
    · split
      · split
        · dsimp only
          refine sameBut_trans ?_ (sameBut_mono (modFile_frame _ _ _) (by decide))
          refine sameBut_trans ?_ (sameBut_mono (joinSeals_frame _ _) (by decide))
          refine sameBut_trans ?_ (sameBut_mono (setSettings_frame _ _) (by decide))
          refine sameBut_trans ?_ (sameBut_mono (setBuf_frame _ _ _) (by decide))
          exact sameBut_mono (modStream_frame s _ _) (by decide)
        · exact sameBut_refl _ s
      · exact sameBut_refl _ s
    · exact sameBut_refl _ s
  · exact sameBut_refl _ s

theorem freeFailed_frame (k) : s.sameBut [.stager, .files, .settings] (s.freeFailed k) := by
  unfold State.freeFailed
  split
  · dsimp only
    split
    · exact sameBut_refl _ s
    · refine sameBut_trans ?_ (sameBut_mono (recomputeL_frame _) (by decide))
      refine sameBut_trans ?_ (sameBut_mono (modFile_frame _ _ _) (by decide))
      exact sameBut_mono (l := [.stager]) (sameBut_foldl (fun s (p : Nat × Staging) => freeBuf_frame s p.1) _ s) (by decide)
  · exact sameBut_refl _ s

theorem raiseStore_frame (k) :
    s.sameBut [.streams, .files, .ports, .out, .arbiter, .stager, .journal, .scanner] (s.raiseStore k) := by
  unfold State.raiseStore
  split
  · split
    · split
      · dsimp only
        refine sameBut_trans ?_ (sameBut_mono (endFeedOf_frame _ _ _) (by decide))
        have h1 : ∀ f g, s.sameBut [.streams, .files, .ports, .out, .arbiter, .stager, .journal, .scanner]
            ((s.modStream k f).modFile ‹Nat› g) := fun f g =>
          sameBut_then (modStream_frame s _ _) (modFile_frame _ _ _) (by decide) (by decide)
        exact sameBut_ite (sameBut_trans (h1 _ _) (sameBut_mono (notice_frame _ _ _ _) (by decide))) (h1 _ _)
      · exact sameBut_refl _ s
    · exact sameBut_refl _ s
  · exact sameBut_refl _ s

theorem closeFile_frame (k) : s.sameBut [.ports, .out, .files, .recons, .streams] (s.closeFile k) := by
  unfold State.closeFile
  split
  · dsimp only
    refine sameBut_trans ?_ (sameBut_mono (l := [.ports]) (sameBut_foldl (fun s c => ?_) _ _) (by decide))
    · refine sameBut_trans ?_ (sameBut_mono (modStream_frame _ _ _) (by decide))
      refine sameBut_trans ?_ (sameBut_mono (setRecons_frame _ _) (by decide))
      refine sameBut_trans ?_ (sameBut_mono (setFiles_frame _ _) (by decide))
      exact sameBut_mono (notice_frame s _ _ _) (by decide)
    · split
      · exact sameBut_ite (setJob_frame s _ _) (sameBut_refl _ s)
      · exact sameBut_refl _ s
  · exact sameBut_refl _ s

/-! ## Appends with an effect -/

/-- What the effect beside an append can change. -/
def noteParts : List Part :=
  [.catalogue, .streams, .files, .recons, .ports, .out, .arbiter, .stager, .journal, .scanner, .store]

theorem applyNote_frame (note n) : s.sameBut noteParts (s.applyNote note n) := by
  unfold State.applyNote
  split
  · exact sameBut_refl _ s
  · exact sameBut_mono (modEntry_frame s _ _) (by decide)
  · exact sameBut_mono (joinSeals_frame s _) (by decide)
  · split
    · split
      · exact sameBut_then (setBuf_frame s _ _) (raiseStore_frame _ _) (by decide) (by decide)
      · exact sameBut_refl _ s
    · exact sameBut_refl _ s
  · exact sameBut_mono (closeFile_frame s _) (by decide)
  · exact sameBut_mono (modEntry_frame s _ _) (by decide)

theorem appendWith_frame (body note) : s.sameBut noteParts (s.appendWith body note) :=
  sameBut_then
    (sameBut_then (m := noteParts) (appendRaw_frame s body) (applyNote_frame _ note _) (by decide) (by decide))
    (decideLow_frame _) (by decide) (by decide)

theorem ask_frame (body note) : s.sameBut noteParts (s.ask body note) := by
  unfold State.ask
  exact sameBut_ite (appendWith_frame s body note) (sameBut_mono (joinAppend_frame s _) (by decide))

/-- An append without an effect beside it leaves all but the Journal, what it tells and channel 0's queue. -/
theorem ask_plain_frame (body) : s.sameBut [.journal, .store, .scanner, .ports, .out] (s.ask body .plain) := by
  unfold State.ask
  refine sameBut_ite ?_ (sameBut_mono (joinAppend_frame s _) (by decide))
  exact sameBut_then (appendRaw_frame s body) (decideLow_frame _) (by decide) (by decide)

theorem handOver_frame (k) : s.sameBut noteParts (s.handOver k) := by
  unfold State.handOver
  split
  · split
    · split
      · exact sameBut_then (setRecons_frame s _) (ask_frame _ _ _) (by decide) (by decide)
      · exact sameBut_refl _ s
    · exact sameBut_refl _ s
  · exact sameBut_refl _ s

/-! ## Policy commit -/

theorem commitClass_frame (i) : s.sameBut [.settings, .journal, .store] (s.commitClass i) := by
  unfold State.commitClass
  split
  · exact sameBut_refl _ s
  · exact sameBut_then (setSettings_frame s _) (appendRaw_frame _ _) (by decide) (by decide)
  · exact sameBut_mono (appendRaw_frame s _) (by decide)

theorem signalScanner_frame (d) : s.sameBut [.scanner] (s.signalScanner d) := by
  unfold State.signalScanner
  exact sameBut_ite (beginWalk_frame s d) (setScanner_frame s _)

/-- What a policy commit can change. -/
def commitParts : List Part := [.settings, .retention, .clock, .journal, .store, .scanner, .ports, .out]

theorem commitPolicy_frame (d) : s.sameBut commitParts (s.commitPolicy d) := by
  unfold State.commitPolicy
  dsimp only
  refine sameBut_trans ?_ (sameBut_mono (signalScanner_frame _ _) (by decide))
  refine sameBut_trans ?_ (sameBut_mono (decideLow_frame _) (by decide))
  refine sameBut_trans ?_ (sameBut_mono (setClock_frame _ _) (by decide))
  refine sameBut_trans ?_ (sameBut_mono (setRetention_frame _ _) (by decide))
  exact sameBut_mono (sameBut_foldl (fun s i => commitClass_frame s i) classes s) (by decide)

theorem refreshCommit_frame : s.sameBut [.journal, .scanner, .ports, .out] s.refreshCommit := by
  unfold State.refreshCommit
  refine sameBut_ite ?_ (sameBut_refl _ s)
  exact sameBut_then (sameBut_trans (setJournal_frame s _) (reserveWait_frame _)) (decideLow_frame _) (by decide) (by decide)

theorem askCommit_frame (d) : s.sameBut commitParts (s.askCommit d) := by
  unfold State.askCommit
  dsimp only
  refine sameBut_ite ?_ (sameBut_ite (commitPolicy_frame s d) ?_)
  · exact sameBut_then (setClock_frame s _) (refreshCommit_frame _) (by decide) (by decide)
  · exact sameBut_then (setClock_frame s _) (joinAppend_frame _ _) (by decide) (by decide)

/-! ## Taking a record -/

/-- A taking keeps law 2: one more presented, and one more accepted, found duplicate or dropped. -/
theorem take_sums (f : FileEntry) (how d u b) (h : f.presented = f.accepted + f.duplicates + f.dropped) :
    (f.take how d u b).presented
      = (f.take how d u b).accepted + (f.take how d u b).duplicates + (f.take how d u b).dropped := by
  cases how <;> simp [FileEntry.take] <;> omega

theorem countTaking_frame (c f how d u b) : s.sameBut [.files, .ports] (s.countTaking c f how d u b) :=
  sameBut_then (modFile_frame s _ _) (setJob_frame _ _ _) (by decide) (by decide)

theorem openSegment_frame (k n) : s.sameBut [.streams, .stager, .files] (s.openSegment k n) := by
  unfold State.openSegment
  split
  · split
    · dsimp only
      refine sameBut_trans ?_ (sameBut_mono (modFile_frame _ _ _) (by decide))
      refine sameBut_trans ?_ (sameBut_mono (setBuf_frame _ _ _) (by decide))
      exact sameBut_mono (modStream_frame s _ _) (by decide)
    · exact sameBut_refl _ s
  · exact sameBut_refl _ s

theorem appendRecord_frame (k r) : s.sameBut [.stager, .streams] (s.appendRecord k r) := by
  unfold State.appendRecord
  split
  · split
    · split
      · split
        · exact sameBut_then (setBuf_frame s _ _) (modStream_frame _ _ _) (by decide) (by decide)
        · exact sameBut_refl _ s
      · exact sameBut_refl _ s
    · exact sameBut_refl _ s
  · exact sameBut_refl _ s

/-- What the taking of a record can change. -/
def takeParts : List Part := [.files, .streams, .stager, .journal, .store, .scanner, .ports, .out]

theorem takeMarked_frame (c f w) : s.sameBut takeParts (s.takeMarked c f w) := by
  unfold State.takeMarked
  split
  · split
    · dsimp only
      refine sameBut_trans ?_ (sameBut_mono (decideLow_frame _) (by decide))
      refine sameBut_trans ?_ (sameBut_mono (countTaking_frame _ c f _ _ _ _) (by decide))
      have h1 : ∀ g (l : List Drop) (k : State → Drop → JBody), s.sameBut takeParts
          (l.foldl (fun s d => s.appendRaw (k s d)) (s.modStream ‹FileEntry›.stream g)) := fun g l k =>
        sameBut_then (modStream_frame s _ _) (sameBut_foldl (fun s d => appendRaw_frame s (k s d)) l _)
          (by decide) (by decide)
      split
      · refine sameBut_trans ?_ (sameBut_mono (appendRecord_frame _ _ _) (by decide))
        exact sameBut_ite (sameBut_trans (h1 _ _ _) (sameBut_mono (openSegment_frame _ _ _) (by decide))) (h1 _ _ _)
      · exact h1 _ _ _
    · exact sameBut_refl _ s
  · exact sameBut_refl _ s

theorem moveFeed_frame (c n) : s.sameBut [.arbiter, .stager, .journal, .scanner, .ports, .out, .files] (s.moveFeed c n) := by
  unfold State.moveFeed
  split
  · dsimp only
    have h1 : ∀ j, s.sameBut [.ports] ((s.setJob c j).setChainState c .running) := fun j =>
      sameBut_trans (setJob_frame s c j) (setChainState_frame _ c .running)
    exact sameBut_ite (sameBut_then (h1 _) (endFeed_frame _ _ _ _) (by decide) (by decide)) (sameBut_mono (h1 _) (by decide))
  · exact sameBut_refl _ s

theorem takeAndMove_frame (c f w) : s.sameBut (.arbiter :: takeParts) (s.takeAndMove c f w) :=
  sameBut_then (takeMarked_frame s c f w) (moveFeed_frame _ _ _) (by decide) (by decide)

theorem joinBufferWait_frame (c) : s.sameBut [.stager] (s.joinBufferWait c) := by
  unfold State.joinBufferWait
  exact sameBut_ite (sameBut_refl _ s) (setStager_frame s _)

theorem takeOrWait_frame (c f w) : s.sameBut (.arbiter :: takeParts) (s.takeOrWait c f w) := by
  unfold State.takeOrWait
  dsimp only
  refine sameBut_ite (takeAndMove_frame s c f w) ?_
  have h0 : s.sameBut [.ports] ((s.setJob c (.feed { f with waiting := some w })).setChainState c .waiting) :=
    sameBut_trans (setJob_frame s c _) (setChainState_frame _ c .waiting)
  generalize (s.setJob c (.feed { f with waiting := some w })).setChainState c .waiting = t at h0 ⊢
  have h : s.sameBut (.arbiter :: takeParts)
      (if (!w.needsBuf || s.bufferOpen c) = true then t else t.joinBufferWait c) :=
    sameBut_then (l := [.ports]) (k := [.stager]) h0 (sameBut_ite (sameBut_refl _ t) (joinBufferWait_frame t c))
      (by decide) (by decide)
  exact sameBut_ite h (sameBut_trans h (sameBut_mono (joinAppend_frame _ _) (by decide)))

end Sys2Proof.Machine
end

