-- ==== Sys2Proof/Laws/JobFrames.lean ====
section
/-!
SUPPORT. What each shared operation on segments under read and decode, on the Journal's pages and on the end of a chain
leaves unchanged.
-/

namespace Sys2Proof.Machine

variable (s : State)

/-! ## The segment of a job -/

theorem setSegJob_frame (r g) : s.sameBut [.ports, .audit] (s.setSegJob r g) := by
  unfold State.setSegJob
  split
  · split
    · exact sameBut_mono (setJob_frame s _ _) (by decide)
    · exact sameBut_refl _ s
  · exact sameBut_mono (setAudit_frame s _) (by decide)

theorem setPhase_frame (r p) : s.sameBut [.ports, .audit] (s.setPhase r p) := by
  unfold State.setPhase
  split
  · exact setSegJob_frame s _ _
  · exact sameBut_refl _ s

theorem jobState_frame (r st) : s.sameBut [.ports] (s.jobState r st) := by
  unfold State.jobState
  split
  · exact setChainState_frame s _ _
  · exact sameBut_refl _ s

/-! ## Retirement, retest and pins -/

/-- What a retirement can change. -/
def retireParts : List Part := [.catalogue, .journal, .store, .scanner, .ports, .out]

theorem retire_frame (x v) : s.sameBut retireParts (s.retire x v) := by
  unfold State.retire
  dsimp only
  refine sameBut_trans ?_ (sameBut_mono (decideLow_frame _) (by decide))
  refine sameBut_trans ?_ (sameBut_mono (setScanner_frame _ _) (by decide))
  refine sameBut_trans ?_ (sameBut_mono (modEntry_frame _ _ _) (by decide))
  exact sameBut_mono (appendRaw_frame s _) (by decide)

theorem retest_frame (x) : s.sameBut retireParts (s.retest x) := by
  unfold State.retest
  split
  · refine sameBut_ite (sameBut_ite (sameBut_ite (sameBut_refl _ s) (retire_frame s _ _)) ?_) (sameBut_refl _ s)
    exact sameBut_mono (modEntry_frame s _ _) (by decide)
  · exact sameBut_refl _ s

/-- What a job that leaves its segment can change. -/
def segParts : List Part := [.catalogue, .journal, .store, .scanner, .ports, .out, .audit, .arbiter]

theorem releasePin_frame (x) : s.sameBut segParts (s.releasePin x) := by
  unfold State.releasePin
  split
  · exact sameBut_then (modEntry_frame s _ _) (setPhase_frame _ _ _) (by decide) (by decide)
  · exact sameBut_then (modEntry_frame s _ _) (retest_frame _ _) (by decide) (by decide)

theorem startRead_frame (r x b) : s.sameBut [.store, .ports, .audit] (s.startRead r x b) := by
  unfold State.startRead
  dsimp only
  have h : ∀ p st, s.sameBut [.store, .ports, .audit]
      (((s.request (channelOf x) (.segRead x (some r) b)).setPhase r p).jobState r st) := fun p st =>
    sameBut_then (m := [.store, .ports, .audit])
      (sameBut_then (m := [.store, .ports, .audit]) (request_frame s _ _) (setPhase_frame _ r p) (by decide) (by decide))
      (jobState_frame _ r st) (by decide) (by decide)
  exact sameBut_ite (h _ _) (h _ _)

theorem goOnPinned_frame (c x) : s.sameBut [.store, .ports, .audit] (s.goOnPinned c x) := by
  unfold State.goOnPinned
  dsimp only
  refine sameBut_trans ?_ (startRead_frame _ _ _ _)
  split
  · exact sameBut_ite (sameBut_mono (setJob_frame s _ _) (by decide)) (sameBut_refl _ s)
  · exact sameBut_refl _ s

theorem askPin_frame (c x) : s.sameBut [.catalogue, .store, .ports, .audit] (s.askPin c x) := by
  unfold State.askPin
  refine sameBut_ite (sameBut_then (modEntry_frame s _ _) (goOnPinned_frame _ _ _) (by decide) (by decide)) ?_
  refine sameBut_trans ?_ (sameBut_mono (setChainState_frame _ _ _) (by decide))
  exact sameBut_then (modEntry_frame s _ _) (setPhase_frame _ _ _) (by decide) (by decide)

theorem dropSeg_frame (r) : s.sameBut segParts (s.dropSeg r) := by
  unfold State.dropSeg
  split
  · dsimp only
    have h1 : s.sameBut segParts ((s.freeLane r).leaveStore r) :=
      sameBut_then (freeLane_frame s _) (leaveStore_frame _ _) (by decide) (by decide)
    have hd : ∀ (t : State) (g : SegJob) (f k : Entry → Entry), t.sameBut segParts
        (match g.phase with
        | .waitPin => t.modEntry g.extent f
        | _ => (t.modEntry g.extent k).releasePin g.extent) := by
      intro t g f k
      split
      · exact sameBut_mono (modEntry_frame t _ _) (by decide)
      · exact sameBut_then (modEntry_frame t _ _) (releasePin_frame _ _) (by decide) (by decide)
    refine sameBut_trans ?_ (hd _ _ _ _)
    cases r with
    | chain c => exact sameBut_trans h1 (sameBut_mono (leaveArbiter_frame _ _) (by decide))
    | scrub => exact sameBut_trans h1 (sameBut_mono (setArbiter_frame _ _) (by decide))
  · exact sameBut_refl _ s

/-! ## Retrieval -/

theorem search_frame (c) : s.sameBut [.catalogue, .store, .ports, .audit, .files, .out] (s.search c) := by
  unfold State.search
  split
  · dsimp only
    split
    · exact sameBut_then (setJob_frame s _ _) (askPin_frame _ _ _) (by decide) (by decide)
    · exact sameBut_mono (complete_frame s _ _) (by decide)
  · exact sameBut_refl _ s

theorem cursorTest_frame (c k) : s.sameBut [.catalogue, .store, .ports, .audit, .files, .out] (s.cursorTest c k) := by
  unfold State.cursorTest
  split
  · dsimp only
    split
    · refine sameBut_ite (sameBut_ite ?_ (search_frame s c)) ?_
      · exact sameBut_then (setJob_frame s _ _) (askPin_frame _ _ _) (by decide) (by decide)
      · exact sameBut_then (setJob_frame s _ _) (search_frame _ _) (by decide) (by decide)
    · exact sameBut_then (setJob_frame s _ _) (search_frame _ _) (by decide) (by decide)
  · exact sameBut_refl _ s

theorem deliver_frame (c r g i rec') : s.sameBut (.files :: segParts) (s.deliver c r g i rec').1 := by
  unfold State.deliver
  split
  · exact sameBut_refl _ s
  · dsimp only
    have h : ∀ o j, s.sameBut (.files :: segParts) ((s.emit o).setJob c j) := fun o j =>
      sameBut_then (emit_frame s _) (setJob_frame _ _ _) (by decide) (by decide)
    split
    · dsimp only
      refine sameBut_trans ?_ (sameBut_mono (complete_frame _ _ _) (by decide))
      exact sameBut_trans (h _ _) (sameBut_mono (dropSeg_frame _ _) (by decide))
    · exact h _ _

/-! ## Verification and scrub -/

theorem ask_reported_frame (body x) : s.sameBut retireParts (s.ask body (.reported x)) := by
  unfold State.ask
  refine sameBut_ite ?_ (sameBut_mono (joinAppend_frame s _) (by decide))
  refine sameBut_trans ?_ (sameBut_mono (decideLow_frame _) (by decide))
  unfold State.applyNote
  exact sameBut_then (appendRaw_frame s body) (modEntry_frame _ _ _) (by decide) (by decide)

theorem quarantine_frame (x source serial finder v port) :
    s.sameBut retireParts (s.quarantine x source serial finder v port) := by
  unfold State.quarantine
  dsimp only
  refine sameBut_trans ?_ (sameBut_mono (noticeAll_frame _ _ _) (by decide))
  exact sameBut_then (modEntry_frame s _ _) (ask_reported_frame _ _ _) (by decide) (by decide)

theorem applyVerdict_frame (x finder port b v) : s.sameBut retireParts (s.applyVerdict x finder port b v) := by
  unfold State.applyVerdict
  dsimp only
  refine sameBut_trans (sameBut_mono (modEntry_frame s x
    (fun e => { e with verify := some (s.today, v.passes) })) (by decide)) ?_
  generalize s.modEntry x (fun e => { e with verify := some (s.today, v.passes) }) = t
  split
  · refine sameBut_ite (sameBut_ite ?_ (sameBut_ite (sameBut_mono (ask_plain_frame t _) (by decide)) (sameBut_refl _ t)))
      (sameBut_ite (sameBut_refl _ t) (quarantine_frame t _ _ _ _ _ _))
    exact sameBut_then (modEntry_frame t _ _) (ask_plain_frame _ _) (by decide) (by decide)
  · exact sameBut_refl _ t

theorem scrubDone_frame (f) : s.sameBut (.audit :: retireParts) (s.scrubDone f) := by
  unfold State.scrubDone
  dsimp only
  exact sameBut_ite (sameBut_then (setAudit_frame s _) (ask_plain_frame _ _) (by decide) (by decide))
    (sameBut_mono (setAudit_frame s _) (by decide))

/-- What the end of a read or decode can change. -/
theorem segEnded_frame (r e) : s.sameBut (.files :: segParts) (s.segEnded r e) := by
  unfold State.segEnded
  split
  · split
    · split
      · unfold State.retrievalSegEnd
        dsimp only
        split
        · refine sameBut_trans ?_ (sameBut_mono (search_frame _ _) (by decide))
          exact sameBut_then (dropSeg_frame s _) (setJob_frame _ _ _) (by decide) (by decide)
        · refine sameBut_trans ?_ (sameBut_mono (search_frame _ _) (by decide))
          refine sameBut_trans ?_ (sameBut_mono (setJob_frame _ _ _) (by decide))
          exact sameBut_then (dropSeg_frame s _) (setAudit_frame _ _) (by decide) (by decide)
      · exact sameBut_refl _ s
    · unfold State.verifySegEnd
      dsimp only
      split
      · refine sameBut_trans ?_ (sameBut_mono (complete_frame _ _ _) (by decide))
        exact sameBut_then (applyVerdict_frame s _ _ _ _ _) (dropSeg_frame _ _) (by decide) (by decide)
      · exact sameBut_refl _ s
    · exact sameBut_refl _ s
  · split
    · unfold State.scrubSegEnd
      dsimp only
      split
      · refine sameBut_trans ?_ (sameBut_mono (scrubDone_frame _ _) (by decide))
        exact sameBut_then (applyVerdict_frame s _ _ _ _ _) (dropSeg_frame _ _) (by decide) (by decide)
      · exact sameBut_refl _ s
    · exact sameBut_refl _ s

theorem decodeStands_frame (r h d) : s.sameBut (.files :: segParts) (s.decodeStands r h d) := by
  unfold State.decodeStands
  split
  · exact sameBut_mono (setPhase_frame s _ _) (by decide)
  · exact segEnded_frame s _ _
  · exact segEnded_frame s _ _

/-! ## Durability -/

/-- What a durability report can change. -/
def durableParts : List Part := .settings :: noteParts

theorem tellFile_frame (v) : s.sameBut noteParts (s.tellFile v) := by
  unfold State.tellFile
  split
  · exact sameBut_then (modFile_frame s _ _) (handOver_frame _ _) (by decide) (by decide)
  · exact sameBut_refl _ s

theorem sealDurable_frame (x n b) : s.sameBut durableParts (s.sealDurable x n b) := by
  unfold State.sealDurable
  split
  · dsimp only
    refine sameBut_ite ?_ (sameBut_refl _ s)
    have h : ∀ f, s.sameBut durableParts (s.modEntry x f).recomputeL := fun f =>
      sameBut_then (modEntry_frame s _ _) (recomputeL_frame _) (by decide) (by decide)
    exact sameBut_ite (sameBut_trans (h _) (sameBut_mono (tellFile_frame _ _) (by decide))) (h _)
  · exact sameBut_refl _ s

theorem retireDurable_frame (x n) : s.sameBut [.catalogue, .store] (s.retireDurable x n) := by
  unfold State.retireDurable
  exact sameBut_ite (sameBut_then (modEntry_frame s _ _) (request_frame _ _ _) (by decide) (by decide)) (sameBut_refl _ s)

theorem reportDurable_frame (e) : s.sameBut durableParts (s.reportDurable e) := by
  unfold State.reportDurable
  split
  · exact sealDurable_frame s _ _ _
  · exact sealDurable_frame s _ _ _
  · exact sameBut_mono (retireDurable_frame s _ _) (by decide)
  · exact sameBut_mono (retireDurable_frame s _ _) (by decide)
  · exact sameBut_refl _ s

/-! ## Journal pages and extents -/

theorem advanceWrite_frame : s.sameBut [.journal] s.advanceWrite := setJournal_frame s _

theorem setPage_frame (k e) : s.sameBut [.flash] (s.setPage k e) := setFlash_frame s _

theorem pageWritten_frame (i) : s.sameBut (.flash :: durableParts) (s.pageWritten i) := by
  unfold State.pageWritten
  dsimp only
  refine sameBut_trans ?_ (sameBut_mono (decideLow_frame _) (by decide))
  refine sameBut_trans ?_ (sameBut_mono (reserveWait_frame _) (by decide))
  refine sameBut_trans ?_ (sameBut_mono (sameBut_foldl reportDurable_frame _ _) (by decide))
  refine sameBut_trans ?_ (sameBut_mono (pumpPages_frame _ _) (by decide))
  refine sameBut_trans ?_ (sameBut_mono (startPageWrite_frame _) (by decide))
  refine sameBut_trans ?_ (sameBut_mono (advanceWrite_frame _) (by decide))
  exact sameBut_then (setPage_frame s _ _) (setJournal_frame _ _) (by decide) (by decide)

theorem pageFailed_frame (i) : s.sameBut [.flash, .journal, .store] (s.pageFailed i) := by
  unfold State.pageFailed
  dsimp only
  refine sameBut_trans ?_ (sameBut_mono (startPageWrite_frame _) (by decide))
  refine sameBut_trans ?_ (sameBut_mono (setPageState_frame _ _ _) (by decide))
  refine sameBut_trans ?_ (sameBut_mono (advanceWrite_frame _) (by decide))
  exact sameBut_then (setPage_frame s _ _) (setJournal_frame _ _) (by decide) (by decide)

theorem eraseJournal_frame (x) : s.sameBut [.journal, .store] (s.eraseJournal x) :=
  sameBut_then (setJournal_frame s _) (request_frame _ _ _) (by decide) (by decide)

theorem eraseReleased_frame : s.sameBut [.journal, .store] s.eraseReleased :=
  sameBut_foldl (fun s x => sameBut_ite (eraseJournal_frame s x) (sameBut_refl _ s)) four s

theorem journalErased_frame (x) : s.sameBut [.flash, .journal, .store] (s.journalErased x) := by
  unfold State.journalErased
  dsimp only
  refine sameBut_trans ?_ (sameBut_mono (startPageWrite_frame _) (by decide))
  exact sameBut_then (setFlash_frame s _) (setJournal_frame _ _) (by decide) (by decide)

theorem readPage_frame (c j slot b) : s.sameBut [.ports, .store] (s.readPage c j slot b) := by
  unfold State.readPage
  dsimp only
  refine sameBut_trans ?_ (sameBut_mono (setChainState_frame _ _ _) (by decide))
  exact sameBut_then (setJob_frame s _ _) (request_frame _ _ _) (by decide) (by decide)

theorem readOn_frame (n c j page) : s.sameBut [.ports, .store, .out, .files] (State.readOn n s c j page) := by
  induction n generalizing s j with
  | zero => exact sameBut_refl _ s
  | succ n ih =>
    unfold State.readOn
    have hc : ∀ w, s.sameBut [.ports, .store, .out, .files] (s.complete c w) := fun w =>
      sameBut_mono (complete_frame s c w) (by decide)
    have hr : ∀ slot, s.sameBut [.ports, .store, .out, .files] (s.readPage c j slot false) := fun slot =>
      sameBut_mono (readPage_frame s c j slot false) (by decide)
    have hw : ∀ o j', s.sameBut [.ports, .store, .out, .files] (State.readOn n (s.emit o) c j' page) := fun o j' =>
      sameBut_trans (sameBut_mono (emit_frame s o) (by decide)) (ih _ _)
    refine sameBut_ite (hc _) (sameBut_ite (hc _) ?_)
    dsimp only
    split
    · exact hw _ _
    · exact sameBut_ite (hw _ _) (hr _)
    · exact hr _

/-! ## The append wait list -/

theorem serveRecord_frame (c) : s.sameBut (.arbiter :: takeParts) (s.serveRecord c) := by
  unfold State.serveRecord
  split
  · split
    · dsimp only
      refine sameBut_ite (sameBut_then (joinBufferWait_frame s c) (nextAppend_frame _) (by decide) (by decide)) ?_
      refine sameBut_trans ?_ (sameBut_mono (nextAppend_frame _) (by decide))
      refine sameBut_trans ?_ (takeAndMove_frame _ _ _ _)
      exact sameBut_then (setStager_frame s _) (popAppend_frame _) (by decide) (by decide)
    · exact sameBut_refl _ s
  · exact sameBut_refl _ s

/-- What the service of the append wait list can change. -/
theorem serveAppend_frame :
    s.sameBut (.settings :: .retention :: .clock :: noteParts) s.serveAppend := by
  unfold State.serveAppend
  split
  · split
    · split
      · refine sameBut_trans ?_ (sameBut_mono (nextAppend_frame _) (by decide))
        exact sameBut_then (popAppend_frame s) (appendWith_frame _ _ _) (by decide) (by decide)
      · exact sameBut_mono (serveRecord_frame s _) (by decide)
      · refine sameBut_trans ?_ (sameBut_mono (nextAppend_frame _) (by decide))
        exact sameBut_then (popAppend_frame s) (commitPolicy_frame _ _) (by decide) (by decide)
    · exact sameBut_refl _ s
  · exact sameBut_refl _ s

/-! ## The walk of a CATALOGUE_READ -/

theorem walkOn_frame (c w) : s.sameBut [.ports, .files, .out] (s.walkOn c w) := by
  unfold State.walkOn
  dsimp only
  have h : ∀ (b : Bool) (o : Output), s.sameBut [.ports, .files, .out] (if b then s.emit o else s) := fun b o =>
    sameBut_ite (sameBut_mono (emit_frame s o) (by decide)) (sameBut_refl _ s)
  refine sameBut_ite (sameBut_trans (h _ _) (complete_frame _ _ _))
    (sameBut_ite (sameBut_trans (h _ _) (complete_frame _ _ _)) ?_)
  exact sameBut_trans (h _ _) (sameBut_mono (setJob_frame _ _ _) (by decide))

/-- All that the part does of itself is on its chains, and on what they post and leave. -/
theorem tick_frame : s.sameBut [.ports, .files, .out] s.tick := by
  unfold State.tick
  split
  · split
    · exact walkOn_frame s _ _
    · exact sameBut_refl _ s
  · exact sameBut_refl _ s

/-- Where no chain walks the catalogue, the part idles. -/
theorem tick_of_no_walk (h : ∀ c, s.walk c = none) : s.tick = s := by
  have : allChains.find? (fun c => (s.walk c).isSome) = none := by simp [h]
  rw [State.tick, this]

/-! ## The end of a chain, and the Service Arbiter -/

/-- What the end of a chain can change. -/
def chainParts : List Part := .files :: .stager :: segParts

theorem stopJob_frame (c) : s.sameBut chainParts (s.stopJob c) := by
  unfold State.stopJob
  split
  · exact sameBut_mono (endFeed_frame s _ _ _) (by decide)
  · exact sameBut_then (dropSeg_frame s _) (complete_frame _ _ _) (by decide) (by decide)
  · exact sameBut_then (dropSeg_frame s _) (complete_frame _ _ _) (by decide) (by decide)
  · exact sameBut_then (leaveStore_frame s _) (complete_frame _ _ _) (by decide) (by decide)
  · exact sameBut_mono (complete_frame s _ _) (by decide)
  · exact sameBut_mono (complete_frame s _ _) (by decide)

theorem resetJob_frame (c) : s.sameBut chainParts (s.resetJob c) := by
  unfold State.resetJob
  dsimp only
  refine sameBut_trans ?_ (sameBut_mono (modChain_frame _ _ _) (by decide))
  split
  · exact sameBut_mono (leaveFeed_frame s _) (by decide)
  · exact sameBut_mono (dropSeg_frame s _) (by decide)
  · exact sameBut_mono (dropSeg_frame s _) (by decide)
  · exact sameBut_mono (leaveStore_frame s _) (by decide)
  · exact sameBut_refl _ s
  · exact sameBut_refl _ s

theorem fetchFails_frame (c) : s.sameBut [.ports, .files, .out] (s.fetchFails c) := by
  unfold State.fetchFails
  exact sameBut_ite (sameBut_then (idleChain_frame s c) (notice_frame _ _ _ _) (by decide) (by decide)) (sameBut_refl _ s)

theorem bufferReadFails_frame (c) : s.sameBut chainParts (s.bufferReadFails c) := by
  unfold State.bufferReadFails
  split
  · exact sameBut_ite (sameBut_mono (endFeed_frame s _ _ _) (by decide)) (sameBut_refl _ s)
  · exact sameBut_then (dropSeg_frame s _) (complete_frame _ _ _) (by decide) (by decide)
  · exact sameBut_refl _ s

theorem portReset_frame (p) : s.sameBut chainParts (s.portReset p) := by
  unfold State.portReset
  dsimp only
  refine sameBut_trans ?_ (sameBut_mono (orphanFiles_frame _ _) (by decide))
  refine sameBut_trans ?_ (sameBut_mono (modPort_frame _ _ _) (by decide))
  refine sameBut_trans ?_ (sameBut_foldl (fun s c => resetJob_frame s ⟨p, c⟩) four _)
  exact sameBut_mono (modPort_frame s _ _) (by decide)

theorem charge_frame (p n) : s.sameBut [.ports, .arbiter] (s.charge p n) := by
  unfold State.charge
  dsimp only
  have h : ∀ f, s.sameBut [.ports, .arbiter] (s.modPort p f) := fun f => sameBut_mono (modPort_frame s p f) (by decide)
  refine sameBut_ite ?_ (sameBut_trans (h _) (sameBut_mono (setArbiter_frame _ _) (by decide)))
  refine sameBut_trans ?_ (sameBut_mono (setArbiter_frame _ _) (by decide))
  exact sameBut_trans (h _) (sameBut_mono (setPorts_frame _ _) (by decide))

theorem holdLane_frame (l r) : s.sameBut [.arbiter] (s.holdLane l r) := setArbiter_frame s _

theorem decodeGranted_frame (r) : s.sameBut (.files :: segParts) (s.decodeGranted r) := by
  unfold State.decodeGranted
  split
  · split
    · exact sameBut_then (jobState_frame s _ _) (decodeStands_frame _ _ _ _) (by decide) (by decide)
    · exact sameBut_refl _ s
  · exact sameBut_refl _ s

theorem granted_frame (c) : s.sameBut chainParts (s.granted c) := by
  unfold State.granted
  split
  · unfold State.feedGranted
    dsimp only
    refine sameBut_ite ?_ (sameBut_mono (endFeed_frame s _ _ _) (by decide))
    exact sameBut_then (setJob_frame s _ _) (setChainState_frame _ _ _) (by decide) (by decide)
  · exact sameBut_mono (decodeGranted_frame s _) (by decide)

theorem grantLane_frame : s.sameBut chainParts s.grantLane := by
  unfold State.grantLane
  split
  · split
    · refine sameBut_trans ?_ (granted_frame _ _)
      refine sameBut_trans ?_ (sameBut_mono (holdLane_frame _ _ _) (by decide))
      exact sameBut_then (charge_frame s _ _) (leaveArbiter_frame _ _) (by decide) (by decide)
    · refine sameBut_ite ?_ (sameBut_refl _ s)
      refine sameBut_trans ?_ (sameBut_mono (decodeGranted_frame _ _) (by decide))
      exact sameBut_then (setArbiter_frame s _) (holdLane_frame _ _ _) (by decide) (by decide)
  · exact sameBut_refl _ s

end Sys2Proof.Machine
end

