-- ==== Sys2Proof/Laws/Journal.lean ====
section
/-!
SUPPORT. What an append does to the Journal: the entry takes the next serial and stands in a page buffer or on the pending
list, no entry that waits to become durable is lost, and the unreleased entries keep within the journal's places.
-/

namespace Sys2Proof.Machine

/-! ## The entries that wait to become durable -/

theorem mem_entriesIn (j : Journal) (st : PageState) (e : JEntry) :
    e ∈ j.entriesIn st ↔ ∃ b ∈ j.bufs.toList, b.state = st ∧ e ∈ b.entries := by
  unfold Journal.entriesIn
  simp only [List.mem_flatMap]
  constructor
  · rintro ⟨b, hb, he⟩
    split at he
    · exact ⟨b, hb, by assumption, he⟩
    · simp at he
  · rintro ⟨b, hb, hs, he⟩
    exact ⟨b, hb, by rw [if_pos hs]; exact he⟩

theorem bufs_toList (j : Journal) : j.bufs.toList = [j.bufs[0], j.bufs[1]] := by
  apply List.ext_getElem
  · simp
  · intro i h1 h2
    rcases i with _ | _ | i
    · simp
    · simp
    · simp at h2

theorem mem_readyEntries (j : Journal) (e : JEntry) :
    e ∈ j.readyEntries ↔ ∃ b ∈ j.bufs.toList, b.state = .ready ∧ e ∈ b.entries := by
  unfold Journal.readyEntries Journal.readyBuf Journal.bufIn
  rw [bufs_toList]
  simp only [List.mem_cons, List.not_mem_nil, or_false, exists_eq_or_imp, exists_eq_left]
  by_cases h0 : j.bufs[0].state = .ready <;> by_cases h1 : j.bufs[1].state = .ready <;> simp [h0, h1]
  by_cases hc : (Option.map (fun x => x.serial) j.bufs[1].entries.head?).getD 0
      < (Option.map (fun x => x.serial) j.bufs[0].entries.head?).getD 0
  · simp [hc, or_comm]
  · simp [hc]

/-- An entry waits to become durable when it is pending or stands in a buffer that is not free. -/
theorem mem_undurable (j : Journal) (e : JEntry) :
    e ∈ j.undurable ↔ e ∈ j.pending ∨ ∃ b ∈ j.bufs.toList, b.state ≠ .free ∧ e ∈ b.entries := by
  unfold Journal.undurable
  simp only [List.mem_append, mem_entriesIn, mem_readyEntries]
  constructor
  · rintro (((h | h) | h) | h)
    · obtain ⟨b, hb, hs, he⟩ := h; exact .inr ⟨b, hb, by simp [hs], he⟩
    · obtain ⟨b, hb, hs, he⟩ := h; exact .inr ⟨b, hb, by simp [hs], he⟩
    · obtain ⟨b, hb, hs, he⟩ := h; exact .inr ⟨b, hb, by simp [hs], he⟩
    · exact .inl h
  · rintro (h | ⟨b, hb, hs, he⟩)
    · exact .inr h
    · cases hst : b.state
      · exact absurd hst hs
      · exact .inl (.inr ⟨b, hb, hst, he⟩)
      · exact .inl (.inl (.inr ⟨b, hb, hst, he⟩))
      · exact .inl (.inl (.inl ⟨b, hb, hst, he⟩))

/-- The same, buffer by buffer. -/
theorem awaits_iff (j : Journal) (e : JEntry) :
    j.awaits e ↔ e ∈ j.pending ∨ (j.bufs[0].state ≠ .free ∧ e ∈ j.bufs[0].entries)
      ∨ (j.bufs[1].state ≠ .free ∧ e ∈ j.bufs[1].entries) := by
  unfold Journal.awaits
  rw [mem_undurable, bufs_toList]
  simp

/-! ## What the page buffers' movements keep -/

theorem awaits_setPageState {s : State} {e : JEntry} (h : s.journal.awaits e) (i : Fin 2) (st : PageState)
    (hst : st ≠ .free) : (s.setPageState i st).journal.awaits e := by
  rw [awaits_iff] at h ⊢
  unfold State.setPageState
  simp only [State.setJournal_journal, vmod]
  rcases i with ⟨_ | _ | i, hi⟩
  · simp [hst] at h ⊢; tauto
  · simp [hst] at h ⊢; tauto
  · omega

theorem startPageWrite_journal (s : State) :
    s.startPageWrite.journal = s.journal ∨ ∃ i, s.startPageWrite.journal = (s.setPageState i .writing).journal := by
  unfold State.startPageWrite
  split
  · split
    · exact .inr ⟨_, (request_frame _ _ _).journal (by decide)⟩
    · exact .inl rfl
  · exact .inl rfl

theorem awaits_startPageWrite {s : State} {e : JEntry} (h : s.journal.awaits e) : s.startPageWrite.journal.awaits e := by
  rcases startPageWrite_journal s with h' | ⟨i, h'⟩
  · rw [h']; exact h
  · rw [h']; exact awaits_setPageState h i .writing (by decide)

theorem awaits_fillPage {s : State} {e : JEntry} (h : s.journal.awaits e) {i : Fin 2} (hi : s.journal.bufIn .free = some i) :
    (s.fillPage i).journal.awaits e := by
  rw [awaits_iff] at h ⊢
  unfold State.fillPage
  simp only [State.setJournal_journal, vset]
  have hd : ∀ e, e ∈ s.journal.pending → e ∈ s.journal.pending.drop pageEntries ∨ e ∈ s.journal.pending.take pageEntries :=
    fun e he => by
      have := List.take_append_drop pageEntries s.journal.pending
      rw [← this] at he
      exact (List.mem_append.mp he).symm
  have hfree : s.journal.bufs[i.val].state = .free := by
    unfold Journal.bufIn at hi
    split at hi
    · cases hi; assumption
    · split at hi
      · cases hi; assumption
      · cases hi
  rcases i with ⟨_ | _ | i, hi'⟩
  · rcases h with h | h | h
    · rcases hd e h with h | h <;> simp [h]
    · exact absurd hfree h.1
    · simp [h]
  · rcases h with h | h | h
    · rcases hd e h with h | h <;> simp [h]
    · simp [h]
    · exact absurd hfree h.1
  · omega

theorem awaits_pumpPages {e : JEntry} (n : Nat) {s : State} (h : s.journal.awaits e) :
    (State.pumpPages n s).journal.awaits e := by
  induction n generalizing s with
  | zero => exact h
  | succ n ih =>
    unfold State.pumpPages
    split
    · split
      · exact ih (awaits_startPageWrite (awaits_setPageState h _ _ (by decide)))
      · exact h
    · split
      · rename_i hi; exact ih (awaits_fillPage h hi)
      · exact h

/-! ## What they leave of the rest of the Journal -/

/-- The fields of the Journal that the page buffers' movements leave. -/
structure Journal.sameRest (j k : Journal) : Prop where
  next : k.next = j.next
  durable : k.durable = j.durable
  writePos : k.writePos = j.writePos
  lastSlot : k.lastSlot = j.lastSlot
  extents : k.extents = j.extents
  pageMap : k.pageMap = j.pageMap
  failures : k.failures = j.failures
  low : k.low = j.low
  wait : k.wait = j.wait
  reserved : k.reserved = j.reserved

theorem sameRest_refl (j : Journal) : j.sameRest j := ⟨rfl, rfl, rfl, rfl, rfl, rfl, rfl, rfl, rfl, rfl⟩

theorem sameRest_moved (j : Journal) (b : Vector PageBuf 2) (p : List JEntry) :
    j.sameRest { j with bufs := b, pending := p } := ⟨rfl, rfl, rfl, rfl, rfl, rfl, rfl, rfl, rfl, rfl⟩

theorem sameRest_trans {j k l : Journal} (h : j.sameRest k) (g : k.sameRest l) : j.sameRest l :=
  ⟨g.next.trans h.next, g.durable.trans h.durable, g.writePos.trans h.writePos, g.lastSlot.trans h.lastSlot,
    g.extents.trans h.extents, g.pageMap.trans h.pageMap, g.failures.trans h.failures, g.low.trans h.low,
    g.wait.trans h.wait, g.reserved.trans h.reserved⟩

theorem setPageState_rest (s : State) (i st) : s.journal.sameRest (s.setPageState i st).journal :=
  sameRest_moved s.journal _ _

theorem fillPage_rest (s : State) (i) : s.journal.sameRest (s.fillPage i).journal := sameRest_moved s.journal _ _

theorem startPageWrite_rest (s : State) : s.journal.sameRest s.startPageWrite.journal := by
  rcases startPageWrite_journal s with h | ⟨i, h⟩
  · rw [h]; exact sameRest_refl _
  · rw [h]; exact setPageState_rest s i _

theorem pumpPages_rest (n : Nat) (s : State) : s.journal.sameRest (State.pumpPages n s).journal := by
  induction n generalizing s with
  | zero => exact sameRest_refl _
  | succ n ih =>
    unfold State.pumpPages
    split
    · split
      · exact sameRest_trans (sameRest_trans (setPageState_rest s _ _) (startPageWrite_rest _)) (ih _)
      · exact sameRest_refl _
    · split
      · exact sameRest_trans (fillPage_rest s _) (ih _)
      · exact sameRest_refl _

/-! ## An append -/

/-- The Journal just after an append has placed its entry, before the page buffers move. -/
theorem appendRaw_eq (s : State) (body : JBody) :
    ∃ t : State, s.appendRaw body = State.pumpPages 6 t ∧ t.journal.awaits ⟨s.journal.next, s.clock.value, body⟩
      ∧ (∀ e, s.journal.awaits e → t.journal.awaits e)
      ∧ ({ s.journal with next := s.journal.next + 1 } : Journal).sameRest t.journal := by
  refine ⟨_, rfl, ?_⟩
  dsimp only
  split
  · rename_i i hi
    have hg : s.journal.bufs[i.val].state = .gathering := by
      simp only [State.setJournal_journal] at hi
      unfold Journal.bufIn at hi
      split at hi
      · cases hi; assumption
      · split at hi
        · cases hi; assumption
        · cases hi
    split
    · refine ⟨?_, fun e he => ?_, sameRest_moved { s.journal with next := s.journal.next + 1 } _ _⟩ <;> simp only [awaits_iff, State.setJournal_journal, vmod] at *
      · rcases i with ⟨_ | _ | i, hi'⟩
        · simp at hg ⊢; simp [hg]
        · simp at hg ⊢; simp [hg]
        · omega
      · rcases i with ⟨_ | _ | i, hi'⟩
        · simp at hg he ⊢; simp [hg]; tauto
        · simp at hg he ⊢; simp [hg]; tauto
        · omega
    · refine ⟨?_, fun e he => ?_, sameRest_moved { s.journal with next := s.journal.next + 1 } _ _⟩ <;> simp only [awaits_iff, State.setJournal_journal] at *
      · simp
      · simp; tauto
  · refine ⟨?_, fun e he => ?_, sameRest_moved { s.journal with next := s.journal.next + 1 } _ _⟩ <;> simp only [awaits_iff, State.setJournal_journal] at *
    · simp
    · simp; tauto

/-- What an append does: its entry takes the next serial and the clock value and waits to become durable, as every entry
that waited still does; nothing else of the Journal changes but its buffers. -/
theorem appendRaw_spec (s : State) (body : JBody) :
    s.appended body (s.appendRaw body)
      ∧ (∀ e, s.journal.awaits e → (s.appendRaw body).journal.awaits e)
      ∧ ({ s.journal with next := s.journal.next + 1 } : Journal).sameRest (s.appendRaw body).journal := by
  have hc : (s.appendRaw body).clock = s.clock := (appendRaw_frame s body).clock (by decide)
  obtain ⟨t, ht, h1, h2, h3⟩ := appendRaw_eq s body
  have h4 := sameRest_trans h3 (pumpPages_rest 6 t)
  refine ⟨⟨?_, ?_⟩, fun e he => ?_, ?_⟩
  · rw [ht]; exact h4.next
  · rw [hc, ht]; exact awaits_pumpPages 6 h1
  · rw [ht]; exact awaits_pumpPages 6 (h2 e he)
  · rw [ht]; exact h4

/-- Deciding the low state leaves the Journal but for its low state. -/
theorem decideLow_journal (s : State) : s.decideLow.journal = { s.journal with low := decide (s.freePlaces < lowMark) } := by
  unfold State.decideLow
  dsimp only
  split
  · rename_i h; rw [h]
  · rw [(tellScanner_frame _ _).journal (by decide)]
    split
    · rw [(noticeAll_frame _ _ _).journal (by decide)]; rfl
    · rfl

/-! ## Places (R151 to R153) -/

/-- Occupied places are never fewer than unreleased entries. -/
theorem unreleased_le_occupied (s : State) : s.unreleased ≤ s.occupied := by
  unfold State.unreleased State.occupied
  omega

/-- Free places are places that no unreleased entry and no reservation takes. -/
theorem freePlaces_room {s : State} {n : Nat} (hn : 0 < n) (h : n ≤ s.freePlaces) :
    s.unreleased + s.journal.reserved + n ≤ 1048576 := by
  have := unreleased_le_occupied s
  unfold State.freePlaces journalPlaces at h
  omega

/-- The law of places depends on the next serial, the release serial and the reserved places alone. -/
theorem withinPlaces_of_le {s t : State} (h : s.withinPlaces) (hn : t.journal.next ≤ s.journal.next)
    (hr : s.settings.release ≤ t.settings.release) (hp : t.journal.reserved ≤ s.journal.reserved) : t.withinPlaces := by
  unfold State.withinPlaces State.unreleased at *
  omega

theorem reserveWait_within {s : State} (h : s.withinPlaces) : s.reserveWait.withinPlaces := by
  unfold State.reserveWait
  split
  · exact h
  · by_cases hf : s.freePlaces = 0
    · exact withinPlaces_of_le h (Nat.le_refl _) (Nat.le_refl _)
        (by simp only [State.setJournal_journal, hf, Nat.add_zero]; exact Nat.min_le_right _ _)
    · have := freePlaces_room (Nat.pos_of_ne_zero hf) (Nat.le_refl s.freePlaces)
      unfold State.withinPlaces State.unreleased at *
      simp only [State.setJournal_journal, State.setJournal_settings]
      omega

theorem decideLow_within {s : State} (h : s.withinPlaces) : s.decideLow.withinPlaces := by
  have hj := decideLow_journal s
  exact withinPlaces_of_le h (by rw [hj]) (by rw [(decideLow_frame s).settings (by decide)]) (by rw [hj])

theorem nextAppend_within {s : State} (h : s.withinPlaces) : s.nextAppend.withinPlaces :=
  decideLow_within (reserveWait_within h)

theorem joinAppend_within {s : State} (h : s.withinPlaces) (r : AppendReq) : (s.joinAppend r).withinPlaces :=
  decideLow_within (reserveWait_within (withinPlaces_of_le h (Nat.le_refl _) (Nat.le_refl _) (Nat.le_refl _)))

/-- What is dealt down the append wait list is no more than what is reserved. -/
theorem dealt_sum_le (n : Nat) (l : List AppendReq) : ((dealt n l).map Prod.snd).sum ≤ n := by
  induction l generalizing n with
  | nil => simp [dealt]
  | cons r t ih =>
    have := ih (n - r.places)
    simp only [dealt, List.map_cons, List.sum_cons]
    omega

theorem leaveAppend_within {s : State} (h : s.withinPlaces) (c : ChainRef) : (s.leaveAppend c).withinPlaces := by
  unfold State.leaveAppend
  dsimp only
  split
  · exact h
  · refine decideLow_within (reserveWait_within (withinPlaces_of_le h (Nat.le_refl _) (Nat.le_refl _) ?_))
    exact Nat.le_trans ((List.filter_sublist.map Prod.snd).sum_le_sum (fun _ _ => Nat.zero_le _)) (dealt_sum_le _ _)

/-- An append takes one place that was neither occupied by an entry nor reserved. -/
theorem appendRaw_within {s : State} (h : s.unreleased + s.journal.reserved + 1 ≤ 1048576) (body : JBody) :
    (s.appendRaw body).withinPlaces := by
  have hs := (appendRaw_spec s body).2.2
  unfold State.withinPlaces State.unreleased at *
  rw [hs.next, hs.reserved, (appendRaw_frame s body).settings (by decide)]
  simp only
  omega

end Sys2Proof.Machine
end

