-- ==== Sys2Proof/WellFormed.lean ====
section
/-!
DEFINITION. Well-formed commands: every operand fits the field that carries it (R73, R110, R132, R168, R171).
-/

namespace Sys2Proof

/-- A value of a field of `w` bytes. -/
def inBytes (w n : Nat) : Bool := decide (n < 256 ^ w)

/-- An optional value of a field of `w` bytes. -/
def optInBytes (w : Nat) : Option Nat → Bool
  | none => true
  | some n => inBytes w n

/-- One value for each trained field, each in a field of `w` bytes. -/
def Three.inBytes (w : Nat) (t : Three) : Bool :=
  Sys2Proof.inBytes w t.td && Sys2Proof.inBytes w t.du && Sys2Proof.inBytes w t.cu

/-- A buffer: an address of 8 bytes, a count of 4 (12.3, R171). -/
def Buf.wellFormed (b : Buf) : Bool := inBytes 8 b.addr && inBytes 4 b.count

/-- A handling: its fill value fits 4 bytes (R132, R171). -/
def Handling.wellFormed : Handling → Bool
  | .fill v => inBytes 4 v
  | .deliver => true
  | .absent => true
  | .empty => true
  | .unnamed => true

/-- A projection: every field of 4 bytes (R132, R171). -/
def Projection.wellFormed (p : Projection) : Bool :=
  inBytes 4 p.k1 && inBytes 4 p.k2 && inBytes 4 p.fillDigit && p.cell.wellFormed && p.trunk.wellFormed
    && p.units.wellFormed && p.supp.wellFormed

/-- A retrieval cursor (R125, R171). -/
def Cursor.wellFormed (c : Cursor) : Bool := inBytes 4 c.serial && inBytes 4 c.index

/-- Strap pins: a floor of 10 bits (R104, R168). -/
def StrapPins.wellFormed (p : StrapPins) : Bool := decide (p.floor < 1024)

/-- A damaged settings record: a hold slot's id reads as 16 bits (R110, R115). -/
def SettingsId.wellFormed : SettingsId → Bool
  | .hold _ id => inBytes 2 id
  | .row _ => true
  | .savedDay => true
  | .sealCounter => true
  | .lastSeal => true
  | .release => true
  | .badTable => true

/-- Header values, by the widths of the segment header (R73). -/
def SegHeader.wellFormed (h : SegHeader) : Bool :=
  inBytes 2 h.seg.source && decide (h.seg.cls < 8) && inBytes 4 h.seg.fileNo && inBytes 4 h.seg.serial
    && inBytes 4 h.seg.count && inBytes 4 h.seg.bits && inBytes 2 h.seg.minDay && inBytes 2 h.seg.maxDay
    && inBytes 8 h.seg.durSum && inBytes 8 h.seg.unitsSum && inBytes 2 h.seg.ratio && inBytes 4 h.base
    && h.widths.inBytes 1

/-- Contents of an extent: header values that fit, and a body within the capacity (R59, R73). -/
def ExtentContent.wellFormed : ExtentContent → Bool
  | .segment h _ body => h.wellFormed && decide (body.length ≤ bodyCapacity)
  | .erased => true
  | .incomplete => true

/-- The answer to an extent's READ. -/
def ReadOutcome.wellFormed : ReadOutcome → Bool
  | .returned c => c.wellFormed
  | .failed => true
  | .stored => true

/-- The answer to a page's READ: at most 64 entries, each with a serial of 6 bytes (R149, R171). -/
def PageOutcome.wellFormed : PageOutcome → Bool
  | .returned (.page entries) =>
    decide (entries.length ≤ pageEntries) && entries.all (fun e => inBytes 6 e.entry.serial && inBytes 4 e.entry.time)
  | .returned .erased => true
  | .failed => true
  | .stored => true

/-- A command whose operands fit their fields. -/
def Instr.wellFormed : Instr → Bool
  | .streamOpen _ source cls _ _ _ widths force samples tolerance =>
    inBytes 2 source && inBytes 1 cls && widths.inBytes 1 && force.inBytes 1 && inBytes 4 samples && inBytes 1 tolerance
  | .streamClose _ source => inBytes 2 source
  | .fileOpen _ source fileNo minutes => inBytes 2 source && inBytes 4 fileNo && inBytes 4 minutes
  | .fileFeed _ buf source fileNo => buf.wellFormed && inBytes 2 source && inBytes 4 fileNo
  | .fileResume _ source fileNo => inBytes 2 source && inBytes 4 fileNo
  | .fileAbandon _ source fileNo => inBytes 2 source && inBytes 4 fileNo
  | .fileAdopt _ source fileNo => inBytes 2 source && inBytes 4 fileNo
  | .streamSnapshot _ buf source => buf.wellFormed && inBytes 2 source
  | .streamMask _ source _ _ => inBytes 2 source
  | .widthSet _ source force tolerance => inBytes 2 source && force.inBytes 4 && inBytes 4 tolerance
  | .gapRead _ buf source => buf.wellFormed && inBytes 2 source
  | .catalogueRead _ buf start source st =>
    buf.wellFormed && inBytes 4 start && optInBytes 2 source && optInBytes 1 st
  | .retrieve _ buf source a b cursor =>
    buf.wellFormed && optInBytes 2 source && inBytes 2 a && inBytes 2 b
      && (match cursor with | some c => c.wellFormed | none => true)
  | .projectionSet _ p => p.wellFormed
  | .policyPropose _ cls days => inBytes 1 cls && inBytes 2 days
  | .policyEndorse _ cls days => inBytes 1 cls && inBytes 2 days
  | .holdPlace _ source a b => optInBytes 2 source && inBytes 2 a && inBytes 2 b
  | .holdRelease _ id => inBytes 4 id
  | .clockSet _ value => inBytes 4 value
  | .verify _ extent _ => inBytes 4 extent
  | .scrubSet _ _ start => inBytes 4 start
  | .damagedDiscard _ extent => inBytes 4 extent
  | .journalRead _ buf serial => buf.wellFormed && inBytes 8 serial
  | .journalRelease _ serial => inBytes 8 serial
  | .serviceSet _ interval => inBytes 4 interval
  | .statusRead _ buf => buf.wellFormed
  | .identify _ buf => buf.wellFormed
  | .jump _ target => inBytes 4 target
  | .halt _ => true
  | .chainStart _ _ _ => true
  | .chainStop _ _ _ => true
  | .portDrain _ _ _ => true
  | .portOpen _ _ _ => true
  | .noticeArea _ _ _ => true
  | .torn _ _ _ _ => true
  | .registerWrite _ _ _ => true
  | .descriptorFetch _ _ _ => true
  | .descriptorFetchTimeout _ _ => true
  | .bufferReadTimeout _ _ => true
  | .linkUp _ => true
  | .linkDown _ => true
  | .functionLevelReset _ => true
  | .functionLevelResetEnd _ => true
  | .laneGrant => true
  | .recordPlace _ _ _ => true
  | .stagingBufferGiven => true
  | .fileDeadlineExpiry file => decide (file < 32)
  | .powerOn pins damaged => pins.wellFormed && damaged.all SettingsId.wellFormed
  | .powerOff _ _ _ _ => true
  | .journalScanReadComplete outcome => outcome.wellFormed
  | .headerReadComplete _ outcome => outcome.wellFormed
  | .dividerSecond => true
  | .pulse => true
  | .pulseWatchdogExpiry => true
  | .policyCommit => true
  | .scanVisit => true
  | .sealAllocation => true
  | .queuePlaceGiven _ => true
  | .segmentWriteComplete _ _ => true
  | .segmentReadComplete _ outcome => outcome.wellFormed
  | .eraseComplete _ _ => true
  | .journalPageWriteComplete _ => true
  | .pageTimerExpiry => true
  | .journalEraseComplete _ => true
  | .journalPageReadComplete outcome => outcome.wellFormed
  | .appendWaitServed => true
  | .pinGrant extent => decide (extent < extentCount)
  | .decodedRecord _ => true
  | .damageReport => true
  | .scrubConsider => true
  | .errorCompletion _ _ => true

end Sys2Proof
end

