-- ==== Sys2Proof/Tests/Slice0.lean ====
section
/-!
SUPPORT. Tests: ill-formed commands refused, the spec's worked examples on the model, and for each obligation with hypotheses
a state and operands that meet them.
-/

namespace Sys2Proof.Tests

-- One thread elaborates this file: a thread per theorem asks for more stack than the check allows.
set_option Elab.async false

open Sys2Proof Sys2Proof.Machine

/-! ## Ill-formed commands -/

def at0 : At := { port := 0, chain := 0, notify := false, haltOnError := false }
def at3 : At := { port := 3, chain := 0, notify := true, haltOnError := false }
def buf0 : Buf := { addr := 0x10000, count := 0 }

theorem test_ill_stream_open : (Instr.streamOpen at0 65536 0 0 0 0 ⟨0, 0, 0⟩ ⟨0, 0, 0⟩ 0 0).wellFormed = false := by decide
theorem test_ill_stream_open_widths :
    (Instr.streamOpen at0 1 0 0 0 0 ⟨256, 0, 0⟩ ⟨0, 0, 0⟩ 0 0).wellFormed = false := by decide
theorem test_ill_stream_open_force :
    (Instr.streamOpen at0 1 0 0 0 0 ⟨0, 0, 0⟩ ⟨0, 0, 256⟩ 0 0).wellFormed = false := by decide
theorem test_ill_stream_open_class : (Instr.streamOpen at0 1 256 0 0 0 ⟨0, 0, 0⟩ ⟨0, 0, 0⟩ 0 0).wellFormed = false := by
  decide
theorem test_ill_stream_close : (Instr.streamClose at0 65536).wellFormed = false := by decide
theorem test_ill_file_open : (Instr.fileOpen at0 1 4294967296 0).wellFormed = false := by decide
theorem test_ill_file_open_minutes : (Instr.fileOpen at0 1 1 4294967296).wellFormed = false := by decide
theorem test_ill_buffer_address : (Instr.fileFeed at0 ⟨18446744073709551616, 32⟩ 1 1).wellFormed = false := by decide
theorem test_ill_buffer_count : (Instr.streamSnapshot at0 ⟨0, 4294967296⟩ 1).wellFormed = false := by decide
theorem test_ill_width_set : (Instr.widthSet at0 1 ⟨4294967296, 0, 0⟩ 0).wellFormed = false := by decide
theorem test_ill_catalogue_source : (Instr.catalogueRead at0 buf0 0 (some 65536) none).wellFormed = false := by decide
theorem test_ill_catalogue_state : (Instr.catalogueRead at0 buf0 0 none (some 256)).wellFormed = false := by decide
theorem test_ill_retrieve_day : (Instr.retrieve at0 buf0 none 0 65536 none).wellFormed = false := by decide
theorem test_ill_retrieve_cursor : (Instr.retrieve at0 buf0 none 0 0 (some ⟨4294967296, 0⟩)).wellFormed = false := by decide
theorem test_ill_projection : (Instr.projectionSet at0
    { Projection.everything with cell := .fill 4294967296 }).wellFormed = false := by decide
theorem test_ill_projection_digits :
    (Instr.projectionSet at0 { Projection.everything with k1 := 4294967296 }).wellFormed = false := by decide
theorem test_ill_policy_days : (Instr.policyPropose at0 0 65536).wellFormed = false := by decide
theorem test_ill_policy_class : (Instr.policyEndorse at0 256 1).wellFormed = false := by decide
theorem test_ill_hold_range : (Instr.holdPlace at0 none 65536 0).wellFormed = false := by decide
theorem test_ill_hold_id : (Instr.holdRelease at0 4294967296).wellFormed = false := by decide
theorem test_ill_clock : (Instr.clockSet at0 4294967296).wellFormed = false := by decide
theorem test_ill_extent : (Instr.verify at0 4294967296 false).wellFormed = false := by decide
theorem test_ill_scrub_start : (Instr.scrubSet at0 true 4294967296).wellFormed = false := by decide
theorem test_ill_journal_serial : (Instr.journalRead at0 buf0 18446744073709551616).wellFormed = false := by decide
theorem test_ill_release_serial : (Instr.journalRelease at0 18446744073709551616).wellFormed = false := by decide
theorem test_ill_interval : (Instr.serviceSet at0 4294967296).wellFormed = false := by decide
theorem test_ill_target : (Instr.jump at0 4294967296).wellFormed = false := by decide
theorem test_ill_file_entry : (Instr.fileDeadlineExpiry 32).wellFormed = false := by decide
theorem test_ill_pin_extent : (Instr.pinGrant 131072).wellFormed = false := by decide
theorem test_ill_strap_floor :
    (Instr.powerOn { roles := Vector.replicate 4 ⟨false, false, false⟩, floor := 1024, ext := false } []).wellFormed = false := by
  decide
theorem test_ill_settings_id :
    (Instr.powerOn { roles := Vector.replicate 4 ⟨false, false, false⟩, floor := 0, ext := false }
      [.hold 0 65536]).wellFormed = false := by decide
theorem test_ill_header : (Instr.headerReadComplete 0 (.returned (.segment
    { seg := { source := 0, cls := 8, fileNo := 0, serial := 1, count := 1, bits := 23, firstSeq := 0, lastSeq := 0, minDay := 0,
               maxDay := 0, durSum := 0, unitsSum := 0, crc := 0, ratio := 0 },
      base := 0, widths := ⟨1, 1, 1⟩ } 0 []))).wellFormed = false := by decide
theorem test_ill_page : (Instr.journalScanReadComplete (.returned (.page
    [⟨⟨281474976710656, 0, .policyLapsed 0 1 0⟩, true⟩]))).wellFormed = false := by decide
theorem test_well_formed : (Instr.catalogueRead at0 ⟨64, 4096⟩ 131071 (some 65535) (some 9)).wellFormed = true := by decide

/-! ## Worked examples of the spec -/

/-- 5.4: the CRC of "123456789", and of no bytes. -/
theorem test_crc_check_value :
    crc32 [0x31, 0x32, 0x33, 0x34, 0x35, 0x36, 0x37, 0x38, 0x39] = 0xCBF43926 ∧ crc32 [] = 0 := by decide +kernel

def gapsOf (a : Account) : List (Nat × Nat) := a.gaps.map (fun g => (g.first.toNat, g.last.toNat))

/-- An account after a record is presented to it. -/
def present (a : Account) (n : Nat) : Account :=
  match classify a (BitVec.ofNat 32 n) with
  | some c => (mark a c (BitVec.ofNat 32 n)).1
  | none => a

def stream417 : Account :=
  { e := 1000, window := 0x28, gaps := [⟨700, 709⟩], advance := 4600, dropped := 0 }

/-- 2.5, first table: the shift. -/
theorem test_shift : (present stream417 1300).e = 1045
    ∧ gapsOf (present stream417 1300) = [(700, 709), (1000, 1002), (1004, 1004), (1006, 1044)]
    ∧ (present stream417 1300).window = 1#256 <<< 255 := by decide +kernel

/-- 2.5, first table: the late fills, the duplicate and the advance. -/
theorem test_late_fills :
    let a := [1300, 1020, 1004, 1001, 1003, 1046, 1045].foldl present stream417
    a.e = 1047 ∧ a.advance = 4647 ∧ a.window = 1#256 <<< 253
      ∧ gapsOf a = [(700, 709), (1000, 1000), (1002, 1002), (1006, 1019), (1021, 1044)] := by decide +kernel

/-- 2.5: the repeat of 1003 is DUPLICATE. -/
theorem test_repeat_is_duplicate : classify ([1300, 1020, 1004, 1001].foldl present stream417) 1003 = none := by
  decide +kernel

/-- 2.5, second table: the merge. -/
theorem test_merge :
    let a := [2400, 2700].foldl present (Account.fresh 2000)
    a.e = 2445 ∧ gapsOf a = [(2000, 2399), (2401, 2444)] := by decide +kernel

/-- A record of stream 0x0731 in 4.7. -/
def record731 (seq start duration units : Nat) (supp : List Nat) : Rec :=
  { source := 0x731, seq := BitVec.ofNat 32 seq, start, duration, units, callType := 2, cause := 16,
    calling := [2, 0, 7, 9, 4, 6, 0, 1, 2, 3], called := [3, 4, 1, 2, 0, 7, 5, 5, 5, 1, 2], cell := none, trunk := some 9,
    supp }

def codec731 : Codec := Codec.fresh 1000000 ⟨6, 9, 5⟩
def first731 : Rec := record731 1000 1000000 95 3 []

/-- 4.7: record 1 takes 184 bits, and its miss pushes the head at TOP 7. -/
theorem test_record_1 : encodedLength codec731 first731 = 184
    ∧ (codec731.after first731 184).stack.top = 7
    ∧ (codec731.after first731 184).stack.at_ 0 = some [3, 4, 1, 2, 0, 7] := by decide +kernel

/-- 2.1 of the conventions: bits(95) is 7 and bits(640) is 10. -/
theorem test_bits : bitsOf 95 = 7 ∧ bitsOf 640 = 10 ∧ bitsOf 0 = 1 := by decide +kernel

/-- 3.5: the checks of places 1, 2 and 4. -/
def input640 : CheckInput :=
  { source := 0x640, mask := 0b00111110, account := Account.fresh 0, clock := 19300 * 86400, days := 400 }

def raw640 : RawRec :=
  { source := 0x640, seq := 0, start := 19299 * 86400, duration := 60, units := 1, callType := 0, cause := 0, callingLen := 2,
    calledLen := 3, calling := List.replicate 16 1, called := List.replicate 20 2, cell := none, trunk := none,
    suppCount := 0, supp := List.replicate 8 0 }

theorem test_digits_and_range :
    let r := checkRecord input640 0 { raw640 with calledLen := 23, duration := 20000000,
                                                  called := (List.replicate 20 2).set 9 12 }
    r.result = .accept .inWindow ∧ r.record.calledLen = 20 ∧ r.record.called = (List.replicate 20 2).set 9 0
      ∧ r.record.duration = 16777215 ∧ r.changed = true := by decide +kernel

theorem test_source_first : (checkRecord input640 0 { raw640 with source := 0x641, calledLen := 30 }).result = .dropSource
    ∧ (checkRecord input640 0 { raw640 with source := 0x641, calledLen := 30 }).sticky = 0b10 := by decide +kernel

theorem test_skew_and_expired :
    (checkRecord input640 0 { raw640 with start := 19303 * 86400 }).result = .accept .inWindow
      ∧ (checkRecord input640 0 { raw640 with start := 18890 * 86400 }).result = .halt .expired
      ∧ (checkRecord input640 0 { raw640 with start := 18900 * 86400 }).result = .accept .inWindow := by decide +kernel

/-- 10.1: the outcome of file 740, and of file 12 with its saturated count. -/
def file740 : FileEntry :=
  { FileEntry.opening 740 0 0 90 with presented := 31, accepted := 29, duplicates := 1, dropped := 1, durSum := 4812,
                                      unitsSum := 1250, trailer := some ⟨0x2A1, 740, 31, 5001, 5029, 4812, 1252⟩ }

def file12 : FileEntry :=
  { FileEntry.opening 12 0 0 90 with presented := 5000000000, accepted := 5000000000, durSum := 4812, unitsSum := 1252,
                                     trailer := some ⟨0x955, 12, 4294967295, 0, 0, 4812, 1252⟩ }

theorem test_three_files :
    (reconOf 0x2A1 0 .trailer file740).closedFields.units = .archiveLow
      ∧ (reconOf 0x2A1 0 .trailer file740).outcome = .mismatched
      ∧ (reconOf 0x310 0 .deadline { file740 with trailer := none }).closedFields.count = .unordered
      ∧ (reconOf 0x955 0 .trailer file12).closedFields.count = .equal
      ∧ (reconOf 0x955 0 .trailer file12).outcome = .mismatched := by decide +kernel

/-! ## A READY part -/

/-- Port 0 has every role and its notice area set, port 1 RETRIEVAL, port 2 INTAKE, port 3 AUDIT; the floor is 30. -/
def pins : StrapPins :=
  { roles := #v[⟨true, true, true⟩, ⟨false, true, false⟩, ⟨true, false, false⟩, ⟨false, false, true⟩], floor := 30,
    ext := false }

/-- An OPEN port whose chain 0 is fetching at 64. -/
def openPort : Port :=
  { Port.reset with state := .opened, chains := vset (Vector.replicate 4 Chain.idle) 0 ⟨.running, 64, none⟩ }

/-- Day 100 on every active row of 60 days, nothing else. -/
def ready : State :=
  let s := State.powerOnValues [] [] pins
    { Settings.shipped with rows := Vector.replicate 8 60, savedDay := 100, sealCounter := 10, lastSeal := 9 }
    { extents := [], pages := [] }
  { s with
    power := .ready, clock := { s.clock with value := 8640000 },
    ports := (Vector.replicate 4 openPort).set 0 { openPort with area := some ⟨4096, true, true, true⟩ } }

def stream7 : Stream :=
  { source := 7, cls := 1, fill := 0xFF, mask := 0, sticky := 0, lastFault := none, account := Account.fresh 100,
    training := Training.fresh ⟨32, 24, 32⟩ ⟨0, 0, 0⟩ 16 2, file := none }

/-- A stream of source 7 in slot 0. -/
def registered : State := { ready with streams := [(0, stream7)] }

def file5 : FileEntry := FileEntry.opening 5 0 0 0
def codec0 : Codec := Codec.fresh 8640000 ⟨32, 24, 32⟩
def staging0 : Staging := { stream := 0, fileNo := 5, body := [], state := .opened codec0 }

/-- File 5 of source 7, OPEN, owned by port 0, with its open segment in buffer 0. -/
def fileOf (f : FileEntry) : State :=
  { registered with
    streams := [(0, { stream7 with file := some 0 })], files := [(0, f)],
    stager := { bufs := [(0, staging0)], wait := [], seals := [] } }

def filing : State := fileOf { file5 with openSeg := some 0 }

/-- A chain's descriptor at 64 with a job. -/
def State.run (s : State) (p : PortId) (st : ChainState) (j : Job) : State :=
  s.modChain ⟨p, 0⟩ (fun _ => ⟨st, 128, some ⟨64, true, false, some j⟩⟩)

def feed0 : Feed := { Feed.begin 0 0 7 32 with laneHeld := true }

/-- File 5 fed by chain 0 of port 0, which holds lane 0. -/
def feeding : State :=
  { State.run filing 0 .running (.feed feed0) with
    arbiter := { ready.arbiter with lanes := ready.arbiter.lanes.set 0 (some (.chain ⟨0, 0⟩)) } }

/-- A record place holding some bytes. -/
def placeOf (bytes : List Byte) : Vector Byte 64 := Vector.ofFn (fun i => bytes.getD i.val 0)

/-- A record of source 7, sequence 100, in range and on today. -/
def rec100 : Rec :=
  { source := 7, seq := 100, start := 8640000, duration := 95, units := 3, callType := 2, cause := 16,
    calling := [2, 0, 7], called := [3, 4, 1, 2, 0, 7, 5], cell := none, trunk := some 9, supp := [1] }

def place100 : Vector Byte 64 := placeOf (recBytes rec100)

/-- 1.3: a record is taken, and one of another source halts the file where SOURCE is unmasked. -/
theorem test_record_taken : (match exec (.recordPlace 0 0 place100) feeding with
    | .next t => (tget t.files 0).map (fun f => (f.presented, f.accepted, f.durSum))
    | _ => none) = some (1, 1, 95) := by decide +kernel

theorem test_record_halts : (match exec (.recordPlace 0 0 (placeOf (recBytes { rec100 with source := 8 }))) feeding with
    | .next t => (tget t.files 0).map (fun f => (f.presented, f.state, f.haltCause))
    | _ => none) = some (0, .halted, some .fault) := by decide +kernel

/-- A segment of two records of source 7, sealed under serial 5, and its header. -/
def records5 : List Rec := [rec100, { rec100 with seq := 101, start := 8640012, called := [3, 4, 1, 2, 0, 7, 6] }]
def body5 : List Bool := (codec0.encodeAll records5).1
def header5 : SegHeader := segmentHeader 7 1 5 5 (codec0.encodeAll records5).2

/-- An entry of segment 5 in a state. -/
def entry5 (st : EntryState) : Entry := { Entry.free with state := st, seg := some header5.seg }

/-- Extent 40,000, on channel 1, holds segment 5. -/
def archived5 (e : Entry) : State :=
  { registered with
    catalogue := [(40000, e)],
    flash := { registered.flash with extents := [(40000, .segment header5 (headerCheck header5) body5)] } }

def sealed5 : State := archived5 (entry5 .sealed)

/-- R67: a whole decode of the segment hands over its records and uses its body up. -/
theorem test_whole_decode :
    let d := decodeAll header5 2 { index := 0, rest := body5, codec := Codec.fresh header5.base header5.widths }
    d.1 = records5 ∧ d.2.rest = [] ∧ d.2.codec.summary.count = 2 ∧ d.2.codec.summary.bits = body5.length := by
  decide +kernel

/-- A chain's job on segment 5. -/
def onSegment (p : SegPhase) : SegJob := ⟨40000, 5, p⟩

def decoding5 : SegPhase :=
  .decoding header5 { index := 0, rest := body5, codec := Codec.fresh header5.base header5.widths }

def retrieval5 (p : SegPhase) : Retrieval :=
  { Retrieval.begin none 0 49710 ⟨0x10000, 0⟩ none (some Projection.everything) with
    position := some 5, current := some (onSegment p) }

/-! ## Hypotheses that can be met: the machine, streams and files -/

def arrivesB (s : State) (a : At) (role : Role) : Bool :=
  s.fetching (refOf a) && decide ((s.port a.port).state = .opened) && role.admits (s.roles a.port)

theorem arrives_of {s : State} {a : At} {role : Role} (h : arrivesB s a role = true) : s.arrives a role := by
  simp only [arrivesB, Bool.and_eq_true, decide_eq_true_eq] at h
  exact ⟨h.1.1, h.1.2, h.2⟩

def canonicalB (s : State) : Bool :=
  Table.rising s.flash.extents && Table.rising s.flash.pages && Table.rising s.streams && Table.rising s.files
    && Table.rising s.recons && Table.rising s.stager.bufs && Table.rising s.catalogue && Table.rising s.settings.holds
    && Table.rising s.journal.pageMap && Table.rising s.boot.scanned && Table.rising s.boot.headers
    && s.streams.all (fun p => decide (p.1 < 256)) && s.files.all (fun p => decide (p.1 < 32))
    && s.stager.bufs.all (fun p => decide (p.1 < 48)) && s.settings.holds.all (fun p => decide (p.1 < 64))
    && s.catalogue.all (fun p => decide (reservedExtents ≤ p.1) && decide (p.2 ≠ Entry.free))

theorem canonical_of {s : State} (h : canonicalB s = true) : s.canonical := by
  simp only [canonicalB, Bool.and_eq_true, List.all_eq_true, decide_eq_true_eq] at h
  obtain ⟨⟨⟨⟨⟨⟨⟨⟨⟨⟨⟨⟨⟨⟨⟨h1, h2⟩, h3⟩, h4⟩, h5⟩, h6⟩, h7⟩, h8⟩, h9⟩, h10⟩, h11⟩, h12⟩, h13⟩, h14⟩, h15⟩, h16⟩ := h
  exact ⟨h1, h2, h3, h4, h5, h6, h7, h8, h9, h10, h11, h12, h13, h14, h15, h16⟩

/-- StepRunsTheFrontCommand, its idle clause. -/
theorem test_witness_idle : State.reset.pending = []
    ∧ ∀ c d, (State.reset.chain c).desc = some d → ∀ w, d.job ≠ some (.catalogueRead w) := by
  refine ⟨rfl, fun c d h => ?_⟩
  have : ∀ p k : Fin 4, (State.reset.chain ⟨p, k⟩).desc = none := by decide +kernel
  exact absurd ((this c.port c.chain).symm.trans h) (by simp)

/-- StreamTableOpensAndCloses: each argument just out of range, a source registered, no slot FREE, the last slot FREE, a
source unregistered, a stream BUSY and one IDLE. -/
def fullStreams : Nat → State := fun n =>
  { ready with streams := (List.range n).map (fun k => (k, { stream7 with source := k })) }

theorem test_witness_stream_bad : registered.arrives at0 .intake ∧ Table.rising registered.streams = true
    ∧ (7 < 8 ∨ 7 < 0 ∨ (0 : Byte) = 0xD1 ∨ (0 : Byte) = 0xE7) :=
  ⟨arrives_of (by decide +kernel), by decide +kernel, by decide⟩

theorem test_witness_stream_registered : registered.arrives at0 .intake ∧ Table.rising registered.streams = true
    ∧ ¬ (7 < 7 ∨ 7 < 7 ∨ (0xD0 : Byte) = 0xD1 ∨ (0xD0 : Byte) = 0xE7) ∧ ∃ p ∈ registered.streams, p.2.source = 7 :=
  ⟨arrives_of (by decide +kernel), by decide +kernel, by decide, (0, stream7), by decide +kernel, by decide +kernel⟩

theorem test_witness_stream_full : (fullStreams 256).arrives at0 .intake ∧ Table.rising (fullStreams 256).streams = true
    ∧ (¬ ∃ p ∈ (fullStreams 256).streams, p.2.source = 300)
    ∧ ∀ k, ¬ (k < 256 ∧ tget (fullStreams 256).streams k = none) := by
  refine ⟨arrives_of (by decide +kernel), by decide +kernel, by decide +kernel, fun k h => ?_⟩
  have : ∀ j, j < 256 → tget (fullStreams 256).streams j ≠ none := by decide +kernel
  exact this k h.1 h.2

theorem test_witness_stream_last_slot : (fullStreams 255).arrives at0 .intake ∧ Table.rising (fullStreams 255).streams = true
    ∧ (¬ ∃ p ∈ (fullStreams 255).streams, p.2.source = 300) ∧ 255 < 256 ∧ tget (fullStreams 255).streams 255 = none
    ∧ ∀ k, k < 255 → ¬ (k < 256 ∧ tget (fullStreams 255).streams k = none) :=
  ⟨arrives_of (by decide +kernel), by decide +kernel, by decide +kernel, by decide, by decide +kernel, by decide +kernel⟩

theorem test_witness_stream_close :
    (registered.arrives at0 .intake ∧ ∀ p ∈ registered.streams, p.2.source ≠ 8)
      ∧ (filing.arrives at0 .intake ∧ filing.findStream 7 = some (0, { stream7 with file := some 0 }))
      ∧ registered.findStream 7 = some (0, stream7) ∧ stream7.file = none :=
  ⟨⟨arrives_of (by decide +kernel), by decide +kernel⟩, ⟨arrives_of (by decide +kernel), by decide +kernel⟩,
    by decide +kernel, rfl⟩

/-- StreamSettingsChangeOneStream and StreamReadsShowTheStream: tolerance 7, buffers of 0, 2, 5 and 4,096 places, and 32
gaps. -/
theorem test_witness_stream_settings : registered.arrives at0 .intake ∧ Table.rising registered.streams = true
    ∧ registered.findStream 7 = some (0, stream7) ∧ 7 ≤ 7 :=
  ⟨arrives_of (by decide +kernel), by decide +kernel, by decide +kernel, by decide⟩

def manyGaps : List Gap := (List.range 32).map (fun i => ⟨BitVec.ofNat 32 (2 * i), BitVec.ofNat 32 (2 * i)⟩)
def gapStream : Stream := { stream7 with account := { stream7.account with gaps := manyGaps } }

theorem test_witness_stream_reads : State.arrives { ready with streams := [(0, gapStream)] } at0 .intake
    ∧ State.arrives { ready with streams := [(0, gapStream)] } at0 .retrievalOrAudit
    ∧ Table.rising [(0, gapStream)] = true
    ∧ State.findStream { ready with streams := [(0, gapStream)] } 7 = some (0, gapStream)
    ∧ (∀ n ∈ [0, 2, 4096], n ≤ 4096 ∧ n ≠ 1) ∧ (∀ n ∈ [0, 5, 4096], n ≤ 4096 ∧ (n = 0 ∨ 5 ≤ n))
    ∧ gapStream.account.gaps.length ≤ 32 :=
  ⟨arrives_of (by decide +kernel), arrives_of (by decide +kernel), by decide +kernel, by decide +kernel, by decide, by decide,
    by decide +kernel⟩

/-- FileOpenSetsUpTheEntry: minutes 0 and 10,080, entry 0. -/
theorem test_witness_file_open : registered.arrives at0 .intake ∧ Table.rising registered.streams = true
    ∧ Table.rising registered.files = true ∧ 10080 ≤ 10080 ∧ registered.findStream 7 = some (0, stream7)
    ∧ stream7.file = none ∧ 0 < 32 ∧ tget registered.files 0 = none
    ∧ ∀ j, j < 0 → tget registered.files j ≠ none :=
  ⟨arrives_of (by decide +kernel), by decide +kernel, rfl, by decide, by decide +kernel, rfl, by decide, rfl,
    fun j h => absurd h (Nat.not_lt_zero j)⟩

/-- FileFeedWaitsForALane: counts 0, 32 and 4,096. -/
theorem test_witness_file_feed : filing.arrives at0 .intake ∧ (∀ n ∈ [0, 32, 4096], n ≤ 4096 ∧ n % 32 = 0)
    ∧ filing.findFile 7 5 = some (0, { file5 with openSeg := some 0 }) ∧ file5.owner = at0.port
    ∧ file5.state = .opened :=
  ⟨arrives_of (by decide +kernel), by decide, by decide +kernel, rfl, rfl⟩

/-- ResumeAndAdoptReturnTheFile: a STORE halt with its FAILED buffer, a halt with the closing cause set and a seal in
flight, and an ORPHANED file. -/
def haltedFile : FileEntry := { file5 with state := .halted, haltCause := some .store, segsInFlight := 1 }
def failedBuf : Staging := { staging0 with state := .failed header5 }
def halted : State :=
  { fileOf haltedFile with stager := { bufs := [(0, failedBuf)], wait := [], seals := [] } }

theorem test_witness_resume : halted.arrives at0 .intake ∧ halted.findFile 7 5 = some (0, haltedFile)
    ∧ haltedFile.state = .halted ∧ haltedFile.owner = at0.port ∧ (haltedFile.closingCause = none ∨ haltedFile.segsInFlight ≠ 0)
    ∧ haltedFile.haltCause = some .store ∧ tget halted.stager.bufs 0 = some failedBuf ∧ failedBuf.stream = haltedFile.stream
    ∧ failedBuf.fileNo = haltedFile.fileNo ∧ failedBuf.state = .failed header5 ∧ PlaceReq.seal ∉ halted.store.placeWait :=
  ⟨arrives_of (by decide +kernel), rfl, rfl, rfl, .inl rfl, rfl, rfl, rfl, rfl, rfl, by decide +kernel⟩

def closingHalt : FileEntry := { haltedFile with haltCause := some .fault, closingCause := some .deadline }

theorem test_witness_resume_closing : (fileOf closingHalt).arrives at0 .intake
    ∧ (fileOf closingHalt).findFile 7 5 = some (0, closingHalt) ∧ closingHalt.state = .halted
    ∧ closingHalt.owner = at0.port ∧ (closingHalt.closingCause = none ∨ closingHalt.segsInFlight ≠ 0)
    ∧ closingHalt.haltCause ≠ some .store :=
  ⟨arrives_of (by decide +kernel), rfl, rfl, rfl, .inr (by decide), by decide⟩

theorem test_witness_adopt : (fileOf { file5 with state := .orphaned, owner := 2 }).arrives at0 .intake
    ∧ (fileOf { file5 with state := .orphaned, owner := 2 }).findFile 7 5
        = some (0, { file5 with state := .orphaned, owner := 2 }) :=
  ⟨arrives_of (by decide +kernel), rfl⟩

/-- AbandonDiscardsAndCloses: an open segment, one seal in flight, no FAILED buffer. -/
def abandonable : FileEntry := { file5 with openSeg := some 0, segsInFlight := 1 }

theorem test_witness_abandon : (fileOf abandonable).arrives at0 .intake
    ∧ (fileOf abandonable).findFile 7 5 = some (0, abandonable) ∧ abandonable.state ≠ .closing ∧ abandonable.state ≠ .closed
    ∧ (abandonable.owner = at0.port ∨ abandonable.state = .orphaned) ∧ Table.rising (fileOf abandonable).stager.bufs = true
    ∧ (∀ b, abandonable.openSeg = some b →
        ∃ v codec, tget (fileOf abandonable).stager.bufs b = some v ∧ v.state = .opened codec)
    ∧ (fileOf abandonable).stager.bufs.countP (fun p => p.2.failedOf abandonable) < abandonable.segsInFlight
    ∧ (fileOf abandonable).feedOn 0 = none :=
  ⟨arrives_of (by decide +kernel), rfl, by decide, by decide, .inl rfl, rfl,
    fun b h => by cases h; exact ⟨staging0, codec0, rfl, rfl⟩, by decide +kernel, by decide +kernel⟩

/-- AbandonDiscardsAndCloses, the hand-over: nothing in flight, with journal places free and with none; the owner's notice
area is set. -/
def noPlaces (s : State) : State :=
  { s with journal := { s.journal with pageMap := [(0, [1])], lastSlot := some 16383, durable := 1, next := 2 } }

theorem test_witness_hand_over (s : State) (_ : s = filing ∨ s = noPlaces filing) : s.arrives at0 .intake
    ∧ s.findFile 7 5 = some (0, { file5 with openSeg := some 0 })
    ∧ s.stager.bufs.countP (fun p => p.2.failedOf { file5 with openSeg := some 0 }) = file5.segsInFlight
    ∧ s.feedOn 0 = none ∧ tget s.recons 0 = none ∧ tget s.streams 0 = some { stream7 with file := some 0 }
    ∧ (s.port 0).area = some ⟨4096, true, true, true⟩ ∧ filing.canAppend 1 = true ∧ (noPlaces filing).canAppend 1 = false := by
  rcases ‹_ ∨ _› with rfl | rfl <;>
    exact ⟨arrives_of (by decide +kernel), rfl, by decide +kernel, by decide +kernel, rfl, rfl, rfl, by decide +kernel,
      by decide +kernel⟩

/-- The hand-over ends with the entry freed, the stream IDLE and the FILE_CLOSED entry appended (R20, R138). -/
theorem test_hand_over : (match exec (.fileAbandon at0 7 5) filing with
    | .next t => (t.files.length, (tget t.streams 0).map (·.file),
        t.journal.undurable.any (fun e => match e.body with | .fileClosed f => decide (f.outcome = .abandoned) | _ => false))
    | _ => (9, none, false)) = (0, some none, true) := by decide +kernel

/-- R65: a field within the tolerance locks, one beyond it takes the maximum, a forced one the force value. -/
theorem test_training : trainField 0 5 3 2 = (3, .locked) ∧ trainField 0 6 3 2 = (6, .relocked)
    ∧ trainField 0 3 6 2 = (3, .relocked) ∧ trainField 9 3 6 2 = (9, .forced) := by decide

/-- DeadlineExpiryClosesTheFile. -/
def expiredFile : FileEntry := { file5 with deadline := 0, openSeg := some 0 }

theorem test_witness_deadline : tget (fileOf expiredFile).files 0 = some expiredFile ∧ expiredFile.closingCause = none
    ∧ (expiredFile.state = .opened ∨ expiredFile.state = .halted ∨ expiredFile.state = .orphaned) ∧ expiredFile.deadline = 0
    ∧ expiredFile.openSeg = some 0 ∧ tget (fileOf expiredFile).stager.bufs 0 = some staging0
    ∧ staging0.state = .opened codec0
    ∧ tget (fileOf expiredFile).streams expiredFile.stream = some { stream7 with file := some 0 }
    ∧ Table.rising (fileOf expiredFile).stager.bufs = true
    ∧ (fileOf expiredFile).stager.bufs.countP (fun p => p.2.failedOf expiredFile) ≤ expiredFile.segsInFlight
    ∧ (fileOf expiredFile).feedOn 0 = none ∧ PlaceReq.seal ∉ (fileOf expiredFile).store.placeWait :=
  ⟨rfl, rfl, .inl rfl, rfl, rfl, rfl, rfl, rfl, rfl, by decide +kernel, by decide +kernel, by decide +kernel⟩

/-- AcceptedRecordIsTakenWhole. -/
theorem test_witness_accepted :
    let raw := rawRecord place100.toList
    feeding.feed ⟨0, 0⟩ = some feed0 ∧ feed0.laneHeld = true ∧ feed0.waiting = none ∧ feed0.next + 1 < feed0.places
    ∧ tget feeding.files feed0.file = some { file5 with openSeg := some 0 } ∧ file5.stream = feed0.stream
    ∧ tget feeding.streams feed0.stream = some { stream7 with file := some 0 }
    ∧ tget feeding.stager.bufs 0 = some staging0 ∧ staging0.state = .opened codec0 ∧ place100[0] = 0xD1
    ∧ raw.source = stream7.source ∧ badDigits raw = false ∧ badRange raw = false
    ∧ skewed feeding.clock.value raw = false ∧ classify stream7.account raw.seq = some .inWindow
    ∧ expired feeding.clock.value (feeding.activeDays stream7.cls) raw = false ∧ fits codec0 (archived raw) = true
    ∧ (mark stream7.account .inWindow raw.seq).2 = [] ∧ feeding.journal.low = decide (feeding.freePlaces < lowMark) := by
  decide +kernel

/-- UnmaskedFaultHaltsAtTheRecord: SOURCE. -/
theorem test_witness_halt :
    let bytes := placeOf (recBytes { rec100 with source := 8 })
    (feeding.port 0).state = .opened ∧ (feeding.chain ⟨0, 0⟩).desc = some ⟨64, true, false, some (.feed feed0)⟩
    ∧ feed0.laneHeld = true ∧ feed0.fileGone = false ∧ feed0.waiting = none
    ∧ tget feeding.files feed0.file = some { file5 with openSeg := some 0 } ∧ bytes[0] = 0xD1
    ∧ (checkRecord { source := 7, mask := 0, account := stream7.account, clock := feeding.clock.value,
                     days := feeding.activeDays stream7.cls } 0 (rawRecord bytes.toList)).result = .halt .source := by
  decide +kernel

/-- FillIsPassedAndTheTrailerCloses: the last place of a block before the buffer's last, and a trailer of file 5. -/
def feed64 : Feed := { feed0 with places := 64, next := 31 }
def feeding64 : State := feeding.setJob ⟨0, 0⟩ (.feed feed64)
def trailer5 : Vector Byte 64 := placeOf [0xE7, 0, 7, 0, 5, 0, 0, 0]

theorem test_witness_fill : (feeding64.chain ⟨0, 0⟩).desc = some ⟨64, true, false, some (.feed feed64)⟩
    ∧ feed64.laneHeld = true ∧ feed64.waiting = none
    ∧ tget feeding64.files feed64.file = some { file5 with openSeg := some 0 } ∧ file5.stream = feed64.stream
    ∧ tget feeding64.streams feed64.stream = some { stream7 with file := some 0 }
    ∧ (placeOf [0xFF])[0] = stream7.fill ∧ stream7.fill ≠ 0xD1 ∧ stream7.fill ≠ 0xE7
    ∧ (feed64.next / 32 + 1) * 32 < feed64.places := by decide +kernel

theorem test_witness_trailer : trailer5[0] = 0xE7 ∧ (trailerAt trailer5.toList).fileNo = file5.fileNo
    ∧ feed64.fileGone = false ∧ tget feeding64.stager.bufs 0 = some staging0 ∧ staging0.state = .opened codec0 := by
  decide +kernel

/-- LaneGoesToTheLeastTag: the last lane, two ports waiting with equal tags, and a feed of another source that holds a
lane. -/
def waitingFeed : State :=
  let f : Job := .feed (Feed.begin 0 0 7 32)
  let held : Job := .feed { Feed.begin 1 0 8 32 with laneHeld := true }
  { State.run (State.run (State.run filing 2 .waiting f) 0 .waiting f) 3 .running held with
    arbiter := { ready.arbiter with
      lanes := #v[some (.chain ⟨3, 0⟩), some .scrub, some .scrub, none], waiting := #v[[0], [], [0], []] } }

theorem test_witness_lane : waitingFeed.arbiter.lanes[3] = none
    ∧ (∀ k : LaneNo, k.val < 3 → waitingFeed.arbiter.lanes[k.val] ≠ none) ∧ waitingFeed.nextGrant = some ⟨0, 0⟩
    ∧ waitingFeed.candidate 2 = some ⟨2, 0⟩ ∧ waitingFeed.job ⟨0, 0⟩ = some (.feed (Feed.begin 0 0 7 32))
    ∧ waitingFeed.feed ⟨3, 0⟩ = some { Feed.begin 1 0 8 32 with laneHeld := true }
    ∧ (Feed.begin 0 0 7 32).fileGone = false ∧ tget waitingFeed.files 0 = some { file5 with openSeg := some 0 }
    ∧ file5.state = .opened ∧ file5.owner = 0 ∧ (waitingFeed.port 0).tag < 2 ^ 46 := by decide +kernel

/-- LaneGoesToTheLeastTag: a feed whose file is HALTED, another port's, or gone. -/
def refusedFeed (gone : Bool) (f : FileEntry) : State :=
  { (State.run filing 0 .waiting (.feed { Feed.begin 0 0 7 32 with fileGone := gone })) with
    files := [(0, f)], arbiter := { ready.arbiter with waiting := #v[[0], [], [], []] } }

theorem test_witness_lane_refused :
    (∀ g ∈ [(refusedFeed false { file5 with state := .halted }), refusedFeed false { file5 with owner := 1 },
        refusedFeed true file5],
      g.arbiter.lanes[0] = none ∧ g.nextGrant = some ⟨0, 0⟩ ∧ (g.port 0).tag < 2 ^ 46)
    ∧ ((refusedFeed true file5).chain ⟨0, 0⟩).desc
        = some ⟨64, true, false, some (.feed { Feed.begin 0 0 7 32 with fileGone := true })⟩
    ∧ (∀ g, tget (refusedFeed false { file5 with state := .halted }).files 0 = some g → g.state ≠ .opened)
    ∧ (∀ g, tget (refusedFeed false { file5 with owner := 1 }).files 0 = some g → g.owner ≠ 0) :=
  ⟨by decide +kernel, rfl, fun g h => by cases h; decide, fun g h => by cases h; decide⟩

/-- LaneGoesToTheLeastTag: a retrieval and a verification that wait for a lane, and the scrub with no port's job waiting. -/
def waitingLane (j : SegPhase → Job) : State :=
  { State.run (archived5 { entry5 .sealed with pins := 1 }) 0 .waiting (j (.waitLane header5 body5)) with
    arbiter := { ready.arbiter with waiting := #v[[0], [], [], []] } }
def scrubLane : State :=
  let s := archived5 { entry5 .sealed with pins := 1 }
  { s with audit := { s.audit with scrub := some (onSegment (.waitLane header5 body5)) },
           arbiter := { s.arbiter with scrubWaits := true } }

theorem test_witness_lane_segment (j : SegPhase → Job)
    (_ : j = (fun p => .retrieval (retrieval5 p)) ∨ j = fun p => .verify ⟨onSegment p, true⟩) :
    (waitingLane j).arbiter.lanes[0] = none ∧ (waitingLane j).nextGrant = some ⟨0, 0⟩
    ∧ (waitingLane j).segJob (.chain ⟨0, 0⟩) = some (onSegment (.waitLane header5 body5))
    ∧ ((waitingLane j).port 0).tag < 2 ^ 46 ∧ widthsInRange header5.widths = true
    ∧ (body5.take header5.seg.bits).isEmpty = false := by
  rcases ‹_ ∨ _› with rfl | rfl <;>
    exact ⟨rfl, by decide +kernel, rfl, by decide +kernel, by decide +kernel, by decide +kernel⟩

theorem test_witness_lane_scrub : scrubLane.arbiter.lanes[0] = none ∧ scrubLane.nextGrant = none
    ∧ scrubLane.arbiter.scrubWaits = true ∧ scrubLane.audit.scrub = some (onSegment (.waitLane header5 body5)) :=
  ⟨rfl, by decide +kernel, rfl, rfl⟩

/-- GivenBufferTakesTheWaitingRecord. -/
def waitRec : WaitRec :=
  { seq := 100, duration := 95, units := 3, cls := .inWindow, archive := some rec100, changed := false, needsBuf := true,
    places := 0 }
def bufferWait : State :=
  { State.run (fileOf file5) 0 .waiting (.feed { feed0 with waiting := some waitRec }) with
    stager := { bufs := [], wait := [⟨0, 0⟩], seals := [] } }

/-- A feed before it that wants journal places, and waits for them. -/
def passedOver (wait : List AppendReq) : State :=
  let s := State.run bufferWait 2 .waiting (.feed { Feed.begin 1 0 8 32 with laneHeld := true, waiting := some { waitRec with places := 1 } })
  { s with stager := { s.stager with wait := [⟨2, 0⟩, ⟨0, 0⟩] }, journal := { s.journal with wait } }

theorem test_witness_passed_over :
    let s := passedOver [.commit 1, .record ⟨2, 0⟩ 1]
    s.stager.wait = [⟨2, 0⟩] ++ ⟨0, 0⟩ :: [] ∧ (∀ d ∈ [(⟨2, 0⟩ : ChainRef)], s.feedAble d = false ∧ s.journal.awaitsPlaces d = true)
    ∧ s.feed ⟨0, 0⟩ = some { feed0 with waiting := some waitRec } ∧ s.headReserved ⟨0, 0⟩ = false := by decide +kernel

theorem test_witness_pass_over :
    let s := { passedOver [.commit 1] with stager := { bufs := [], wait := [⟨2, 0⟩], seals := [] } }
    (s.feed ⟨2, 0⟩).bind (·.waiting) = some { waitRec with places := 1 } ∧ s.journal.awaitsPlaces ⟨2, 0⟩ = false
    ∧ s.canAppend 1 = false := by decide +kernel

theorem test_witness_buffer : bufferWait.stager.bufs.length < 48
    ∧ bufferWait.stager.wait = [] ++ ⟨0, 0⟩ :: []
    ∧ bufferWait.feed ⟨0, 0⟩ = some { feed0 with waiting := some waitRec } ∧ waitRec.archive = some rec100
    ∧ waitRec.places = 0 ∧ (mark stream7.account waitRec.cls waitRec.seq).2 = [] ∧ bufferWait.headReserved ⟨0, 0⟩ = false
    ∧ bufferWait.journal.low = decide (bufferWait.freePlaces < lowMark) ∧ feed0.next + 1 < feed0.places
    ∧ tget bufferWait.files 0 = some file5 ∧ file5.openSeg = none
    ∧ tget bufferWait.streams 0 = some { stream7 with file := some 0 } ∧ lowestFree bufferWait.stager.bufs 48 = some 0 := by
  decide +kernel

/-! ## Hypotheses that can be met: sequence accounting, the codec -/

/-- SequenceTestClassifies: distances 0, 255, 256, 2^31 - 1, 2^31 and 2^32 - 1, and the top of the advance total. -/
def distance (e n : Seq) : Nat := (n.toNat + 2 ^ 32 - e.toNat) % 2 ^ 32
def lateAccount : Account := { Account.fresh 100 with gaps := [⟨90, 99⟩] }

theorem test_witness_sequence :
    distance 100 100 = 0 ∧ distance 100 355 = 255 ∧ distance 100 356 = 256 ∧ distance 100 2147483747 = 2 ^ 31 - 1
    ∧ distance 100 2147483748 = 2 ^ 31 ∧ distance 100 99 = 2 ^ 32 - 1
    ∧ (2 ^ 32 - 255) + distance 100 355 ≥ 2 ^ 32 ∧ (2 ^ 32 - 256) + distance 100 355 < 2 ^ 32
    ∧ stream417.window.getLsbD 3 = true ∧ (Account.fresh 100).window.getLsbD 255 = false := by decide +kernel

theorem test_witness_late : ∃ g ∈ lateAccount.gaps, ∃ i, i ≤ (g.last - g.first).toNat ∧ (99 : Seq) = g.first + BitVec.ofNat 32 i :=
  ⟨⟨90, 99⟩, by simp [lateAccount], 9, by decide, by decide⟩

theorem test_witness_not_late :
    ¬ ∃ g ∈ (Account.fresh 100).gaps, ∃ i, i ≤ (g.last - g.first).toNat ∧ (99 : Seq) = g.first + BitVec.ofNat 32 i := by
  rintro ⟨g, h, -⟩
  simp [Account.fresh] at h

/-- MarkingKeepsTheAccountLawful. -/
theorem test_witness_marking : stream417.lawful ∧ classify stream417 1300 = some .farAhead :=
  ⟨⟨by decide +kernel, by decide, by decide +kernel, by decide +kernel, by decide +kernel, fun _ hh => (nomatch hh), trivial⟩,
    by decide +kernel⟩

/-- EncodedRecordsDecodeBack, RecordBytesReadBack and EncodedLengthIsBounded. -/
theorem test_witness_record : rec100.inRange ∧ (∀ r ∈ records5, r.source = header5.seg.source)
    ∧ widthsInRange codec0.widths = true ∧ fits codec0 rec100 = true := by
  refine ⟨⟨by decide, by decide, by decide, by decide, by decide, by decide, by decide, by decide, ?_, ?_, by decide⟩,
    by decide +kernel, by decide +kernel, by decide +kernel⟩
  · intro v h; cases h
  · intro v h; cases h; decide

/-! ## Hypotheses that can be met: the extent store and the catalogue -/

/-- SealTakesTheLeastLoadedChannel: one seal waiting, and a store with no FREE extent. -/
def sealingBuf (attempt : Nat) (target : Option Nat) : Staging := { staging0 with body := body5, state := .sealing header5 attempt target }
def oneSeal : State := { filing with stager := { bufs := [(0, sealingBuf 1 none)], wait := [], seals := [0] } }

theorem test_witness_seal : oneSeal.canonical ∧ oneSeal.stager.seals = 0 :: [] ∧ oneSeal.sealChannel = some 0
    ∧ oneSeal.firstFree 0 = some 4 ∧ tget oneSeal.stager.bufs 0 = some (sealingBuf 1 none)
    ∧ oneSeal.sealOpen 3 = true :=
  ⟨canonical_of (by decide +kernel), rfl, by decide +kernel, by decide +kernel, rfl, by decide +kernel⟩

/-- Two seals, one of which waits for a place on full channel queues. -/
def closedSeals (n : Nat) : State :=
  { filing with
    stager := { bufs := [(0, sealingBuf 1 none), (1, sealingBuf 1 none)], wait := [], seals := [0, 1] },
    store := { queues := #v[List.replicate 16 (.erase 4), List.replicate n (.erase 40001), List.replicate 16 (.erase 65536),
                            List.replicate 16 (.erase 98304)],
               placeWait := [.op 0 (.erase 5), .seal], full := false } }

theorem test_witness_seal_waits : (closedSeals 16).canonical ∧ (closedSeals 16).stager.seals = 0 :: [1]
    ∧ (closedSeals 16).sealChannel = none ∧ (closedSeals 16).firstFree 0 = some 4
    ∧ (closedSeals 16).store.placeWait.count .seal ≤ (closedSeals 16).stager.seals.length :=
  ⟨canonical_of (by decide +kernel), rfl, by decide +kernel, by decide +kernel, by decide +kernel⟩

def badCatalogue : Table Entry := (List.range' 4 131068).map (fun x => (x, { Entry.free with state := .bad }))
def fullStore : State := { oneSeal with catalogue := badCatalogue }

theorem badCatalogue_rising : Table.rising badCatalogue = true := by
  rw [rising_iff_pairwise, badCatalogue, List.map_map]
  have : (Prod.fst ∘ fun x : Nat => (x, ({ Entry.free with state := .bad } : Entry))) = id := rfl
  rw [this, List.map_id]
  exact List.pairwise_lt_range'

theorem test_witness_store_full : fullStore.canonical ∧ fullStore.stager.seals = 0 :: []
    ∧ (∀ ch, fullStore.firstFree ch = none) ∧ fullStore.store.full = false := by
  refine ⟨?_, rfl, fun ch => ?_, rfl⟩
  · have h := canonical_of (s := oneSeal) (by decide +kernel)
    refine ⟨h.extents, h.pages, h.streams, h.files, h.recons, h.bufs, badCatalogue_rising, h.holds, h.pageMap, h.scanned,
      h.headers, h.streamSlots, h.fileEntries, h.bufNumbers, h.holdSlots, ?_⟩
    intro p hp
    obtain ⟨x, hx, rfl⟩ := List.mem_map.mp hp
    exact ⟨(List.mem_range'_1.mp hx).1, by simp [Entry.free]⟩
  · have listed : ∀ x, 4 ≤ x → x < 131072 → tget badCatalogue x ≠ none := fun x h1 h2 => by
      rw [tget_of_mem badCatalogue_rising (List.mem_map.mpr ⟨x, List.mem_range'_1.mpr ⟨h1, by omega⟩, rfl⟩)]; simp
    unfold State.firstFree
    have key : ∀ start, 4 ≤ start → ¬ lowestAbsent fullStore.catalogue start < (ch.val + 1) * channelExtents := by
      intro start h4 hlt
      have sp := (lowestAbsent_spec badCatalogue_rising start).1
      have ge := lowestAbsent_ge badCatalogue start
      have hc := ch.isLt
      exact listed _ (le_trans h4 ge) (by
        have : (ch.val + 1) * channelExtents ≤ 131072 := by unfold channelExtents; omega
        exact lt_of_lt_of_le hlt this) sp
    dsimp only
    rw [if_neg (key _ ?_)]
    split
    · decide
    · rename_i h0; unfold channelExtents; omega

/-- SegmentWriteSealsOrFails: first and second attempt in flight on channel 1. -/
def writing (attempt : Nat) : State :=
  { filing with
    stager := { bufs := [(0, sealingBuf attempt (some 40000))], wait := [], seals := [] },
    catalogue := [(40000, entry5 .writing)],
    store := { filing.store with queues := #v[[], [.segWrite 0 40000], [], []] } }

theorem test_witness_segment_write (attempt : Nat) (_ : attempt = 1 ∨ attempt = 2) :
    (writing attempt).inFlight 1 = some (.segWrite 0 40000) ∧ tget (writing attempt).stager.bufs 0 = some (sealingBuf attempt (some 40000))
    ∧ reservedExtents ≤ 40000 ∧ (writing attempt).canAppend 1 = true
    ∧ tget (writing attempt).streams 0 = some { stream7 with file := some 0 }
    ∧ tget (writing attempt).files 0 = some { file5 with openSeg := some 0 }
    ∧ ((writing attempt).port file5.owner).state = .opened :=
  ⟨rfl, rfl, by decide, rfl, rfl, rfl, rfl⟩

/-- EraseFreesOrRetiresTheExtent. -/
def erasing : State :=
  { archived5 (entry5 .erasing) with store := { ready.store with queues := #v[[], [.erase 40000], [], []] } }

theorem test_witness_erase : erasing.inFlight 1 = some (.erase 40000) ∧ reservedExtents ≤ 40000 ∧ erasing.canAppend 1 = true :=
  ⟨rfl, by decide, rfl⟩

/-- FreedPlaceGoesToTheOldestRequest: a channel with 15 operations, and a chain that waits for its place. -/
def placeWaiting : State :=
  let s := State.run sealed5 0 .waiting (.verify ⟨onSegment .waitPlace, true⟩)
  { s with
    store := { s.store with queues := #v[[], List.replicate 15 (.erase 40001), [], []],
                            placeWait := [.op 1 (.segRead 40000 (some (.chain ⟨0, 0⟩)) false)] } }

theorem test_witness_place : (placeWaiting.queue 1).length < 16
    ∧ placeWaiting.store.placeWait.find? (placeWaiting.canUse 1) = some (.op 1 (.segRead 40000 (some (.chain ⟨0, 0⟩)) false))
    ∧ placeWaiting.segJob (.chain ⟨0, 0⟩) = some (onSegment .waitPlace) := by decide +kernel

theorem test_witness_seal_place : ((closedSeals 15).queue 1).length < 16
    ∧ (closedSeals 15).store.placeWait.find? ((closedSeals 15).canUse 1) = some .seal
    ∧ (closedSeals 15).stager.seals = 0 :: [1] ∧ (closedSeals 15).firstFree 1 = some 32768
    ∧ tget (closedSeals 15).stager.bufs 0 = some (sealingBuf 1 none) ∧ Table.rising (closedSeals 15).stager.bufs = true
    ∧ Table.rising (closedSeals 15).catalogue = true :=
  ⟨by decide +kernel, by decide +kernel, rfl, by decide +kernel, rfl, by decide +kernel, rfl⟩

/-- SegmentReadIsTestedAndRetried: what the flash holds, and a failure. -/
def reading : State :=
  let s := State.run sealed5 0 .running (.verify ⟨onSegment .reading, true⟩)
  { s with store := { s.store with queues := #v[[], [.segRead 40000 (some (.chain ⟨0, 0⟩)) false], [], []] } }

theorem test_witness_read : reading.inFlight 1 = some (.segRead 40000 (some (.chain ⟨0, 0⟩)) false)
    ∧ reading.segJob (.chain ⟨0, 0⟩) = some (onSegment .reading) ∧ goodRead (some 5) (reading.returned 40000 .failed) = none
    ∧ channelOf 40000 = 1 ∧ reading.store.placeWait = [] ∧ (reading.queue 1).length ≤ 16 := by decide +kernel

theorem test_witness_good_read : goodRead ((reading.entry 40000).seg.map (·.serial)) (reading.returned 40000 .stored)
    = some (header5, body5) := by
  have h1 : reading.returned 40000 .stored = some (.segment header5 (headerCheck header5) body5) := rfl
  have h2 : (reading.entry 40000).seg.map (·.serial) = some 5 := rfl
  have h3 : validHeader header5 (headerCheck header5) = true := by
    have : 1 ≤ header5.seg.count ∧ header5.seg.count ≤ recordLimit := by decide +kernel
    simp [validHeader, this]
  have h4 : header5.seg.serial = 5 := rfl
  rw [h1, h2]
  simp [goodRead, h3, h4]

/-- SegmentReadIsTestedAndRetried: the READ of a retrieval, a verification or the scrub in flight, the first or the retry. -/
def readingFor (r : JobRef) (j : Job) (again : Bool) : State :=
  let s := State.run (archived5 { entry5 .sealed with pins := 2 }) 0 .running j
  { s with audit := { s.audit with scrub := some (onSegment .reading) },
           store := { s.store with queues := #v[[], [.segRead 40000 (some r) again], [], []] } }

theorem test_witness_read_fails_twice (r : JobRef) (again : Bool) (j : Job)
    (_ : j = .retrieval (retrieval5 .reading) ∨ j = .verify ⟨onSegment .reading, true⟩)
    (_ : r = .scrub ∨ r = .chain ⟨0, 0⟩) :
    let s := readingFor r j again
    s.inFlight 1 = some (.segRead 40000 (some r) again) ∧ s.job ⟨0, 0⟩ = some j ∧ s.segJob r = some (onSegment .reading)
    ∧ s.audit.scrub = some (onSegment .reading) ∧ (s.entry 40000).seg = some header5.seg
    ∧ goodRead (some header5.seg.serial) (s.returned 40000 .failed) = none ∧ s.store.placeWait = [] := by
  rcases ‹j = _ ∨ _› with rfl | rfl <;> rcases ‹r = _ ∨ _› with rfl | rfl <;> exact ⟨rfl, rfl, rfl, rfl, rfl, rfl, rfl⟩

/-- ReadsWritePlacesAndChangeNothing: the last extent and the first that is none, the last state code and the first that is
none, counts 0, 6 and 4,096; a walk at the segment that the buffer's last place takes, one that a filter passes over, and one
at the last extent. -/
theorem test_witness_reads : sealed5.arrives at0 .retrievalOrAudit ∧ sealed5.arrives at0 .anyPort ∧ 131071 < 131072
    ∧ (∀ code, some 9 = some code → code ≤ 9) ∧ 131072 ≤ 131072 ∧ 9 < 10 ∧ ∀ n ∈ [0, 6, 4096], n ≤ 4096 ∧ (n = 0 ∨ 6 ≤ n) :=
  ⟨arrives_of (by decide +kernel), arrives_of (by decide +kernel), by decide, fun c h => by cases h; decide, by decide,
    by decide, by decide⟩

def walk (source : Option Nat) (next : Nat) : CatalogueRead :=
  { buf := ⟨0x10000, 3⟩, source, filter := some .sealed, next, filled := 2 }
def walking (w : CatalogueRead) : State := State.run sealed5 0 .running (.catalogueRead w)

theorem test_witness_walk (w : CatalogueRead) : ((walking w).chain ⟨0, 0⟩).desc = some ⟨64, true, false, some (.catalogueRead w)⟩
    ∧ ((walking w).port 0).state = .opened ∧ (walking w).pending = [] ∧ (walking w).power = .ready
    ∧ ((walking w).chain ⟨0, 0⟩).state ≠ .idle ∧ (∀ b : ChainRef, 0 * 4 + 0 ≤ b.port.val * 4 + b.chain.val) :=
  ⟨rfl, rfl, rfl, rfl, fun h => (nomatch (show ChainState.running = .idle from h)), fun _ => Nat.zero_le _⟩

theorem test_witness_walk_places : ((walking (walk (some 7) 40000)).entry 40000).seg = some header5.seg ∧ header5.seg.source = 7
    ∧ ((walking (walk none 40000)).entry 40000).state = .sealed ∧ (3 ≤ 2 + 1 ∧ 40000 < 131071)
    ∧ ((walking (walk none 40001)).entry 40001).state ≠ .sealed ∧ 2 < 3 ∧ 131071 ≤ (walk none 131071).next :=
  ⟨rfl, rfl, rfl, by decide, by decide, by decide, by decide⟩

/-- R95: the entry is written as it stands when its extent is examined, and the walk then ends with the next extent. -/
theorem test_walk_ends_full : (match step (walking (walk none 40000)) with
    | .next t => t.out.any (fun o => match o with
        | .completion 0 96 w => decide (w.status = .donePartial ∧ w.countDone = 3 ∧ w.results = .nextExtent 40001)
        | _ => false)
    | _ => false) = true := by decide +kernel

/-- PinnedSegmentIsRead: three pins already granted; the scrub at the extent; a granted request. -/
def pinned3 : State := archived5 { entry5 .sealed with pins := 3 }

theorem test_witness_verify : pinned3.arrives at0 .audit ∧ 40000 < 131072 ∧ (pinned3.entry 40000).pins < 4
    ∧ (pinned3.entry 40000).state = .sealed ∧ (pinned3.entry 40000).seg = some header5.seg
    ∧ (pinned3.queue (channelOf 40000)).length < 16 ∧ pinned3.store.placeWait = [] :=
  ⟨arrives_of (by decide +kernel), by decide, by decide +kernel, by decide +kernel, rfl, by decide +kernel, rfl⟩

def scrubbing : State := { pinned3 with audit := { pinned3.audit with enable := true, pointer := 40000 } }

theorem test_witness_scrub : scrubbing.power = .ready ∧ scrubbing.audit.enable = true ∧ scrubbing.audit.scrub = none
    ∧ scrubbing.audit.pointer = 40000 ∧ scrubbing.freePlaces ≠ 0 ∧ (scrubbing.entry 40000).pins < 4
    ∧ (scrubbing.entry 40000).state = .sealed := by decide +kernel

def grantedPin : State :=
  State.run (archived5 { entry5 .sealed with pins := 4, granted := [⟨0, 0⟩] }) 0 .waiting (.retrieval (retrieval5 .pinned))

theorem test_witness_pin_grant : (grantedPin.entry 40000).granted = ⟨0, 0⟩ :: []
    ∧ grantedPin.segJob (.chain ⟨0, 0⟩) = some (onSegment .pinned)
    ∧ grantedPin.job ⟨0, 0⟩ = some (.retrieval (retrieval5 .pinned))
    ∧ (retrieval5 .pinned).selects (grantedPin.roles 0).audit (grantedPin.entry 40000) = true := by decide +kernel

/-! ## Hypotheses that can be met: the clock, the policy and the holds -/

def clockAt (v : Nat) (st : ClockState) (w : Nat) : State := { ready with clock := { ready.clock with value := v, state := st, watchdog := w } }

/-- ClockAdvancesByItsSource: the second before a day, the last two values, each clock state, the watchdog at 2. -/
theorem test_witness_clock : (clockAt 8726399 .internal 0).power = .ready ∧ 8726399 < 2 ^ 32 - 1 ∧ (8726399 + 1) % 86400 = 0
    ∧ (clockAt (2 ^ 32 - 2) .holdover 0).clock.state = .holdover ∧ 2 ^ 32 - 2 < 2 ^ 32 - 1 ∧ (2 ^ 32 - 2 + 1) % 86400 ≠ 0
    ∧ (clockAt (2 ^ 32 - 1) .internal 0).clock.value = 2 ^ 32 - 1
    ∧ (clockAt 8640000 .following 2).clock.watchdog = 2 ∧ 8640000 < 2 ^ 32 - 2 ∧ (8640000 + 1) % 86400 ≠ 0
    ∧ (8640000 + 2) % 86400 ≠ 0 := by decide +kernel

/-- A journal with no free place. -/
def journalFull (s : State) : State :=
  { s with journal := { s.journal with next := 1048577, durable := 1048576, pageMap := [(0, [1]), (16383, [1048576])],
                                       lastSlot := some 16383 } }

/-- ClockSetMovesForward: a lower value, the same value, a full journal. -/
theorem test_witness_clock_set : ready.arrives at0 .audit ∧ ready.clock.value < 2 ^ 32 ∧ 8639999 < ready.clock.value
    ∧ ready.clock.value ≤ 8640000 ∧ ready.freePlaces ≠ 0 ∧ (journalFull ready).arrives at0 .audit
    ∧ (journalFull ready).freePlaces = 0 :=
  ⟨arrives_of (by decide +kernel), by decide +kernel, by decide +kernel, by decide +kernel, by decide +kernel,
    arrives_of (by decide +kernel), by decide +kernel⟩

/-- PolicyIsProposedThenEndorsed: a row NONE, a proposal of another port, one of the port itself, an endorsed row, days 0
and 4,095. -/
def stagedRow (g : Staged) : State := { ready with retention := { ready.retention with staged := ready.retention.staged.set 3 g } }

theorem test_witness_policy : ready.arrives at0 .retrieval ∧ 4095 ≤ 4095 ∧ ready.clock.commitPending = false
    ∧ ready.arrives at3 .audit ∧ ready.retention.staged[3] = .none
    ∧ (stagedRow (.proposed 0 1)).arrives at3 .audit ∧ (stagedRow (.proposed 0 1)).retention.staged[3] = .proposed 0 1
    ∧ (1 : PortId) ≠ at3.port ∧ daysRead 0 = daysRead 0 ∧ daysRead 4095 ≠ daysRead 0
    ∧ (stagedRow (.proposed 30 3)).retention.staged[3] = .proposed 30 at3.port
    ∧ (stagedRow (.endorsed 30 1 3)).retention.staged[3] = .endorsed 30 1 3 :=
  ⟨arrives_of (by decide +kernel), by decide, rfl, arrives_of (by decide +kernel), by decide +kernel,
    arrives_of (by decide +kernel), by decide +kernel, by decide, rfl, by decide, by decide +kernel, by decide +kernel⟩

/-- CommitMakesEndorsedRowsActive: one row endorsed and one proposed. -/
def committing : State :=
  let s := stagedRow (.endorsed 35 1 3)
  { s with
    retention := { s.retention with staged := s.retention.staged.set 5 (.proposed 60 1) },
    clock := { s.clock with commitPending := true, commitDays := 1 },
    journal := { s.journal with wait := [.commit 2], reserved := 2 } }

theorem test_witness_commit : committing.journal.wait = .commit 2 :: [] ∧ committing.clock.commitPending = true
    ∧ 2 ≤ committing.journal.reserved ∧ committing.retention.staged[3] = .endorsed 35 1 3
    ∧ committing.retention.staged[5] = .proposed 60 1 ∧ committing.retention.staged[0] = .none := by decide +kernel

/-- HoldsCountOnWhatTheyCover: the last call day, the first and the last slot, and a hold released. -/
def hold1 : Hold := { id := 1, source := none, a := 0, b := 49710, placedDay := 99, unknown := false }
def holding (n : Nat) (e : Entry) : State :=
  let s := archived5 e
  { s with settings := { s.settings with holds := (List.range n).map (fun k => (k, { hold1 with id := k + 1 })) } }

theorem test_witness_hold : sealed5.arrives at3 .audit ∧ sealed5.canonical ∧ sealed5.freePlaces ≠ 0 ∧ 49710 ≤ 49710
    ∧ tget sealed5.settings.holds 0 = none ∧ (holding 63 (entry5 .sealed)).arrives at3 .audit
    ∧ (holding 63 (entry5 .sealed)).canonical ∧ (holding 63 (entry5 .sealed)).freePlaces ≠ 0
    ∧ tget (holding 63 (entry5 .sealed)).settings.holds 63 = none
    ∧ (∀ k, k < 63 → tget (holding 63 (entry5 .sealed)).settings.holds k ≠ none)
    ∧ (62, { hold1 with id := 63 }) ∈ (holding 63 (entry5 .sealed)).settings.holds
    ∧ (∀ p ∈ (holding 63 (entry5 .sealed)).settings.holds, p.2.id = 63 → p = (62, { hold1 with id := 63 })) :=
  ⟨arrives_of (by decide +kernel), canonical_of (by decide +kernel), by decide +kernel, by decide, rfl,
    arrives_of (by decide +kernel), canonical_of (by decide +kernel), by decide +kernel, by decide +kernel, by decide +kernel,
    by decide +kernel, by decide +kernel⟩

/-! ## Hypotheses that can be met: expiry, retrieval and audit -/

/-- VisitRetiresWhatIsDue: a held entry, one whose retain-until day is today, one due, and one due and pinned. -/
def visiting (maxDay holds pins : Nat) : State :=
  let s := archived5 { entry5 .sealed with seg := some { header5.seg with minDay := 30, maxDay }, holds, pins }
  { s with scanner := { s.scanner with state := .scanning, position := 40000 } }

theorem test_witness_visit : (visiting 39 0 0).scanner.state = .scanning ∧ (visiting 39 0 0).scanner.position = 40000
    ∧ ((visiting 39 0 0).entry 40000).state = .sealed
    ∧ ((visiting 39 0 0).entry 40000).seg = some { header5.seg with minDay := 30, maxDay := 39 }
    ∧ 39 + 60 < (visiting 39 0 0).clock.value / 86400 ∧ ((visiting 39 0 0).entry 40000).holds = 0
    ∧ ((visiting 39 0 0).entry 40000).pins = 0 ∧ 0 < ((visiting 39 0 1).entry 40000).pins
    ∧ 0 < ((visiting 39 1 0).entry 40000).holds ∧ ¬ 40 + 60 < (visiting 40 0 0).clock.value / 86400 :=
  ⟨rfl, rfl, rfl, rfl, by decide +kernel, rfl, rfl, by decide +kernel, by decide +kernel, by decide +kernel⟩

/-- RetrieveGoesToTheLeastSerial: an empty catalogue, and one segment with three pins. -/
theorem test_witness_retrieve_none : registered.arrives at0 .retrieval ∧ registered.canonical ∧ 49710 ≤ 49710
    ∧ ∀ p ∈ registered.catalogue, ∀ v : SegFields, p.2.seg ≠ some v :=
  ⟨arrives_of (by decide +kernel), canonical_of (by decide +kernel), by decide, fun _ h => (nomatch h)⟩

theorem test_witness_retrieve : pinned3.arrives at0 .retrieval ∧ pinned3.canonical
    ∧ (40000, { entry5 .sealed with pins := 3 }) ∈ pinned3.catalogue ∧ header5.seg.minDay ≤ 49710 ∧ 0 ≤ header5.seg.maxDay
    ∧ (∀ p ∈ pinned3.catalogue, ∀ w : SegFields, p.2.seg = some w → p.1 ≠ 40000 → header5.seg.serial < w.serial)
    ∧ 3 < 4 ∧ (pinned3.queue (channelOf 40000)).length < 16 ∧ pinned3.store.placeWait = [] :=
  ⟨arrives_of (by decide +kernel), canonical_of (by decide +kernel), List.mem_singleton.mpr rfl, by decide +kernel, Nat.zero_le _,
    fun p h w _ hn => absurd (congrArg Prod.fst (List.mem_singleton.mp h)) hn, by decide, by decide +kernel, rfl⟩

/-- DecodedRecordIsDeliveredInRange: the first of two records, in range, with room in the buffer. -/
def decoding : State :=
  { State.run (archived5 { entry5 .sealed with pins := 1 }) 0 .running (.retrieval (retrieval5 decoding5)) with
    arbiter := { ready.arbiter with lanes := ready.arbiter.lanes.set 0 (some (.chain ⟨0, 0⟩)) } }

theorem test_witness_decoded :
    let d : Decode := { index := 0, rest := body5, codec := Codec.fresh header5.base header5.widths }
    decoding.arbiter.lanes[0] = some (.chain ⟨0, 0⟩) ∧ decoding.job ⟨0, 0⟩ = some (.retrieval (retrieval5 decoding5))
    ∧ (retrieval5 decoding5).current = some (onSegment decoding5)
    ∧ (decodeNext header5 d).map (fun p => (p.1, decide (p.2.rest ≠ []))) = some (rec100, true)
    ∧ 100 = rec100.start / 86400 ∧ (retrieval5 decoding5).filled + 1 < 4096 := by
  refine ⟨rfl, rfl, rfl, ?_, ?_, ?_⟩ <;> decide +kernel

/-- DecodedRecordIsDeliveredInRange, the ends: a decode of segment 5 before its last record, with a count that the header
does not give, and one that fails at its first record; a segment that no request waits on, one that a chain waits on, and
one in EXPIRY_WAIT with its last pin. -/
def lastDecode : Decode :=
  (decodeAll header5 1 { index := 0, rest := body5, codec := Codec.fresh header5.base header5.widths }).2
def shortDecode : Decode := { lastDecode with index := 0 }
def badDecode : Decode := { index := 0, rest := [true], codec := codec0 }

theorem test_witness_decode_ends :
    (match endOf header5 lastDecode with | some (.whole m) => m.count | _ => 0) = 2
    ∧ (match endOf header5 shortDecode with | some (.failed f) => decide (f = .decodeFailure 1) | _ => false) = true
    ∧ (match endOf header5 badDecode with | some (.failed f) => decide (f = .decodeFailure 0) | _ => false) = true
    ∧ (decodeNext header5 badDecode).isNone = true
    ∧ (decodeNext header5 lastDecode).map (·.1.start / 86400) = some 100
    ∧ (endOf header5 { index := 0, rest := body5, codec := codec0 }).isNone = true := by decide +kernel

/-- A job on segment 5 decodes in lane 0, or the scrub does. -/
def decodingFor (r : JobRef) (j : SegPhase → Job) (e : Entry) (d : Decode) : State :=
  let s := State.run (archived5 e) 0 .running (j (.decoding header5 d))
  { s with audit := { s.audit with scrub := some (onSegment (.decoding header5 d)), pointer := 40000, passStart := 40001 },
           arbiter := { s.arbiter with lanes := s.arbiter.lanes.set 0 (some r) } }

/-- A retrieval with room for one place. -/
def fullAfter (p : SegPhase) : Job := .retrieval { retrieval5 p with buf := ⟨0x10000, 1⟩ }

theorem test_witness_decoding (r : JobRef) (j : SegPhase → Job) (e : Entry) (d : Decode) (he : e.seg = some header5.seg)
    (_ : j = (fun p => .retrieval (retrieval5 p)) ∨ j = fullAfter ∨ j = fun p => .verify ⟨onSegment p, true⟩)
    (_ : r = .scrub ∨ r = .chain ⟨0, 0⟩) :
    let s := decodingFor r j e d
    s.arbiter.lanes[0] = some r ∧ s.segJob r = some (onSegment (.decoding header5 d))
    ∧ s.job ⟨0, 0⟩ = some (j (.decoding header5 d)) ∧ (s.entry 40000).seg = some header5.seg
    ∧ (s.chain ⟨0, 0⟩).desc = some ⟨64, true, false, some (j (.decoding header5 d))⟩
    ∧ (∀ p ∈ s.catalogue, ∀ v : SegFields, p.2.seg = some v → v.serial ≤ 5)
    ∧ (s.audit.pointer + 1) % 131072 = s.audit.passStart := by
  rcases ‹j = _ ∨ _› with rfl | rfl | rfl <;> rcases ‹r = _ ∨ _› with rfl | rfl <;>
    exact ⟨rfl, rfl, rfl, he, rfl, fun p h v hv => by
      cases List.mem_singleton.mp (show p ∈ [(40000, e)] from h)
      cases hv.symm.trans he
      decide, rfl⟩

/-- R139 to R141, R144: a scrub verification that fails quarantines its segment and moves the pointer on. -/
theorem test_scrub_finds_damage :
    (match exec (.decodedRecord 0) (decodingFor .scrub fullAfter { entry5 .sealed with pins := 2 } badDecode) with
      | .next t => decide ((t.entry 40000).state = .damaged ∧ (t.entry 40000).pins = 1
          ∧ (t.entry 40000).verify = some (100, false) ∧ t.audit.pointer = 40001 ∧ t.arbiter.lanes[0] = none)
      | _ => false) = true := by decide +kernel

/-- R131: a full buffer ends the job DONE_PARTIAL with the cursor after the record. -/
theorem test_full_buffer :
    (match exec (.decodedRecord 0) (decodingFor (.chain ⟨0, 0⟩) fullAfter { entry5 .expiryWait with pins := 1 } lastDecode) with
      | .next t => t.out.any (fun o => match o with
          | .completion 0 96 w => decide (w.status = .donePartial ∧ w.countDone = 1
              ∧ w.results = .retrieval 0 0 0 0 (some ⟨5, 2⟩) 9)
          | _ => false) && decide ((t.entry 40000).state = .sealed)
      | _ => false) = true := by decide +kernel

/-- ProjectionShapesTheRecord. -/
theorem test_witness_projection :
    projectionInRange { k1 := 6, k2 := 20, fillDigit := 9, cell := .fill (2 ^ 28 - 1), trunk := .absent, units := .deliver,
                        supp := .empty } = true := by decide

/-- ScrubSetStartsOrStopsThePass: the last extent, a verification in progress, and none. -/
def scrubRunning : State :=
  { scrubbing with audit := { scrubbing.audit with scrub := some (onSegment .reading) } }

theorem test_witness_scrub_set : scrubRunning.arrives at3 .audit ∧ 131071 < 131072
    ∧ scrubRunning.audit.scrub = some (onSegment .reading) ∧ (onSegment .reading).phase ≠ .waitPin
    ∧ (scrubRunning.entry 40000).pinWait = [] ∧ scrubbing.arrives at3 .audit ∧ scrubbing.audit.scrub = none :=
  ⟨arrives_of (by decide +kernel), by decide, rfl, by decide, by decide +kernel, arrives_of (by decide +kernel), rfl⟩

/-- DamageIsQuarantinedOrDiscarded: a report of the segment and of another serial; a DAMAGED entry that may be discarded, one
with a report pending, an extent past the last, and a full journal. -/
def reported (serial : Nat) : State := { sealed5 with audit := { sealed5.audit with reports := [⟨40000, serial, .readFailure⟩] } }

theorem test_witness_report : (reported 5).audit.reports = ⟨40000, 5, .readFailure⟩ :: []
    ∧ ((reported 5).entry 40000).seg = some header5.seg ∧ header5.seg.serial = 5
    ∧ ((reported 5).entry 40000).state = .sealed ∧ (reported 5).canAppend 1 = true ∧ header5.seg.serial ≠ 6 :=
  ⟨rfl, rfl, by decide +kernel, rfl, by decide +kernel, by decide +kernel⟩

theorem test_witness_discard : (archived5 (entry5 .damaged)).arrives at3 .audit ∧ 131071 < 131072 ∧ 40000 ≤ 131071
    ∧ ((archived5 (entry5 .damaged)).entry 40000).state = .damaged ∧ ((archived5 (entry5 .damaged)).entry 40000).holds = 0
    ∧ ((archived5 (entry5 .damaged)).entry 40000).pins = 0 ∧ ((archived5 (entry5 .damaged)).entry 40000).reports = 0
    ∧ ((archived5 (entry5 .damaged)).entry 40000).seg = some header5.seg ∧ (archived5 (entry5 .damaged)).freePlaces ≠ 0
    ∧ (journalFull (archived5 (entry5 .damaged))).freePlaces = 0
    ∧ (journalFull (archived5 (entry5 .damaged))).arrives at3 .audit
    ∧ ((archived5 { entry5 .damaged with reports := 1 }).entry 40000).reports ≠ 0 :=
  ⟨arrives_of (by decide +kernel), by decide, by decide, rfl, rfl, rfl, rfl, rfl, by decide +kernel, by decide +kernel,
    arrives_of (by decide +kernel), by decide +kernel⟩

/-! ## Hypotheses that can be met: the Journal -/

/-- An entry with serial 1, durable in slot 0. -/
def entry1 : JEntry := { serial := 1, time := 8640000, body := .policyLapsed 0 30 1 }
def oneDurable : State :=
  { registered with
    journal := { registered.journal with next := 2, durable := 1, pageMap := [(0, [1])], lastSlot := some 0, writePos := 1 },
    flash := { registered.flash with pages := [(0, [⟨entry1, true⟩])] } }

theorem test_witness_journal_read : oneDurable.arrives at3 .audit ∧ oneDurable.journal.durable < 2 ∧ ¬ 2 ≤ oneDurable.settings.release
    ∧ 0 ≤ oneDurable.settings.release ∧ 1 ≤ oneDurable.journal.durable ∧ oneDurable.journal.slotOf 1 = some 0
    ∧ (oneDurable.queue 0).length < 16 ∧ oneDurable.store.placeWait = [] :=
  ⟨arrives_of (by decide +kernel), by decide +kernel, by decide +kernel, Nat.zero_le _, by decide +kernel, by decide +kernel,
    by decide +kernel, rfl⟩

def journalRead1 : JournalRead := { serial := 1, buf := buf0, filled := 0, skipped := false }
def pageReading (again : Bool) : State :=
  let s := State.run oneDurable 3 .running (.journalRead journalRead1)
  { s with store := { s.store with queues := #v[[.pageRead 0 (.job (some ⟨3, 0⟩)) again], [], [], []] } }

theorem test_witness_page_read : (pageReading false).inFlight 0 = some (.pageRead 0 (.job (some ⟨3, 0⟩)) false)
    ∧ ((pageReading false).chain ⟨3, 0⟩).desc = some ⟨64, true, false, some (.journalRead journalRead1)⟩
    ∧ (pageReading false).returnedPage 0 .stored = some (.page [⟨entry1, true⟩])
    ∧ (pageReading false).settings.release < 1 ∧ 1 ≤ (pageReading false).journal.durable
    ∧ (pageReading false).journal.slotOf 1 = some 0 ∧ (pageReading false).returnedPage 0 .failed = none
    ∧ (pageReading false).returnedPage 0 (.returned (.page [⟨entry1, false⟩])) = some (.page [⟨entry1, false⟩])
    ∧ ((pageReading false).queue 0).length ≤ 16 ∧ (pageReading false).store.placeWait = []
    ∧ (pageReading true).inFlight 0 = some (.pageRead 0 (.job (some ⟨3, 0⟩)) true) := by decide +kernel

/-- ReleaseErasesWhatIsReleased: a release of nothing, and one of the entry, whose extent is WRITTEN. -/
def writtenExtent : State :=
  { oneDurable with journal := { oneDurable.journal with extents := oneDurable.journal.extents.set 0 .written } }

theorem test_witness_release : writtenExtent.arrives at3 .audit ∧ min 0 writtenExtent.journal.durable ≤ writtenExtent.settings.release
    ∧ writtenExtent.settings.release < min 1 writtenExtent.journal.durable ∧ writtenExtent.journal.extents[0] = .written
    ∧ ∀ p ∈ writtenExtent.journal.pageMap, slotExtent p.1 = 0 → ∀ n ∈ p.2, n ≤ 1 :=
  ⟨arrives_of (by decide +kernel), by decide +kernel, by decide +kernel, by decide +kernel, by decide +kernel⟩

/-- The absent failure cause of a VERIFY completion is written as zero, its code byte too (R141, R171). -/
theorem test_absent_failure_is_zero : failureBytes none = [0, 0, 0, 0, 0] := by decide

/-- The worked example of R155: a full journal with two requests waiting, of 1 place and of 3. -/
def fullJournal : State :=
  { registered with
    settings := { registered.settings with release := 4100000 },
    journal := { registered.journal with
      next := 5148501, durable := 5148500, lastSlot := some 14821, low := true,
      pageMap := [(0, [4200001]), (31206, [4100001])],
      wait := [.entry (.policyLapsed 0 30 1) .plain, .record ⟨0, 0⟩ 3] } }

/-- The free places of the worked example, before the release and after step 3, and the low state it ends (R151, R155). -/
theorem test_release_gives_places_down_the_list : fullJournal.freePlaces = 0
    ∧ (fullJournal.release 4200000).freePlaces = 99964 ∧ (fullJournal.release 4200000).journal.reserved = 4
    ∧ (fullJournal.release 4200000).journal.low = false := by decide +kernel

/-- ReleaseErasesWhatIsReleased: a release with requests waiting. -/
theorem test_witness_release_waiting : fullJournal.arrives at3 .audit
    ∧ fullJournal.settings.release < min 4200000 fullJournal.journal.durable ∧ fullJournal.journal.wait ≠ [] :=
  ⟨arrives_of (by decide +kernel), by decide +kernel, by decide +kernel⟩

/-- The first append of the worked example leaves the free places as they are, and the next request its 3 reserved places. -/
theorem test_release_then_appends : ((fullJournal.release 4200000).serveAppend).freePlaces = 99964
    ∧ ((fullJournal.release 4200000).serveAppend).journal.next = 5148502
    ∧ ((fullJournal.release 4200000).serveAppend).journal.reserved = 3 := by decide +kernel

/-- PageWriteMakesEntriesDurable: a page with a SEALED, an EXPIRED and a DISCARDED entry. -/
def sealedEntry : JEntry := { serial := 1, time := 8640000, body := .sealed (sealFields 40000 header5.seg) }
def expiredEntry : JEntry := { serial := 2, time := 8640000, body := .expired 40001 7 4 1 60 99 100 }
def discardedEntry : JEntry := { serial := 3, time := 8640000, body := .discarded 40002 7 3 1 2 100 100 3 }
def pageWriting : State :=
  { registered with
    catalogue := [(40000, { entry5 .journaling with sealJournal := some 1 }),
                  (40001, { entry5 .retiring with retireJournal := some 2 }),
                  (40002, { entry5 .retiring with retireJournal := some 3 })],
    journal := { registered.journal with
      next := 4, bufs := #v[⟨.writing, [sealedEntry, expiredEntry, discardedEntry]⟩, ⟨.free, []⟩] },
    store := { registered.store with queues := #v[[.pageWrite], [], [], []] } }

theorem test_witness_page_write : pageWriting.inFlight 0 = some .pageWrite ∧ pageWriting.journal.bufIn .writing = some 0
    ∧ pageWriting.journal.bufs[0].entries.getLast? = some discardedEntry ∧ (pageWriting.entry 40000).state = .journaling
    ∧ (pageWriting.entry 40000).sealJournal = some sealedEntry.serial ∧ (pageWriting.entry 40000).seg = some header5.seg
    ∧ (pageWriting.entry 40001).state = .retiring ∧ (pageWriting.entry 40001).retireJournal = some expiredEntry.serial
    ∧ (pageWriting.entry 40002).state = .retiring ∧ (pageWriting.entry 40002).retireJournal = some discardedEntry.serial :=
  ⟨by decide +kernel, by decide +kernel, rfl, rfl, rfl, rfl, rfl, rfl, rfl, rfl⟩

/-- JournalMovesAtItsEvents: a gathering buffer, an ERASE of a journal extent, the head of the append wait list with and
without its place. -/
def gathering : State :=
  { registered with journal := { registered.journal with next := 2, bufs := #v[⟨.gathering, [entry1]⟩, ⟨.free, []⟩] } }
def journalErasing : State :=
  { oneDurable with
    journal := { oneDurable.journal with extents := oneDurable.journal.extents.set 3 .erasing },
    store := { oneDurable.store with queues := #v[[.journalErase 3], [], [], []] } }
def appendWaiting (n : Nat) : State :=
  { registered with journal := { registered.journal with wait := [.entry (.policyLapsed 0 30 1) .plain], reserved := n } }

theorem test_witness_journal_events : gathering.journal.bufIn .gathering = some 0 ∧ gathering.journal.bufs[0].entries ≠ []
    ∧ (∀ b ∈ gathering.journal.bufs.toList, b.state ≠ .ready ∧ b.state ≠ .writing) ∧ gathering.journal.slotReady = true
    ∧ journalErasing.inFlight 0 = some (.journalErase 3) ∧ journalErasing.store.placeWait = []
    ∧ (journalErasing.queue 0).length ≤ 16
    ∧ (appendWaiting 1).journal.wait = .entry (.policyLapsed 0 30 1) .plain :: [] ∧ 1 ≤ (appendWaiting 1).journal.reserved
    ∧ (appendWaiting 0).journal.reserved = 0 := by decide +kernel

/-! ## Hypotheses that can be met: ports, chains and power -/

/-- SimplePortCommands: a port with and one without AUDIT, a projection out of range, an aligned target. -/
def at1 : At := { port := 1, chain := 0, notify := true, haltOnError := false }

theorem test_witness_port_commands : ready.arrives at0 .anyRole ∧ ready.arrives at0 .retrieval ∧ (ready.roles 0).audit = true
    ∧ ready.arrives at1 .retrieval ∧ (ready.roles 1).audit = false
    ∧ projectionInRange { Projection.everything with k1 := 16 } = false ∧ projectionInRange Projection.everything = true
    ∧ ready.arrives at0 .anyPort ∧ 128 % 64 = 0 ∧ 1 % 64 ≠ 0 :=
  ⟨arrives_of (by decide +kernel), arrives_of (by decide +kernel), by decide, arrives_of (by decide +kernel), by decide,
    by decide, by decide, arrives_of (by decide +kernel), by decide, by decide⟩

/-- CellCommandsAreTestedThenTaken: a DOWN, an OPEN and a CLOSED port, a chain IDLE, fetching and with a feed, chain numbers
3 and 4, and addresses aligned and not. -/
def portIn (st : PortState) (addr : BitVec 64) : State :=
  ready.modPort 0 (fun q => { q with state := st, cell1 := addr })

theorem test_witness_cell : ready.power = .ready ∧ ((portIn .closed 0).port 0).state ≠ .down ∧ ((portIn .closed 0).port 0).state ≠ .opened
    ∧ ((portIn .closed 0).port 0).state = .closed ∧ ((portIn .opened 1).port 0).state = .opened
    ∧ ((portIn .opened 0).port 0).chains[0].state ≠ .idle ∧ ((portIn .opened 0).port 0).chains[3].state = .idle
    ∧ ((portIn .opened 1).port 0).cell1.toNat % 64 ≠ 0 ∧ ((portIn .opened 64).port 0).cell1.toNat % 64 = 0
    ∧ ((portIn .opened 64).port 0).cell1 ≠ 0 ∧ ((portIn .opened 0).port 0).cell1 = 0
    ∧ (3 : Byte).toNat = (3 : ChainNo).val ∧ 3 < (4 : Byte).toNat ∧ ready.fetching ⟨0, 0⟩ = true
    ∧ (∀ c : ChainNo, ((portIn .opened 0).port 0).chains[c.val].state = .idle ∨ (portIn .opened 0).fetching ⟨0, c⟩ = true)
    ∧ (feeding.port 0).chains[0].state ≠ .idle ∧ feeding.fetching ⟨0, 0⟩ = false
    ∧ (feeding.port 0).chains[0].desc = some ⟨64, true, false, some (.feed feed0)⟩ := by decide +kernel

/-- WindowWritesActByTheirMarks: no mark, each mark alone, both with each command and with commands 0 and 6, and a part that
is STARTING. -/
theorem test_witness_window : ready.power ≠ .off ∧ (ready.port 0).state ≠ .down
    ∧ (0x0000000000000100 : BitVec 64).extractLsb' 0 8 = 0 ∧ (0x0000000000000100 : BitVec 64).extractLsb' 56 8 = 0
    ∧ (0x0100000000000100 : BitVec 64).extractLsb' 0 8 = 0 ∧ (0x0100000000000100 : BitVec 64).extractLsb' 56 8 ≠ 0
    ∧ (0x0000000000000101 : BitVec 64).extractLsb' 0 8 ≠ 0 ∧ (0x0100000000000501 : BitVec 64).extractLsb' 8 8 = 5
    ∧ (0x0100000000000601 : BitVec 64).extractLsb' 8 8 = 6 ∧ 5 < (6 : Byte).toNat
    ∧ ({ ready with power := .starting } : State).power = .starting := by decide +kernel

/-- JUMP's target is a 32-bit field at byte 4 (R171): 0x140, whatever stands at byte 8. -/
theorem test_jump_target_is_32_bits :
    descriptorCommand 0 0 [0x3E, 0, 0, 0, 0x40, 0x01, 0, 0, 0xFF] = some (.jump ⟨0, 0, false, false⟩ 0x140) := by
  decide

/-- DescriptorRunsItsCommand: a code that names a command, one that names none, a port without the role, a buffer just too
long. -/
theorem test_witness_descriptor : descriptorCommand 0 0 [0x3F] = some (.halt ⟨0, 0, false, false⟩)
    ∧ descriptorCommand 0 0 [0x33] = none
    ∧ ready.arrives at0 .anyPort ∧ described (.streamClose at1 7) = some ⟨at1, 0x02, .intake, none⟩
    ∧ ready.fetching (refOf at1) = true ∧ (ready.port at1.port).state = .opened
    ∧ Role.admits .intake (ready.roles at1.port) = false
    ∧ described (.statusRead at1 ⟨0, 4097⟩) = some ⟨at1, 0x31, .anyPort, some ⟨0, 4097⟩⟩
    ∧ Role.admits .anyPort (ready.roles at1.port) = true ∧ 4096 < 4097 :=
  ⟨by decide +kernel, by decide +kernel, arrives_of (by decide +kernel), rfl, by decide +kernel, by decide +kernel, by decide,
    rfl, by decide, by decide⟩

/-- UnansweredReadEndsTheChain. -/
theorem test_witness_unanswered : (ready.port 0).state = .opened ∧ ready.fetching (refOf at0) = true
    ∧ (feeding.port 0).state = .opened ∧ (feeding.chain (refOf at0)).desc = some ⟨64, true, false, some (.feed feed0)⟩
    ∧ feed0.laneHeld = true := by decide +kernel

/-- LinkEventsOpenAndResetThePort. -/
theorem test_witness_link : ready.power ≠ .off ∧ (ready.port 0).state ≠ .down
    ∧ ((portIn .down 0).port 0).state = .down ∧ ((portIn .down 0).port 0).inReset = false
    ∧ ((ready.modPort 0 (fun q => { q with state := .down, inReset := true })).port 0).inReset = true := by decide +kernel

/-- PowerAndStartUp: off and on; the scan at its last but one slot and at its last, where Settings Memory is damaged; a
channel's header reads under way, and the last of all. -/
def scanningSlot (n : Nat) (again : Bool) : State :=
  { ready with
    power := .starting, settings := { ready.settings with damaged := [.row 0, .hold 3 0, .savedDay, .release, .badTable] },
    boot := { Boot.empty with slot := n, scanned := [(5, [⟨entry1, true⟩])] },
    store := { ready.store with queues := #v[[.pageRead n .scan again], [], [], []] } }
def rebuilding (x : Nat) : State :=
  { ready with
    power := .starting,
    boot := { Boot.empty with stage := .rebuild, nextHeader := #v[32768, 65536, 98304, x], headers := [(40000, some header5)] },
    store := { ready.store with queues := #v[[], [], [], [.headerRead x false]] } }

theorem test_witness_power : State.reset.power = .off ∧ ready.power ≠ .off ∧ (∀ ch, ready.inFlight ch = none)
    ∧ (scanningSlot 32766 false).power = .starting ∧ (scanningSlot 32766 false).store.placeWait = []
    ∧ (∀ ch, ((scanningSlot 32766 false).queue ch).length ≤ 16) ∧ (scanningSlot 32766 false).boot.stage = .scan
    ∧ (scanningSlot 32766 false).inFlight 0 = some (.pageRead 32766 .scan false) ∧ 32766 + 1 < 32768
    ∧ (scanningSlot 32766 false).returnedPage 32766 .stored = some .erased
    ∧ (scanningSlot 32766 false).returnedPage 32766 (.returned (.page [])) = some (.page []) := by decide +kernel

/-- One page found: its entry is the only one. -/
theorem found_alone {scanned : Table (List StoredEntry)} (h : scanned = [] ∨ scanned = [(5, [⟨entry1, true⟩])]) {i : Nat}
    {e : JEntry} (he : foundAt scanned i e) : e = entry1 := by
  obtain ⟨p, hp, hm⟩ := he
  rcases h with rfl | rfl
  · simp [tget] at hp
  · rw [tget_cons] at hp
    split at hp
    · cases hp; simpa using hm
    · cases hp

theorem agree_alone {scanned : Table (List StoredEntry)} (h : scanned = [] ∨ scanned = [(5, [⟨entry1, true⟩])]) :
    copiesAgree scanned := fun _ _ _ _ he hf _ => (found_alone h he).trans (found_alone h hf).symm

/-- The scan takes each serial once, within a page as across pages (R156). -/
theorem test_scan_takes_each_serial_once :
    foundPages [(0, [⟨entry1, true⟩, ⟨entry1, true⟩]), (1, [⟨entry1, true⟩])] = [(0, [entry1])] := by decide +kernel

theorem test_witness_scan_end : (scanningSlot 32767 true).canonical ∧ (scanningSlot 32767 true).boot.stage = .scan
    ∧ (scanningSlot 32767 true).power = .starting
    ∧ (scanningSlot 32767 true).inFlight 0 = some (.pageRead 32767 .scan true)
    ∧ (scanningSlot 32767 true).returnedPage 32767 .stored = some .erased
    ∧ (scanningSlot 32767 true).returnedPage 32767 .failed = none
    ∧ copiesAgree ((scanningSlot 32767 true).scannedWith 32767 .erased)
    ∧ 131071 ∉ (scanningSlot 32767 true).settings.bad
    ∧ ∀ slot e cause n, foundAt ((scanningSlot 32767 true).scannedWith 32767 .erased) slot e →
        e.body ≠ .badExtent 131071 cause n := by
  refine ⟨canonical_of (by decide +kernel), rfl, rfl, rfl, rfl, rfl, agree_alone (.inr rfl), by decide +kernel,
    fun slot e cause n he => ?_⟩
  rw [found_alone (.inr rfl) he]
  simp [entry1]

theorem test_witness_rebuild : (rebuilding 131071).power = .starting ∧ (rebuilding 131070).store.placeWait = []
    ∧ (∀ ch, ((rebuilding 131070).queue ch).length ≤ 16) ∧ (rebuilding 131071).boot.stage = .rebuild
    ∧ (rebuilding 131070).inFlight 3 = some (.headerRead 131070 false)
    ∧ (rebuilding 131070).returned 131070 .stored = some .erased ∧ 131070 + 1 < ((3 : Channel).val + 1) * 32768
    ∧ 131070 + 1 ∉ (rebuilding 131070).settings.bad := by decide +kernel

theorem test_witness_rebuild_end : (rebuilding 131071).canonical ∧ 131071 + 1 = ((3 : Channel).val + 1) * 32768
    ∧ (∀ k : Channel, k ≠ 3 → (k.val + 1) * 32768 ≤ (rebuilding 131071).boot.nextHeader[k.val])
    ∧ (rebuilding 131071).inFlight 3 = some (.headerRead 131071 false)
    ∧ (∀ p ∈ (rebuilding 131071).headersWith 131071 .incomplete, reservedExtents ≤ p.1)
    ∧ copiesAgree (rebuilding 131071).boot.scanned :=
  ⟨canonical_of (by decide +kernel), rfl, by decide +kernel, rfl, by decide +kernel, agree_alone (.inl rfl)⟩

/-! ## Hypotheses that can be met: what every step keeps -/

/-- A part with a command at the front of its queue. -/
def queued (c : Instr) (s : State) : State := { s with pending := [c] }

theorem test_witness_canonical : ∃ t, step (queued .sealAllocation oneSeal) = .next t
    ∧ (queued .sealAllocation oneSeal).canonical ∧ (queued .sealAllocation oneSeal).pinsBounded :=
  ⟨_, rfl, canonical_of (by decide +kernel), by unfold State.pinsBounded; decide +kernel⟩

theorem test_witness_file_sums : ∃ t, step (queued (.recordPlace 0 0 place100) feeding) = .next t
    ∧ (queued (.recordPlace 0 0 place100) feeding).fileSums := by
  refine ⟨_, rfl, fun k f h => ?_⟩
  have hm : (k, f) ∈ [(0, { file5 with openSeg := some 0 })] := h
  cases List.mem_singleton.mp hm
  decide +kernel

theorem test_witness_stacks : ∃ t, step (queued (.recordPlace 0 0 place100) feeding) = .next t
    ∧ (queued (.recordPlace 0 0 place100) feeding).stacksLawful := by
  refine ⟨_, rfl, fun b v codec h hv => ?_, fun r g h d hs hp => ?_⟩
  · have hm : (b, v) ∈ [(0, staging0)] := h
    cases List.mem_singleton.mp hm
    cases hv
    decide +kernel
  · have hn : ∀ c : ChainRef, (feeding.job c).bind Job.seg = none := by
      rintro ⟨p, c⟩
      revert p c
      decide +kernel
    cases r with
    | chain c => exact absurd ((hn c).symm.trans hs) (by simp)
    | scrub => exact absurd (show (none : Option SegJob) = some g from hs) (by simp)

theorem test_witness_clock_step : ∃ t, step (queued .dividerSecond (clockAt 8726399 .internal 0)) = .next t
    ∧ (queued .dividerSecond (clockAt 8726399 .internal 0)).power = .ready ∧ t.power = .ready
    ∧ (queued .dividerSecond (clockAt 8726399 .internal 0)).clock.value < 2 ^ 32
    ∧ (queued .dividerSecond (clockAt 8726399 .internal 0)).settings.savedDay
        = (queued .dividerSecond (clockAt 8726399 .internal 0)).today :=
  ⟨_, rfl, rfl, by decide +kernel, by decide +kernel, by decide +kernel⟩

/-- What the pins must be, at the jobs' own extents. -/
def pinnedB (s : State) : Bool :=
  (JobRef.scrub :: allChains.map JobRef.chain).all (fun r => match s.segJob r with
    | some g => (s.entry g.extent).accepts g.serial && decide ((s.pinHolders g.extent).length ≤ (s.entry g.extent).pins)
    | none => true)

theorem every_job (r : JobRef) : r ∈ JobRef.scrub :: allChains.map JobRef.chain := by
  rcases r with ⟨p, c⟩ | _
  · revert p c; decide +kernel
  · decide +kernel

theorem segmentsPinned_of {s : State} (h : pinnedB s = true) : s.segmentsPinned := by
  have key : ∀ r g, s.segJob r = some g →
      (s.entry g.extent).accepts g.serial = true ∧ (s.pinHolders g.extent).length ≤ (s.entry g.extent).pins := by
    intro r g hg
    have hr := List.all_eq_true.mp h r (every_job r)
    rw [hg] at hr
    simpa using hr
  refine ⟨fun r g hg => (key r g hg).1, fun x => ?_⟩
  rcases hp : s.pinHolders x with _ | ⟨r, rest⟩
  · exact Nat.zero_le _
  · have hm : r ∈ s.pinHolders x := by rw [hp]; exact List.mem_cons_self
    have hf := (List.mem_filter.mp hm).2
    split at hf
    · rename_i g hg
      have hx : g.extent = x := by simp only [Bool.and_eq_true, decide_eq_true_eq] at hf; exact hf.1
      have := (key r g hg).2
      rwa [hx, hp] at this
    · cases hf

/-- Whether a job is on an extent in a phase. -/
def jobIn (s : State) (r : JobRef) (x : Nat) (ok : SegPhase → Bool) : Bool :=
  match s.segJob r with
  | some g => decide (g.extent = x) && ok g.phase
  | none => false

theorem jobIn_spec {s : State} {r : JobRef} {x : Nat} {ok : SegPhase → Bool} (h : jobIn s r x ok = true) :
    ∃ g, s.segJob r = some g ∧ g.extent = x ∧ ok g.phase = true := by
  unfold jobIn at h
  split at h
  · rename_i g hg
    simp only [Bool.and_eq_true, decide_eq_true_eq] at h
    exact ⟨g, hg, h.1, h.2⟩
  · cases h

/-- What the entries' lists must be. -/
def listsB (s : State) (p : Nat × Entry) : Bool :=
  p.2.pinWait.all (fun c => jobIn s (.chain c) p.1 (fun q => decide (q = .waitPin)))
    && (p.2.pinWait.isEmpty || decide (0 < p.2.pins))
    && p.2.granted.all (fun c => jobIn s (.chain c) p.1 (fun q => decide (q = .pinned)))
    && decide (p.2.pinWait.Nodup) && decide (p.2.granted.Nodup)

/-- What an operation in a queue or on the place wait list must be. -/
def opB (s : State) : StoreOp → Bool
  | .segRead x (some r) _ => jobIn s r x (fun q => decide (q = .reading) || decide (q = .waitPlace))
  | .segWrite _ x => decide ((s.entry x).state = .writing) && decide (s.storeOps.countP (StoreOp.alters x) ≤ 1)
  | .erase x => decide ((s.entry x).state = .erasing) && decide (s.storeOps.countP (StoreOp.alters x) ≤ 1)
  | _ => true

/-- What a chain, and the job on it, must be. -/
def chainB (s : State) (c : ChainRef) : Bool :=
  (!decide ((s.chain c).state = .idle) || (s.chain c).desc.isNone)
    && (match s.segJob (.chain c) with
      | some g => !decide (g.phase = .waitPin) || decide (c ∈ (s.entry g.extent).pinWait)
      | none => true)

def lawfulB (s : State) : Bool :=
  pinnedB s && s.catalogue.all (listsB s) && s.storeOps.all (opB s) && allChains.all (chainB s)
    && (match s.audit.scrub with | some g => decide (g.phase ≠ .waitPin) | none => true)
    && (JobRef.scrub :: allChains.map JobRef.chain).all (fun r => decide (s.storeOps.countP (StoreOp.readsFor r) ≤ 1))

theorem every_chain (c : ChainRef) : c ∈ allChains := by
  rcases c with ⟨p, c⟩
  revert p c
  decide +kernel

theorem pinsLawful_of {s : State} (h : lawfulB s = true) : s.pinsLawful := by
  simp only [lawfulB, Bool.and_eq_true, List.all_eq_true] at h
  obtain ⟨⟨⟨⟨⟨hp, hl⟩, ho⟩, hc⟩, hs⟩, hr⟩ := h
  have listed : ∀ x, ((s.entry x).pinWait = [] ∧ (s.entry x).granted = []) ∨ (x, s.entry x) ∈ s.catalogue := by
    intro x
    unfold State.entry
    split
    · exact .inl ⟨rfl, rfl⟩
    · cases he : tget s.catalogue x with
      | none => exact .inl ⟨rfl, rfl⟩
      | some e => exact .inr (mem_of_tget he)
  have lists : ∀ x, (x, s.entry x) ∈ s.catalogue → _ := fun x hx => by
    have := hl _ hx
    simp only [listsB, Bool.and_eq_true, List.all_eq_true, Bool.or_eq_true, List.isEmpty_iff, decide_eq_true_eq] at this
    exact this
  have chains : ∀ c, chainB s c = true := fun c => hc c (every_chain c)
  have alters : ∀ x, (∀ b, .segWrite b x ∉ s.storeOps) → .erase x ∉ s.storeOps →
      s.storeOps.countP (StoreOp.alters x) = 0 := by
    intro x h1 h2
    rw [List.countP_eq_zero]
    intro o hm ha
    cases o <;> simp only [StoreOp.alters, decide_eq_true_eq, Bool.false_eq_true] at ha
    · exact h1 _ (ha ▸ hm)
    · exact h2 (ha ▸ hm)
  refine ⟨segmentsPinned_of hp, fun x c hm => ?_, fun r g hg hw => ?_, fun x hn => ?_, fun x c hm => ?_, fun x => ?_,
    fun x r again hm => ?_, fun r => ?_, fun b x hm => ?_, fun x hm => ?_, fun x => ?_, fun c hi => ?_⟩
  · rcases listed x with h | h
    · rw [h.1] at hm; cases hm
    · obtain ⟨g, h1, h2, h3⟩ := jobIn_spec ((lists x h).1.1.1.1 c hm)
      exact ⟨g, h1, h2, by simpa using h3⟩
  · cases r with
    | chain c =>
      have := chains c
      simp only [chainB, hg, Bool.and_eq_true, Bool.or_eq_true, decide_eq_true_eq, Bool.not_eq_true',
        decide_eq_false_iff_not] at this
      exact ⟨c, rfl, this.2.resolve_left (fun n => n hw)⟩
    | scrub => rw [show s.audit.scrub = some g from hg] at hs; simp [hw] at hs
  · rcases listed x with h | h
    · exact absurd h.1 hn
    · exact (lists x h).1.1.1.2.resolve_left hn
  · rcases listed x with h | h
    · rw [h.2] at hm; cases hm
    · obtain ⟨g, h1, h2, h3⟩ := jobIn_spec ((lists x h).1.1.2 c hm)
      exact ⟨g, h1, h2, by simpa using h3⟩
  · rcases listed x with h | h
    · rw [h.1, h.2]; exact ⟨List.nodup_nil, List.nodup_nil⟩
    · exact ⟨(lists x h).1.2, (lists x h).2⟩
  · have := ho _ hm
    simp only [opB] at this
    obtain ⟨g, h1, h2, h3⟩ := jobIn_spec this
    exact ⟨g, h1, h2, by simpa using h3⟩
  · simpa using hr r (every_job r)
  · have := ho _ hm
    simp only [opB, Bool.and_eq_true, decide_eq_true_eq] at this
    exact this.1
  · have := ho _ hm
    simp only [opB, Bool.and_eq_true, decide_eq_true_eq] at this
    exact this.1
  · by_cases h1 : ∃ b, .segWrite b x ∈ s.storeOps
    · obtain ⟨b, hb⟩ := h1
      have := ho _ hb
      simp only [opB, Bool.and_eq_true, decide_eq_true_eq] at this
      exact this.2
    · by_cases h2 : .erase x ∈ s.storeOps
      · have := ho _ h2
        simp only [opB, Bool.and_eq_true, decide_eq_true_eq] at this
        exact this.2
      · rw [alters x (fun b hb => h1 ⟨b, hb⟩) h2]; exact Nat.zero_le _
  · have := chains c
    simp only [chainB, Bool.and_eq_true, Bool.or_eq_true, Bool.not_eq_true', decide_eq_false_iff_not] at this
    simpa using this.1.resolve_left (fun n => n hi)

/-- Segment 5 has its four pins: the scrub decodes it, one verification reads it and another has been granted its pin, one
waits for the next, and one pin is another's; an extent is being erased. -/
def verifying : State :=
  let v := fun p => Job.verify ⟨onSegment p, true⟩
  let s := State.run (State.run (State.run
    { sealed5 with
      catalogue := [(40000, { entry5 .sealed with pins := 4, pinWait := [⟨2, 0⟩], granted := [⟨1, 0⟩] }),
                    (40001, { Entry.free with state := .erasing })] }
    0 .running (v .reading)) 1 .waiting (v .pinned)) 2 .waiting (v .waitPin)
  { s with
    audit := { s.audit with scrub := some (onSegment decoding5) },
    store := { s.store with queues := #v[[], [.segRead 40000 (some (.chain ⟨0, 0⟩)) false, .erase 40001], [], []] } }

theorem test_witness_holds_exact : ∃ t, step (queued (.holdPlace at3 none 0 49710) verifying) = .next t
    ∧ (queued (.holdPlace at3 none 0 49710) verifying).power = .ready ∧ t.power = .ready
    ∧ (queued (.holdPlace at3 none 0 49710) verifying).canonical
    ∧ (queued (.holdPlace at3 none 0 49710) verifying).pinsLawful
    ∧ (queued (.holdPlace at3 none 0 49710) verifying).holdsExact := by
  refine ⟨_, rfl, rfl, by decide +kernel, canonical_of (by decide +kernel), pinsLawful_of (by decide +kernel), rfl,
    fun p hp hc v hv => ?_⟩
  rcases List.mem_cons.mp (show p ∈ verifying.catalogue from hp) with rfl | hp
  · rfl
  · cases List.mem_singleton.mp hp
    cases hv

theorem test_witness_rows : ∃ t, step (queued (.policyPropose at0 3 20) ready) = .next t
    ∧ (queued (.policyPropose at0 3 20) ready).power = .ready ∧ t.power = .ready
    ∧ (queued (.policyPropose at0 3 20) ready).rowsAboveFloor := by
  refine ⟨_, rfl, rfl, by decide +kernel, by decide +kernel, fun i d h => ?_⟩
  have : ∀ i : Fin 8, ready.retention.staged[i.val] = .none := by decide +kernel
  rw [show (queued (.policyPropose at0 3 20) ready).retention.staged[i.val] = ready.retention.staged[i.val] from rfl,
    this i] at h
  cases h

theorem waitsUnheld_of {s : State} (h : ∀ p ∈ s.catalogue, p.2.state = .expiryWait → p.2.holds = 0) : s.waitsUnheld := by
  intro x hx
  unfold State.entry at hx ⊢
  split at hx
  · cases hx
  · rename_i hlow
    rw [if_neg hlow]
    cases he : tget s.catalogue x with
    | none => rfl
    | some e => rw [he] at hx; exact h _ (mem_of_tget he) hx

/-- Whether the page buffers are as the Journal keeps them. -/
def orderlyB (j : Journal) : Bool :=
  decide (j.undurable.map (·.serial) = List.range' (j.durable + 1) (j.next - 1 - j.durable)) && decide (j.durable < j.next)
    && !(decide (j.bufs[0].state = .writing) && decide (j.bufs[1].state = .writing))
    && !(decide (j.bufs[0].state = .gathering) && decide (j.bufs[1].state = .gathering))
    && j.bufs.toList.all (fun b => decide (b.state = .ready ∨ b.state = .writing → b.entries ≠ []))
    && j.bufs.toList.all (fun b => decide (b.state = .gathering → b.entries.length < pageEntries))
    && (j.pending.isEmpty || j.bufs.toList.all (fun b => decide (b.state ≠ .gathering ∧ b.state ≠ .free)))

theorem orderly_of {j : Journal} (h : orderlyB j = true) : j.orderly := by
  simp only [orderlyB, Bool.and_eq_true, Bool.or_eq_true, List.all_eq_true, decide_eq_true_eq, Bool.not_eq_true',
    Bool.and_eq_false_iff, decide_eq_false_iff_not, List.isEmpty_iff] at h
  obtain ⟨⟨⟨⟨⟨⟨h1, h2⟩, h3⟩, h4⟩, h5⟩, h6⟩, h7⟩ := h
  exact ⟨h1, h2, fun a => h3.elim (fun n => n a.1) (fun n => n a.2), fun a => h4.elim (fun n => n a.1) (fun n => n a.2),
    h5, h6, fun hp => h7.resolve_left hp⟩

theorem test_witness_erasure : ∃ t, step (queued .scanVisit (visiting 39 0 0)) = .next t
    ∧ (queued .scanVisit (visiting 39 0 0)).power = .ready ∧ t.power = .ready
    ∧ (queued .scanVisit (visiting 39 0 0)).waitsUnheld ∧ (queued .scanVisit (visiting 39 0 0)).journal.orderly
    ∧ (t.entry 40000).state = .retiring ∧ ((queued .scanVisit (visiting 39 0 0)).entry 40000).state ≠ .retiring := by
  refine ⟨_, rfl, rfl, by decide +kernel, waitsUnheld_of (by decide +kernel), orderly_of (by decide +kernel),
    by decide +kernel, by decide +kernel⟩

theorem test_witness_erasing : ∃ t, step (queued (.journalPageWriteComplete true) pageWriting) = .next t
    ∧ (queued (.journalPageWriteComplete true) pageWriting).power = .ready ∧ t.power = .ready
    ∧ (queued (.journalPageWriteComplete true) pageWriting).waitsUnheld
    ∧ (queued (.journalPageWriteComplete true) pageWriting).journal.orderly
    ∧ (t.entry 40001).state = .erasing ∧ ((queued (.journalPageWriteComplete true) pageWriting).entry 40001).state ≠ .erasing := by
  refine ⟨_, rfl, rfl, by decide +kernel, waitsUnheld_of (by decide +kernel), orderly_of (by decide +kernel),
    by decide +kernel, by decide +kernel⟩

theorem test_witness_orderly : ∃ t, step (queued (.holdPlace at3 none 0 49710) gathering) = .next t
    ∧ (queued (.holdPlace at3 none 0 49710) gathering).power = .ready ∧ t.power = .ready
    ∧ (queued (.holdPlace at3 none 0 49710) gathering).journal.orderly :=
  ⟨_, rfl, rfl, by decide +kernel, orderly_of (by decide +kernel)⟩

/-- A journal whose durable serials run to `n`, none released: the page map lists the last alone, the others are lost. -/
def lostBefore (n : Nat) : State :=
  { appendWaiting 0 with
    journal := { (appendWaiting 0).journal with
      wait := [], next := n + 1, durable := n, pageMap := [(0, [n])], lastSlot := some 0 } }

/-- The entries lost before the oldest found count as long as they are unreleased, up to the last place (R153). -/
theorem test_lost_entries_keep_their_places : (lostBefore 1048575).freePlaces = 1 ∧ (lostBefore 1048575).canAppend 1 = true
    ∧ (lostBefore 1048576).freePlaces = 0 ∧ (lostBefore 1048576).canAppend 1 = false
    ∧ (lostBefore 10).freePlaces = 1048576 - 64 := by decide +kernel

/-- Of three pages 16,384, 16,383 and 0 slots behind the newest, the first lies outside the 16,384 slots that the newest
ends (R156, step 2; log entry 86). -/
theorem test_release_window : releaseFromMap
    [(0, [entry1]), (1, [{ entry1 with serial := 65 }]), (16384, [{ entry1 with serial := 1048577 }])] = 64 := by
  decide +kernel

/-- JournalSerialsRunConsecutivelyInTheirPlaces: the last free place, a single entry served at the limit, and a release. -/
def servedAtLimit : State :=
  { appendWaiting 1 with journal := { (appendWaiting 1).journal with next := 1048576, durable := 1048575 } }

theorem test_witness_places : 1 ≤ (lostBefore 1048575).freePlaces
    ∧ (∃ body note rest, servedAtLimit.journal.wait = .entry body note :: rest) ∧ servedAtLimit.withinPlaces
    ∧ servedAtLimit.unreleased + servedAtLimit.journal.reserved = 1048576
    ∧ (∃ t, exec .appendWaitServed servedAtLimit = .next t ∧ t.journal.next = 1048577 ∧ t.journal.reserved = 0)
    ∧ fullJournal.withinPlaces ∧ ∃ t, exec (.journalRelease at3 4200000) fullJournal = .next t :=
  ⟨by decide +kernel, ⟨_, _, _, rfl⟩, Nat.le_of_ble_eq_true (by decide +kernel), by decide +kernel,
    ⟨_, rfl, by decide +kernel, by decide +kernel⟩, Nat.le_of_ble_eq_true (by decide +kernel), ⟨_, rfl⟩⟩

end Sys2Proof.Tests
end

section
/-!
SUPPORT. The laws of the tables, their canonical form and law 2, and the writes of each part with a table in it that keep them.
-/

namespace Sys2Proof.Machine

/-! ## Entries of a table after a write -/

theorem mem_tput {α : Type} {t : Table α} {n : Nat} {v : α} {p : Nat × α} (h : p ∈ tput t n v) : p = (n, v) ∨ p ∈ t := by
  induction t with
  | nil => exact .inl (by simpa [tput] using h)
  | cons q t ih =>
    obtain ⟨k, w⟩ := q
    simp only [tput] at h
    split at h
    · simpa using h
    · split at h
      · rcases List.mem_cons.mp h with e | e
        · exact .inl e
        · exact .inr (List.mem_cons_of_mem _ e)
      · rcases List.mem_cons.mp h with e | e
        · exact .inr (e ▸ List.mem_cons_self)
        · exact (ih e).imp id (List.mem_cons_of_mem _)

theorem mem_tmod {α : Type} {t : Table α} {n : Nat} {f : α → α} {p : Nat × α} (h : p ∈ tmod t n f) :
    (∃ v, tget t n = some v ∧ p = (n, f v)) ∨ p ∈ t := by
  unfold tmod at h
  split at h
  · rename_i v hv; exact (mem_tput h).imp (fun e => ⟨v, hv, e⟩) id
  · exact .inr h

theorem mem_of_mem_tdel {α : Type} {t : Table α} {n : Nat} {p : Nat × α} (h : p ∈ tdel t n) : p ∈ t := by
  rw [tdel_eq_filter] at h
  exact List.mem_of_mem_filter h

theorem key_lt_of_tget {α : Type} {t : Table α} {b n : Nat} {v : α} (h : ∀ p ∈ t, p.1 < b) (hv : tget t n = some v) :
    n < b := h _ (mem_of_tget hv)

theorem keys_tput {α : Type} {t : Table α} {b n : Nat} {v : α} (h : ∀ p ∈ t, p.1 < b) (hn : n < b) :
    ∀ p ∈ tput t n v, p.1 < b := fun p hp => by
  rcases mem_tput hp with rfl | hp
  · exact hn
  · exact h p hp

theorem keys_tmod {α : Type} {t : Table α} {b n : Nat} {f : α → α} (h : ∀ p ∈ t, p.1 < b) :
    ∀ p ∈ tmod t n f, p.1 < b := fun p hp => by
  rcases mem_tmod hp with ⟨v, hv, rfl⟩ | hp
  · exact key_lt_of_tget h hv
  · exact h p hp

theorem keys_map {α β : Type} {t : Table α} {b : Nat} {f : α → β} (h : ∀ p ∈ t, p.1 < b) :
    ∀ p ∈ t.map (fun q => (q.1, f q.2)), p.1 < b := fun p hp => by
  obtain ⟨q, hq, rfl⟩ := List.mem_map.mp hp
  exact h q hq

theorem lowestFree_lt {α : Type} {t : Table α} {b k : Nat} (h : lowestFree t b = some k) : k < b := by
  unfold lowestFree at h
  split at h
  · cases h; assumption
  · cases h

/-! ## The laws of the tables -/

/-- Law 2 of one file: every record presented was accepted, found duplicate or dropped (R5). -/
def FileEntry.summed (f : FileEntry) : Prop := f.presented = f.accepted + f.duplicates + f.dropped

/-- The laws of the tables: their canonical form with the bound on pins where `C` asks for it, and law 2 where `F` does. Both
are kept operation by operation in the same way, so each operation is dealt with once for the two. -/
structure State.tableLaws (C F : Prop) (s : State) : Prop where
  form : C → s.canonical ∧ s.pinsBounded
  sums : F → s.fileSums

variable {C F : Prop} {s t : State}

/-- The parts of the state in which no table stands. -/
def quietParts : List Part :=
  [.pending, .out, .power, .straps, .store, .clock, .retention, .scanner, .audit, .ports, .arbiter]

/-- The laws read the tables alone. -/
theorem kept_of_same (h : s.tableLaws C F) (hfl : t.flash = s.flash) (hst : t.streams = s.streams)
    (hfi : t.files = s.files) (hre : t.recons = s.recons) (hbu : t.stager.bufs = s.stager.bufs)
    (hca : t.catalogue = s.catalogue) (hho : t.settings.holds = s.settings.holds)
    (hpm : t.journal.pageMap = s.journal.pageMap) (hbo : t.boot.scanned = s.boot.scanned)
    (hhe : t.boot.headers = s.boot.headers) : t.tableLaws C F := by
  refine ⟨fun hC => ?_, fun hF => ?_⟩
  · obtain ⟨hc, hp⟩ := h.form hC
    refine ⟨⟨?_, ?_, ?_, ?_, ?_, ?_, ?_, ?_, ?_, ?_, ?_, ?_, ?_, ?_, ?_, ?_⟩, ?_⟩
    · rw [hfl]; exact hc.extents
    · rw [hfl]; exact hc.pages
    · rw [hst]; exact hc.streams
    · rw [hfi]; exact hc.files
    · rw [hre]; exact hc.recons
    · rw [hbu]; exact hc.bufs
    · rw [hca]; exact hc.catalogue
    · rw [hho]; exact hc.holds
    · rw [hpm]; exact hc.pageMap
    · rw [hbo]; exact hc.scanned
    · rw [hhe]; exact hc.headers
    · rw [hst]; exact hc.streamSlots
    · rw [hfi]; exact hc.fileEntries
    · rw [hbu]; exact hc.bufNumbers
    · rw [hho]; exact hc.holdSlots
    · rw [hca]; exact hc.listed
    · unfold State.pinsBounded; rw [hca]; exact hp
  · have hs := h.sums hF
    unfold State.fileSums at hs ⊢
    rwa [hfi]

/-- An operation that leaves every part with a table in it keeps the laws. -/
theorem kept_of_frame {l : List Part} (h : s.tableLaws C F) (hf : s.sameBut l t)
    (hl : l.all (fun p => quietParts.contains p) = true) : t.tableLaws C F := by
  have hq := sameBut_mono hf hl
  have hn : ∀ p : Part, quietParts.contains p = false → p ∉ quietParts := fun p e => by simpa using e
  exact kept_of_same h (hq.flash (hn _ rfl)) (hq.streams (hn _ rfl)) (hq.files (hn _ rfl)) (hq.recons (hn _ rfl))
    (by rw [hq.stager (hn _ rfl)]) (hq.catalogue (hn _ rfl)) (by rw [hq.settings (hn _ rfl)])
    (by rw [hq.journal (hn _ rfl)]) (by rw [hq.boot (hn _ rfl)]) (by rw [hq.boot (hn _ rfl)])

/-- So does one that changes the Journal beside them, but not its page map. -/
theorem kept_of_journal_frame {l : List Part} (h : s.tableLaws C F) (hf : s.sameBut l t)
    (hl : l.all (fun p => (Part.journal :: quietParts).contains p) = true)
    (hm : t.journal.pageMap = s.journal.pageMap) : t.tableLaws C F := by
  have hq := sameBut_mono hf hl
  have hn : ∀ p : Part, (Part.journal :: quietParts).contains p = false → p ∉ Part.journal :: quietParts :=
    fun p e => by simpa using e
  exact kept_of_same h (hq.flash (hn _ rfl)) (hq.streams (hn _ rfl)) (hq.files (hn _ rfl)) (hq.recons (hn _ rfl))
    (by rw [hq.stager (hn _ rfl)]) (hq.catalogue (hn _ rfl)) (by rw [hq.settings (hn _ rfl)])
    hm (by rw [hq.boot (hn _ rfl)]) (by rw [hq.boot (hn _ rfl)])

theorem kept_ite {u : State} {c : Prop} [Decidable c] (h : t.tableLaws C F) (k : u.tableLaws C F) :
    (if c then t else u).tableLaws C F := by
  split
  · exact h
  · exact k

theorem kept_foldl {α : Type} {f : State → α → State} (hf : ∀ (s : State) a, s.tableLaws C F → (f s a).tableLaws C F)
    (h : s.tableLaws C F) (xs : List α) : (xs.foldl f s).tableLaws C F := by
  induction xs generalizing s with
  | nil => exact h
  | cons x xs ih => exact ih (hf s x h)

/-! ## Each part with a table in it written whole -/

theorem setJournal_kept (h : s.tableLaws C F) {v : Journal} (hm : v.pageMap = s.journal.pageMap) :
    (s.setJournal v).tableLaws C F := kept_of_journal_frame h (setJournal_frame s v) (by decide) hm

theorem setPageMap_kept (h : s.tableLaws C F) {v : Journal} (hm : C → Table.rising v.pageMap = true) :
    (s.setJournal v).tableLaws C F :=
  ⟨fun hC => ⟨{ (h.form hC).1 with pageMap := hm hC }, (h.form hC).2⟩, h.sums⟩

theorem setSettings_kept (h : s.tableLaws C F) {v : Settings} (hm : v.holds = s.settings.holds) :
    (s.setSettings v).tableLaws C F := kept_of_same h rfl rfl rfl rfl rfl rfl hm rfl rfl rfl

theorem setHolds_kept (h : s.tableLaws C F) {v : Settings}
    (hm : C → Table.rising v.holds = true ∧ ∀ p ∈ v.holds, p.1 < 64) : (s.setSettings v).tableLaws C F :=
  ⟨fun hC => ⟨{ (h.form hC).1 with holds := (hm hC).1, holdSlots := (hm hC).2 }, (h.form hC).2⟩, h.sums⟩

theorem setStager_kept (h : s.tableLaws C F) {v : Stager} (hm : v.bufs = s.stager.bufs) :
    (s.setStager v).tableLaws C F := kept_of_same h rfl rfl rfl rfl hm rfl rfl rfl rfl rfl

theorem setBufs_kept (h : s.tableLaws C F) {v : Stager}
    (hm : C → Table.rising v.bufs = true ∧ ∀ p ∈ v.bufs, p.1 < 48) : (s.setStager v).tableLaws C F :=
  ⟨fun hC => ⟨{ (h.form hC).1 with bufs := (hm hC).1, bufNumbers := (hm hC).2 }, (h.form hC).2⟩, h.sums⟩

theorem setBoot_kept (h : s.tableLaws C F) {v : Boot}
    (hm : C → Table.rising v.scanned = true ∧ Table.rising v.headers = true) : (s.setBoot v).tableLaws C F :=
  ⟨fun hC => ⟨{ (h.form hC).1 with scanned := (hm hC).1, headers := (hm hC).2 }, (h.form hC).2⟩, h.sums⟩

/-- What start-up counts beside its two tables. -/
theorem setBootCounts_kept (h : s.tableLaws C F) {v : Boot} (hs : v.scanned = s.boot.scanned)
    (hh : v.headers = s.boot.headers) : (s.setBoot v).tableLaws C F := kept_of_same h rfl rfl rfl rfl rfl rfl rfl rfl hs hh

theorem setFlash_kept (h : s.tableLaws C F) {v : Flash}
    (hm : C → Table.rising v.extents = true ∧ Table.rising v.pages = true) : (s.setFlash v).tableLaws C F :=
  ⟨fun hC => ⟨{ (h.form hC).1 with extents := (hm hC).1, pages := (hm hC).2 }, (h.form hC).2⟩, h.sums⟩

theorem setStreams_kept (h : s.tableLaws C F) {v : Table Stream}
    (hm : C → Table.rising v = true ∧ ∀ p ∈ v, p.1 < 256) : (s.setStreams v).tableLaws C F :=
  ⟨fun hC => ⟨{ (h.form hC).1 with streams := (hm hC).1, streamSlots := (hm hC).2 }, (h.form hC).2⟩, h.sums⟩

theorem setRecons_kept (h : s.tableLaws C F) {v : Table Recon} (hm : C → Table.rising v = true) :
    (s.setRecons v).tableLaws C F :=
  ⟨fun hC => ⟨{ (h.form hC).1 with recons := hm hC }, (h.form hC).2⟩, h.sums⟩

theorem setFiles_kept (h : s.tableLaws C F) {v : Table FileEntry}
    (hm : C → Table.rising v = true ∧ ∀ p ∈ v, p.1 < 32) (hs : F → ∀ k f, (k, f) ∈ v → f.summed) :
    (s.setFiles v).tableLaws C F :=
  ⟨fun hC => ⟨{ (h.form hC).1 with files := (hm hC).1, fileEntries := (hm hC).2 }, (h.form hC).2⟩, hs⟩

theorem setCatalogue_kept (h : s.tableLaws C F) {v : Table Entry}
    (hm : C → Table.rising v = true ∧ ∀ p ∈ v, reservedExtents ≤ p.1 ∧ p.2 ≠ Entry.free ∧ p.2.pins ≤ 4) :
    (s.setCatalogue v).tableLaws C F :=
  ⟨fun hC => ⟨{ (h.form hC).1 with
      catalogue := (hm hC).1, listed := fun p hp => ⟨((hm hC).2 p hp).1, ((hm hC).2 p hp).2.1⟩ },
    fun p hp => ((hm hC).2 p hp).2.2⟩, h.sums⟩

/-! ## Streams, files, buffers and catalogue entries -/

theorem modStream_kept (h : s.tableLaws C F) (k : Nat) (f : Stream → Stream) : (s.modStream k f).tableLaws C F :=
  setStreams_kept h fun hC => ⟨rising_tmod (h.form hC).1.streams k f, keys_tmod (h.form hC).1.streamSlots⟩

/-- A file entry changed keeps the laws where the change keeps law 2 of the entry that stands there. -/
theorem modFile_kept (h : s.tableLaws C F) (k : Nat) {f : FileEntry → FileEntry}
    (hf : ∀ g, tget s.files k = some g → g.summed → (f g).summed) : (s.modFile k f).tableLaws C F := by
  refine setFiles_kept h (fun hC => ⟨rising_tmod (h.form hC).1.files k f, keys_tmod (h.form hC).1.fileEntries⟩)
    (fun hF j g hg => ?_)
  rcases mem_tmod hg with ⟨v, hv, e⟩ | hm
  · cases e; exact hf v hv (h.sums hF _ _ (mem_of_tget hv))
  · exact h.sums hF j g hm

/-- A change that leaves the four counts keeps law 2. -/
theorem modFileCounts_kept (h : s.tableLaws C F) (k : Nat) {f : FileEntry → FileEntry}
    (hf : ∀ g : FileEntry, (f g).presented = g.presented ∧ (f g).accepted = g.accepted
      ∧ (f g).duplicates = g.duplicates ∧ (f g).dropped = g.dropped) : (s.modFile k f).tableLaws C F :=
  modFile_kept h k fun g _ hg => by
    obtain ⟨h1, h2, h3, h4⟩ := hf g
    unfold FileEntry.summed at hg ⊢
    rw [h1, h2, h3, h4]; exact hg

theorem setBuf_kept (h : s.tableLaws C F) {b : Nat} {v : Staging} (hb : C → b < 48) : (s.setBuf b v).tableLaws C F :=
  setBufs_kept h fun hC => ⟨rising_tput (h.form hC).1.bufs b v, keys_tput (h.form hC).1.bufNumbers (hb hC)⟩

/-- A buffer that serves a file set anew. -/
theorem resetBuf_kept (h : s.tableLaws C F) {b : Nat} {v w : Staging} (hw : tget s.stager.bufs b = some w) :
    (s.setBuf b v).tableLaws C F := setBuf_kept h fun hC => key_lt_of_tget (h.form hC).1.bufNumbers hw

theorem freeBuf_kept (h : s.tableLaws C F) (b : Nat) : (s.freeBuf b).tableLaws C F :=
  setBufs_kept h fun hC =>
    ⟨rising_tdel (h.form hC).1.bufs b, fun p hp => (h.form hC).1.bufNumbers p (mem_of_mem_tdel hp)⟩

theorem entry_pins_le (h : s.pinsBounded) (x : Nat) : (s.entry x).pins ≤ 4 := by
  unfold State.entry
  split
  · decide
  · cases he : tget s.catalogue x with
    | none => decide
    | some e => exact h _ (mem_of_tget he)

theorem setEntry_kept (h : s.tableLaws C F) (x : Nat) {e : Entry} (he : C → e.pins ≤ 4) : (s.setEntry x e).tableLaws C F := by
  unfold State.setEntry
  split
  · exact h
  · rename_i hx
    split
    · refine setCatalogue_kept h fun hC => ⟨rising_tdel (h.form hC).1.catalogue x, fun p hp => ?_⟩
      have hm := mem_of_mem_tdel hp
      exact ⟨((h.form hC).1.listed p hm).1, ((h.form hC).1.listed p hm).2, (h.form hC).2 p hm⟩
    · rename_i hn
      refine setCatalogue_kept h fun hC => ⟨rising_tput (h.form hC).1.catalogue x e, fun p hp => ?_⟩
      rcases mem_tput hp with rfl | hm
      · exact ⟨Nat.not_lt.mp hx, hn, he hC⟩
      · exact ⟨((h.form hC).1.listed p hm).1, ((h.form hC).1.listed p hm).2, (h.form hC).2 p hm⟩

/-- An entry changed keeps the laws where its pins stay within four. -/
theorem modEntry_kept (h : s.tableLaws C F) (x : Nat) {f : Entry → Entry} (hf : (s.entry x).pins ≤ 4 → (f (s.entry x)).pins ≤ 4) :
    (s.modEntry x f).tableLaws C F := setEntry_kept h x fun hC => hf (entry_pins_le (h.form hC).2 x)

end Sys2Proof.Machine
end

section
/-!
SUPPORT. The laws of the tables through the shared operations on chains, files, buffers, appends and records.
-/

namespace Sys2Proof.Machine

variable {C F : Prop} {s t : State}

/-! ## Ports, notices, queues and the Journal -/

theorem notice_kept (h : s.tableLaws C F) (p : PortId) (k : NoticeKind) (o : NoticeObject) :
    (s.notice p k o).tableLaws C F := kept_of_frame h (notice_frame s p k o) (by decide)

theorem emit_kept (h : s.tableLaws C F) (o : Output) : (s.emit o).tableLaws C F :=
  kept_of_frame h (emit_frame s o) (by decide)

theorem modPort_kept (h : s.tableLaws C F) (p : PortId) (f : Port → Port) : (s.modPort p f).tableLaws C F :=
  kept_of_frame h (modPort_frame s p f) (by decide)

theorem modChain_kept (h : s.tableLaws C F) (c : ChainRef) (f : Chain → Chain) : (s.modChain c f).tableLaws C F :=
  kept_of_frame h (modChain_frame s c f) (by decide)

theorem setJob_kept (h : s.tableLaws C F) (c : ChainRef) (j : Job) : (s.setJob c j).tableLaws C F :=
  kept_of_frame h (setJob_frame s c j) (by decide)

theorem setChainState_kept (h : s.tableLaws C F) (c : ChainRef) (st : ChainState) :
    (s.setChainState c st).tableLaws C F := kept_of_frame h (setChainState_frame s c st) (by decide)

theorem setStore_kept (h : s.tableLaws C F) (v : Store) : (s.setStore v).tableLaws C F :=
  kept_of_frame h (setStore_frame s v) (by decide)

theorem setScanner_kept (h : s.tableLaws C F) (v : Scanner) : (s.setScanner v).tableLaws C F :=
  kept_of_frame h (setScanner_frame s v) (by decide)

theorem setAudit_kept (h : s.tableLaws C F) (v : Audit) : (s.setAudit v).tableLaws C F :=
  kept_of_frame h (setAudit_frame s v) (by decide)

theorem setArbiter_kept (h : s.tableLaws C F) (v : Arbiter) : (s.setArbiter v).tableLaws C F :=
  kept_of_frame h (setArbiter_frame s v) (by decide)

theorem setClock_kept (h : s.tableLaws C F) (v : Clock) : (s.setClock v).tableLaws C F :=
  kept_of_frame h (setClock_frame s v) (by decide)

theorem setRetention_kept (h : s.tableLaws C F) (v : Retention) : (s.setRetention v).tableLaws C F :=
  kept_of_frame h (setRetention_frame s v) (by decide)

theorem noticeAll_kept (h : s.tableLaws C F) (k : NoticeKind) (o : NoticeObject) : (s.noticeAll k o).tableLaws C F :=
  kept_of_frame h (noticeAll_frame s k o) (by decide)

theorem setQueue_kept (h : s.tableLaws C F) (ch : Channel) (q : List StoreOp) : (s.setQueue ch q).tableLaws C F :=
  kept_of_frame h (setQueue_frame s ch q) (by decide)

theorem popQueue_kept (h : s.tableLaws C F) (ch : Channel) : (s.popQueue ch).tableLaws C F :=
  kept_of_frame h (popQueue_frame s ch) (by decide)

theorem request_kept (h : s.tableLaws C F) (ch : Channel) (op : StoreOp) : (s.request ch op).tableLaws C F :=
  kept_of_frame h (request_frame s ch op) (by decide)

theorem decideLow_kept (h : s.tableLaws C F) : s.decideLow.tableLaws C F :=
  kept_of_journal_frame h (decideLow_frame s) (by decide) (by rw [decideLow_journal])

theorem setPageState_kept (h : s.tableLaws C F) (i : Fin 2) (st : PageState) : (s.setPageState i st).tableLaws C F :=
  setJournal_kept h rfl

theorem startPageWrite_kept (h : s.tableLaws C F) : s.startPageWrite.tableLaws C F :=
  kept_of_journal_frame h (startPageWrite_frame s) (by decide) (startPageWrite_rest s).pageMap

theorem pumpPages_kept (h : s.tableLaws C F) (n : Nat) : (State.pumpPages n s).tableLaws C F :=
  kept_of_journal_frame h (pumpPages_frame n s) (by decide) (pumpPages_rest n s).pageMap

theorem appendRaw_kept (h : s.tableLaws C F) (body : JBody) : (s.appendRaw body).tableLaws C F :=
  kept_of_journal_frame h (appendRaw_frame s body) (by decide) (appendRaw_spec s body).2.2.pageMap

theorem append_kept (h : s.tableLaws C F) (body : JBody) : (s.append body).tableLaws C F :=
  decideLow_kept (appendRaw_kept h body)

theorem reserveWait_kept (h : s.tableLaws C F) : s.reserveWait.tableLaws C F := by
  unfold State.reserveWait
  split
  · exact h
  · exact setJournal_kept h rfl

theorem nextAppend_kept (h : s.tableLaws C F) : s.nextAppend.tableLaws C F := decideLow_kept (reserveWait_kept h)

theorem joinAppend_kept (h : s.tableLaws C F) (r : AppendReq) : (s.joinAppend r).tableLaws C F :=
  decideLow_kept (reserveWait_kept (setJournal_kept h rfl))

theorem popAppend_kept (h : s.tableLaws C F) : s.popAppend.tableLaws C F := setJournal_kept h rfl

theorem leaveAppend_kept (h : s.tableLaws C F) (c : ChainRef) : (s.leaveAppend c).tableLaws C F := by
  unfold State.leaveAppend
  dsimp only
  split
  · exact h
  · exact decideLow_kept (reserveWait_kept (setJournal_kept h rfl))

/-! ## Chains and completions -/

/-- An orphaned file keeps its counts. -/
theorem orphanFile_counts (p : PortId) (f : FileEntry) : (orphanFile p f).presented = f.presented
    ∧ (orphanFile p f).accepted = f.accepted ∧ (orphanFile p f).duplicates = f.duplicates
    ∧ (orphanFile p f).dropped = f.dropped := by
  unfold orphanFile
  split
  · split <;> exact ⟨rfl, rfl, rfl, rfl⟩
  · exact ⟨rfl, rfl, rfl, rfl⟩

/-- Every file changed, its counts kept. -/
theorem mapFiles_kept (h : s.tableLaws C F) {f : FileEntry → FileEntry}
    (hf : ∀ g : FileEntry, (f g).presented = g.presented ∧ (f g).accepted = g.accepted
      ∧ (f g).duplicates = g.duplicates ∧ (f g).dropped = g.dropped) :
    (s.setFiles (s.files.map (fun p => (p.1, f p.2)))).tableLaws C F := by
  refine setFiles_kept h (fun hC => ⟨rising_map (h.form hC).1.files f, keys_map (h.form hC).1.fileEntries⟩)
    (fun hF k g hg => ?_)
  obtain ⟨⟨j, v⟩, hv, e⟩ := List.mem_map.mp hg
  cases e
  obtain ⟨h1, h2, h3, h4⟩ := hf v
  have hs := h.sums hF _ _ hv
  unfold FileEntry.summed
  rw [h1, h2, h3, h4]; exact hs

theorem orphanFiles_kept (h : s.tableLaws C F) (p : PortId) : (s.orphanFiles p).tableLaws C F :=
  mapFiles_kept h (orphanFile_counts p)

theorem settleDrain_kept (h : s.tableLaws C F) (p : PortId) : (s.settleDrain p).tableLaws C F := by
  unfold State.settleDrain
  exact kept_ite (orphanFiles_kept (modPort_kept h _ _) p) h

theorem idleChain_kept (h : s.tableLaws C F) (c : ChainRef) : (s.idleChain c).tableLaws C F :=
  settleDrain_kept (modChain_kept h _ _) _

theorem complete_kept (h : s.tableLaws C F) (c : ChainRef) (w : Completion) : (s.complete c w).tableLaws C F := by
  unfold State.complete
  split
  · exact h
  · rename_i d _
    have posted := emit_kept h (.completion c.port (d.addr + 32) w)
    have noticed := kept_ite (c := d.notify = true) (notice_kept posted c.port .descriptorDone (.chain c.chain d.addr)) posted
    have told : ∀ {u : State}, u.tableLaws C F → (if w.status = .fetchTimeout then
        u.notice c.port .fetchTimeout (.chain c.chain d.addr) else u).tableLaws C F := fun hu =>
      kept_ite (notice_kept hu _ _ _) hu
    exact told (kept_ite (notice_kept (idleChain_kept noticed c) _ _ _)
      (kept_ite (idleChain_kept noticed c) (modChain_kept noticed c _)))

theorem refuse_kept (h : s.tableLaws C F) (a : At) (st : Status) : (s.refuse a st).tableLaws C F := complete_kept h _ _

theorem done_kept (h : s.tableLaws C F) (a : At) (r : Results) : (s.done a r).tableLaws C F := complete_kept h _ _

theorem freeLane_kept (h : s.tableLaws C F) (r : JobRef) : (s.freeLane r).tableLaws C F := setArbiter_kept h _

theorem leaveArbiter_kept (h : s.tableLaws C F) (c : ChainRef) : (s.leaveArbiter c).tableLaws C F := setArbiter_kept h _

theorem leaveStore_kept (h : s.tableLaws C F) (r : JobRef) : (s.leaveStore r).tableLaws C F := setStore_kept h _

theorem waitForLane_kept (h : s.tableLaws C F) (c : ChainRef) : (s.waitForLane c).tableLaws C F :=
  kept_of_frame h (waitForLane_frame s c) (by decide)

theorem leaveFeed_kept (h : s.tableLaws C F) (c : ChainRef) : (s.leaveFeed c).tableLaws C F :=
  leaveAppend_kept (setStager_kept (leaveArbiter_kept (freeLane_kept h (.chain c)) c) (by rfl)) c

theorem endFeed_kept (h : s.tableLaws C F) (c : ChainRef) (st : Status) (b : Bool) : (s.endFeed c st b).tableLaws C F := by
  unfold State.endFeed
  split
  · exact complete_kept (leaveFeed_kept h c) _ _
  · exact h

theorem endFeedOf_kept (h : s.tableLaws C F) (k : Nat) (st : Status) : (s.endFeedOf k st).tableLaws C F := by
  unfold State.endFeedOf
  split
  · exact endFeed_kept h _ _ _
  · exact h

/-! ## Descriptors and cell commands -/

theorem descriptor_kept (h : s.tableLaws C F) (a : At) (role : Role) {effect : State → State}
    (he : ∀ {u : State}, u.tableLaws C F → (effect u).tableLaws C F) : (s.descriptor a role effect).tableLaws C F := by
  unfold State.descriptor
  have held := modChain_kept h (refOf a) (fun h => { h with
    next := h.next + 64,
    desc := some { addr := h.next, notify := a.notify, haltOnError := a.haltOnError, job := none } })
  exact kept_ite (kept_ite (he held) (complete_kept held _ _)) h

theorem bufferDescriptor_kept (h : s.tableLaws C F) (a : At) (buf : Buf) (role : Role) {effect : State → State}
    (he : ∀ {u : State}, u.tableLaws C F → (effect u).tableLaws C F) :
    (s.bufferDescriptor a buf role effect).tableLaws C F :=
  descriptor_kept h a role fun hu => kept_ite (complete_kept hu _ _) (he hu)

theorem cellCommand_kept (h : s.tableLaws C F) (p : PortId) (word : CellWord) (test : Port → Option CellResult)
    {effect : State → State} (he : ∀ {u : State}, u.tableLaws C F → (effect u).tableLaws C F) :
    (s.cellCommand p word test effect).tableLaws C F := by
  unfold State.cellCommand
  refine kept_ite h ?_
  dsimp only
  have written := modPort_kept h p (fun q => { q with cell0 := word, cellCount := (q.cellCount + 1) % 256 })
  split
  · exact modPort_kept written _ _
  · exact he (modPort_kept written _ _)

/-! ## Sealing, closing and appends with an effect -/

theorem joinSeals_kept (h : s.tableLaws C F) (b : Nat) : (s.joinSeals b).tableLaws C F :=
  setStore_kept (setStager_kept h (by rfl)) _

theorem recomputeL_kept (h : s.tableLaws C F) : s.recomputeL.tableLaws C F := setSettings_kept h rfl

theorem handOff_kept (h : s.tableLaws C F) (k : Nat) : (s.handOff k).tableLaws C F := by
  unfold State.handOff
  split
  · split
    · split
      · rename_i hv _
        split
        · exact modFileCounts_kept (joinSeals_kept (setSettings_kept
            (resetBuf_kept (modStream_kept h _ _) hv) (by rfl)) _) k fun _ => ⟨rfl, rfl, rfl, rfl⟩
        · exact h
      · exact h
    · exact h
  · exact h

theorem freeFailed_kept (h : s.tableLaws C F) (k : Nat) : (s.freeFailed k).tableLaws C F := by
  unfold State.freeFailed
  split
  · dsimp only
    refine kept_ite h (recomputeL_kept (modFileCounts_kept ?_ k fun _ => ⟨rfl, rfl, rfl, rfl⟩))
    exact kept_foldl (fun s p hs => freeBuf_kept hs p.1) h _
  · exact h

/-- A STORE halt leaves a file's counts. -/
theorem storeHaltFile_counts (b : Bool) (f : FileEntry) : (storeHaltFile b f).1.presented = f.presented
    ∧ (storeHaltFile b f).1.accepted = f.accepted ∧ (storeHaltFile b f).1.duplicates = f.duplicates
    ∧ (storeHaltFile b f).1.dropped = f.dropped := by
  unfold storeHaltFile
  split
  · exact ⟨rfl, rfl, rfl, rfl⟩
  · exact ⟨rfl, rfl, rfl, rfl⟩
  · cases b <;> exact ⟨rfl, rfl, rfl, rfl⟩
  · exact ⟨rfl, rfl, rfl, rfl⟩
  · exact ⟨rfl, rfl, rfl, rfl⟩

theorem raiseStore_kept (h : s.tableLaws C F) (k : Nat) : (s.raiseStore k).tableLaws C F := by
  unfold State.raiseStore
  split
  · split
    · split
      · rename_i f hf
        refine endFeedOf_kept ?_ _ _
        have halted := fun b => modFile_kept (modStream_kept h k (fun st =>
          { st with sticky := raised st.sticky .store,
                    lastFault := some { kind := .store, fileNo := f.fileNo, place := none, record := none,
                                        foundFile := none } })) ‹Nat› (f := fun _ => (storeHaltFile b f).1)
          fun g hg hs => by
            obtain ⟨h1, h2, h3, h4⟩ := storeHaltFile_counts b f
            cases hf.symm.trans hg
            unfold FileEntry.summed at hs ⊢
            rw [h1, h2, h3, h4]; exact hs
        exact kept_ite (notice_kept (halted _) _ _ _) (halted _)
      · exact h
    · exact h
  · exact h

theorem delFile_kept (h : s.tableLaws C F) (k : Nat) : (s.setFiles (tdel s.files k)).tableLaws C F :=
  setFiles_kept h
    (fun hC => ⟨rising_tdel (h.form hC).1.files k, fun p hp => (h.form hC).1.fileEntries p (mem_of_mem_tdel hp)⟩)
    (fun hF j g hg => h.sums hF j g (mem_of_mem_tdel hg))

theorem delRecon_kept (h : s.tableLaws C F) (k : Nat) : (s.setRecons (tdel s.recons k)).tableLaws C F :=
  setRecons_kept h fun hC => rising_tdel (h.form hC).1.recons k

theorem closeFile_kept (h : s.tableLaws C F) (k : Nat) : (s.closeFile k).tableLaws C F := by
  unfold State.closeFile
  split
  · dsimp only
    refine kept_foldl (fun s c hs => ?_)
      (modStream_kept (delRecon_kept (delFile_kept (notice_kept h _ _ _) _) _) _ _) allChains
    split
    · exact kept_ite (setJob_kept hs _ _) hs
    · exact hs
  · exact h

theorem applyNote_kept (h : s.tableLaws C F) (note : AppendNote) (n : Nat) : (s.applyNote note n).tableLaws C F := by
  unfold State.applyNote
  split
  · exact h
  · exact modEntry_kept h _ id
  · exact joinSeals_kept h _
  · split
    · rename_i hv
      split
      · exact raiseStore_kept (resetBuf_kept h hv) _
      · exact h
    · exact h
  · exact closeFile_kept h _
  · exact modEntry_kept h _ id

theorem appendWith_kept (h : s.tableLaws C F) (body : JBody) (note : AppendNote) : (s.appendWith body note).tableLaws C F :=
  decideLow_kept (applyNote_kept (appendRaw_kept h body) note _)

theorem ask_kept (h : s.tableLaws C F) (body : JBody) (note : AppendNote) : (s.ask body note).tableLaws C F :=
  kept_ite (appendWith_kept h body note) (joinAppend_kept h _)

theorem handOver_kept (h : s.tableLaws C F) (k : Nat) : (s.handOver k).tableLaws C F := by
  unfold State.handOver
  split
  · split
    · exact kept_ite (ask_kept (setRecons_kept h fun hC => rising_tput (h.form hC).1.recons _ _) _ _) h
    · exact h
  · exact h

/-! ## Policy commit -/

theorem commitClass_kept (h : s.tableLaws C F) (i : Fin 8) : (s.commitClass i).tableLaws C F := by
  unfold State.commitClass
  split
  · exact h
  · exact appendRaw_kept (setSettings_kept h (by rfl)) _
  · exact appendRaw_kept h _

theorem signalScanner_kept (h : s.tableLaws C F) (d : Nat) : (s.signalScanner d).tableLaws C F :=
  kept_of_frame h (signalScanner_frame s d) (by decide)

theorem commitPolicy_kept (h : s.tableLaws C F) (d : Nat) : (s.commitPolicy d).tableLaws C F := by
  unfold State.commitPolicy
  have rows := kept_foldl (f := State.commitClass) (fun _ i hs => commitClass_kept hs i) h classes
  dsimp only
  refine signalScanner_kept (decideLow_kept (setClock_kept ?_ _)) d
  exact setRetention_kept rows _

theorem refreshCommit_kept (h : s.tableLaws C F) : s.refreshCommit.tableLaws C F := by
  unfold State.refreshCommit
  exact kept_ite (decideLow_kept (reserveWait_kept (setJournal_kept h (by rfl)))) h

theorem askCommit_kept (h : s.tableLaws C F) (d : Nat) : (s.askCommit d).tableLaws C F := by
  unfold State.askCommit
  exact kept_ite (refreshCommit_kept (setClock_kept h _))
    (kept_ite (commitPolicy_kept h d) (joinAppend_kept (setClock_kept h _) _))

/-! ## Taking a record -/

theorem countTaking_kept (h : s.tableLaws C F) (c : ChainRef) (f : Feed) (how : Taken) (d u : Nat) (b : Bool) :
    (s.countTaking c f how d u b).tableLaws C F :=
  setJob_kept (modFile_kept h f.file fun g _ hg => take_sums g how d u b hg) _ _

theorem openSegment_kept (h : s.tableLaws C F) (k n : Nat) : (s.openSegment k n).tableLaws C F := by
  unfold State.openSegment
  split
  · rename_i hb
    split
    · exact modFileCounts_kept (setBuf_kept (modStream_kept h _ _) fun _ => lowestFree_lt hb) k
        fun _ => ⟨rfl, rfl, rfl, rfl⟩
    · exact h
  · exact h

theorem appendRecord_kept (h : s.tableLaws C F) (k : Nat) (r : Rec) : (s.appendRecord k r).tableLaws C F := by
  unfold State.appendRecord
  split
  · split
    · split
      · rename_i hv
        split
        · exact modStream_kept (resetBuf_kept h hv) _ _
        · exact h
      · exact h
    · exact h
  · exact h

theorem takeMarked_kept (h : s.tableLaws C F) (c : ChainRef) (f : Feed) (w : WaitRec) :
    (s.takeMarked c f w).tableLaws C F := by
  unfold State.takeMarked
  split
  · split
    · refine decideLow_kept (countTaking_kept ?_ c f _ _ _ _)
      have marked := fun k v (b : Drop → JBody) l =>
        kept_foldl (f := fun s d => s.appendRaw (b d)) (fun _ d hs => appendRaw_kept hs (b d)) (modStream_kept h k v) l
      split
      · exact appendRecord_kept (kept_ite (openSegment_kept (marked _ _ _ _) _ _) (marked _ _ _ _)) _ _
      · exact marked _ _ _ _
    · exact h
  · exact h

theorem moveFeed_kept (h : s.tableLaws C F) (c : ChainRef) (n : Nat) : (s.moveFeed c n).tableLaws C F := by
  unfold State.moveFeed
  split
  · have moved := fun j => setChainState_kept (setJob_kept h c j) c .running
    exact kept_ite (endFeed_kept (moved _) _ _ _) (moved _)
  · exact h

theorem takeAndMove_kept (h : s.tableLaws C F) (c : ChainRef) (f : Feed) (w : WaitRec) :
    (s.takeAndMove c f w).tableLaws C F := moveFeed_kept (takeMarked_kept h c f w) _ _

theorem joinBufferWait_kept (h : s.tableLaws C F) (c : ChainRef) : (s.joinBufferWait c).tableLaws C F :=
  kept_ite h (setStager_kept h rfl)

theorem takeOrWait_kept (h : s.tableLaws C F) (c : ChainRef) (f : Feed) (w : WaitRec) :
    (s.takeOrWait c f w).tableLaws C F := by
  unfold State.takeOrWait
  have waits := setChainState_kept (setJob_kept h c (.feed { f with waiting := some w })) c .waiting
  have joined := kept_ite (c := (!w.needsBuf || s.bufferOpen c) = true) waits (joinBufferWait_kept waits c)
  exact kept_ite (takeAndMove_kept h c f w) (kept_ite joined (joinAppend_kept joined _))

end Sys2Proof.Machine
end

section
/-!
SUPPORT. The laws of the tables through jobs, the Journal's pages, the arbiter and start-up.
-/

namespace Sys2Proof.Machine

variable {C F : Prop} {s t : State}

/-! ## Segments under read and decode -/

theorem setPhase_kept (h : s.tableLaws C F) (r : JobRef) (p : SegPhase) : (s.setPhase r p).tableLaws C F :=
  kept_of_frame h (setPhase_frame s r p) (by decide)

theorem jobState_kept (h : s.tableLaws C F) (r : JobRef) (st : ChainState) : (s.jobState r st).tableLaws C F :=
  kept_of_frame h (jobState_frame s r st) (by decide)

theorem retire_kept (h : s.tableLaws C F) (x : Nat) (v : SegFields) : (s.retire x v).tableLaws C F :=
  decideLow_kept (setScanner_kept (modEntry_kept (appendRaw_kept h _) x id) _)

theorem retest_kept (h : s.tableLaws C F) (x : Nat) : (s.retest x).tableLaws C F := by
  unfold State.retest
  split
  · exact kept_ite (kept_ite (kept_ite h (retire_kept h _ _)) (modEntry_kept h x id)) h
  · exact h

theorem releasePin_kept (h : s.tableLaws C F) (x : Nat) : (s.releasePin x).tableLaws C F := by
  unfold State.releasePin
  split
  · exact setPhase_kept (modEntry_kept h x id) _ _
  · exact retest_kept (modEntry_kept h x fun hp => Nat.le_trans (Nat.sub_le _ _) hp) x

theorem startRead_kept (h : s.tableLaws C F) (r : JobRef) (x : Nat) (b : Bool) : (s.startRead r x b).tableLaws C F :=
  kept_of_frame h (startRead_frame s r x b) (by decide)

theorem goOnPinned_kept (h : s.tableLaws C F) (c : ChainRef) (x : Nat) : (s.goOnPinned c x).tableLaws C F :=
  kept_of_frame h (goOnPinned_frame s c x) (by decide)

/-- A pin is given below a count of four alone. -/
theorem askPin_kept (h : s.tableLaws C F) (c : ChainRef) (x : Nat) : (s.askPin c x).tableLaws C F := by
  unfold State.askPin
  split
  · rename_i hp; exact goOnPinned_kept (modEntry_kept h x (f := fun e => { e with pins := e.pins + 1 }) fun _ => hp) c x
  · exact setChainState_kept (setPhase_kept (modEntry_kept h x id) _ _) _ _

theorem dropSeg_kept (h : s.tableLaws C F) (r : JobRef) : (s.dropSeg r).tableLaws C F := by
  unfold State.dropSeg
  split
  · have left := leaveStore_kept (freeLane_kept h r) r
    have gone : (match r with
        | .chain c => ((s.freeLane r).leaveStore r).leaveArbiter c
        | .scrub => ((s.freeLane r).leaveStore r).setArbiter
            { ((s.freeLane r).leaveStore r).arbiter with scrubWaits := false }).tableLaws C F := by
      cases r
      · exact leaveArbiter_kept left _
      · exact setArbiter_kept left _
    dsimp only
    split
    · exact modEntry_kept gone _ id
    · exact releasePin_kept (modEntry_kept gone _ id) _
  · exact h

theorem search_kept (h : s.tableLaws C F) (c : ChainRef) : (s.search c).tableLaws C F := by
  unfold State.search
  split
  · dsimp only
    split
    · exact askPin_kept (setJob_kept h _ _) _ _
    · exact complete_kept h _ _
  · exact h

theorem cursorTest_kept (h : s.tableLaws C F) (c : ChainRef) (cur : Cursor) : (s.cursorTest c cur).tableLaws C F := by
  unfold State.cursorTest
  split
  · dsimp only
    split
    · exact kept_ite (kept_ite (askPin_kept (setJob_kept h _ _) _ _) (search_kept h c))
        (search_kept (setJob_kept h _ _) c)
    · exact search_kept (setJob_kept h _ _) c
  · exact h

theorem deliver_kept (h : s.tableLaws C F) (c : ChainRef) (r : Retrieval) (g : SegJob) (i : Nat) (x : Rec) :
    (s.deliver c r g i x).1.tableLaws C F := by
  unfold State.deliver
  split
  · exact h
  · have placed := fun o j => setJob_kept (emit_kept h o) c j
    dsimp only
    split
    · exact complete_kept (dropSeg_kept (placed _ _) _) _ _
    · exact placed _ _

theorem quarantine_kept (h : s.tableLaws C F) (x source serial : Nat) (finder : Finder) (v : Verdict)
    (port : Option PortId) : (s.quarantine x source serial finder v port).tableLaws C F :=
  noticeAll_kept (ask_kept (modEntry_kept h x id) _ _) _ _

theorem applyVerdict_kept (h : s.tableLaws C F) (x : Nat) (finder : Finder) (port : Option PortId) (b : Bool)
    (v : Verdict) : (s.applyVerdict x finder port b v).tableLaws C F := by
  unfold State.applyVerdict
  have noted := modEntry_kept h x (f := fun e => { e with verify := some (s.today, v.passes) }) id
  dsimp only
  split
  · exact kept_ite (kept_ite (ask_kept (modEntry_kept noted x id) _ _) (kept_ite (ask_kept noted _ _) noted))
      (kept_ite noted (quarantine_kept noted _ _ _ _ _ _))
  · exact noted

theorem scrubDone_kept (h : s.tableLaws C F) (f : PassCounts → PassCounts) : (s.scrubDone f).tableLaws C F := by
  unfold State.scrubDone
  exact kept_ite (ask_kept (setAudit_kept h _) _ _) (setAudit_kept h _)

theorem retrievalSegEnd_kept (h : s.tableLaws C F) (c : ChainRef) (r : Retrieval) (g : SegJob) (e : SegEnd) :
    (s.retrievalSegEnd c r g e).tableLaws C F := by
  unfold State.retrievalSegEnd
  have left := dropSeg_kept h (.chain c)
  dsimp only
  split
  · exact search_kept (setJob_kept left _ _) c
  · exact search_kept (setJob_kept (setAudit_kept left _) _ _) c

theorem verifySegEnd_kept (h : s.tableLaws C F) (c : ChainRef) (v : Verify) (e : SegEnd) :
    (s.verifySegEnd c v e).tableLaws C F := by
  unfold State.verifySegEnd
  dsimp only
  split
  · exact complete_kept (dropSeg_kept (applyVerdict_kept h _ _ _ _ _) _) _ _
  · exact h

theorem scrubSegEnd_kept (h : s.tableLaws C F) (g : SegJob) (e : SegEnd) : (s.scrubSegEnd g e).tableLaws C F := by
  unfold State.scrubSegEnd
  split
  · exact scrubDone_kept (dropSeg_kept (applyVerdict_kept h _ _ _ _ _) _) _
  · exact h

theorem segEnded_kept (h : s.tableLaws C F) (r : JobRef) (e : SegEnd) : (s.segEnded r e).tableLaws C F := by
  unfold State.segEnded
  split
  · split
    · split
      · exact retrievalSegEnd_kept h _ _ _ _
      · exact h
    · exact verifySegEnd_kept h _ _ _
    · exact h
  · split
    · exact scrubSegEnd_kept h _ _
    · exact h

theorem decodeStands_kept (h : s.tableLaws C F) (r : JobRef) (hd : SegHeader) (d : DecodeStep) :
    (s.decodeStands r hd d).tableLaws C F := by
  unfold State.decodeStands
  split
  · exact setPhase_kept h _ _
  · exact segEnded_kept h _ _
  · exact segEnded_kept h _ _

theorem walkOn_kept (h : s.tableLaws C F) (c : ChainRef) (w : CatalogueRead) : (s.walkOn c w).tableLaws C F := by
  unfold State.walkOn
  have shown : ∀ (b : Bool) (o : Output), (if b then s.emit o else s).tableLaws C F := fun _ o =>
    kept_ite (emit_kept h o) h
  exact kept_ite (complete_kept (shown _ _) _ _) (kept_ite (complete_kept (shown _ _) _ _) (setJob_kept (shown _ _) _ _))

theorem tick_kept (h : s.tableLaws C F) : s.tick.tableLaws C F := by
  unfold State.tick
  split
  · split
    · exact walkOn_kept h _ _
    · exact h
  · exact h

/-! ## The Journal's pages -/

theorem tellFile_kept (h : s.tableLaws C F) (v : SegFields) : (s.tellFile v).tableLaws C F := by
  unfold State.tellFile
  split
  · refine handOver_kept (modFileCounts_kept h _ fun _ => ?_) _
    exact ⟨rfl, rfl, rfl, rfl⟩
  · exact h

theorem sealDurable_kept (h : s.tableLaws C F) (x n : Nat) (b : Bool) : (s.sealDurable x n b).tableLaws C F := by
  unfold State.sealDurable
  split
  · rename_i v _
    have sealed := recomputeL_kept (modEntry_kept h x
      (f := fun e => { e with state := .sealed, sealJournal := none, holds := s.coverCount v }) id)
    exact kept_ite (kept_ite (tellFile_kept sealed v) sealed) h
  · exact h

theorem retireDurable_kept (h : s.tableLaws C F) (x n : Nat) : (s.retireDurable x n).tableLaws C F := by
  unfold State.retireDurable
  exact kept_ite (request_kept (modEntry_kept h x id) _ _) h

theorem reportDurable_kept (h : s.tableLaws C F) (e : JEntry) : (s.reportDurable e).tableLaws C F := by
  unfold State.reportDurable
  split
  · exact sealDurable_kept h _ _ _
  · exact sealDurable_kept h _ _ _
  · exact retireDurable_kept h _ _
  · exact retireDurable_kept h _ _
  · exact h

theorem advanceWrite_kept (h : s.tableLaws C F) : s.advanceWrite.tableLaws C F := setJournal_kept h rfl

theorem setPage_kept (h : s.tableLaws C F) (k : Nat) (e : List StoredEntry) : (s.setPage k e).tableLaws C F :=
  setFlash_kept h fun hC => ⟨(h.form hC).1.extents, rising_tput (h.form hC).1.pages k e⟩

theorem pageWritten_kept (h : s.tableLaws C F) (i : Fin 2) : (s.pageWritten i).tableLaws C F := by
  unfold State.pageWritten
  dsimp only
  refine decideLow_kept (reserveWait_kept (kept_foldl (fun _ e hs => reportDurable_kept hs e) ?_ _))
  refine pumpPages_kept (startPageWrite_kept (advanceWrite_kept ?_)) 6
  have paged := setPage_kept h s.journal.writePos (s.journal.bufs[i.val].entries.map (fun e => ⟨e, true⟩))
  exact setPageMap_kept paged fun hC => rising_tput (paged.form hC).1.pageMap _ _

theorem pageFailed_kept (h : s.tableLaws C F) (i : Fin 2) : (s.pageFailed i).tableLaws C F := by
  unfold State.pageFailed
  exact startPageWrite_kept (setPageState_kept (advanceWrite_kept (setJournal_kept (setPage_kept h _ _) (by rfl))) _ _)

theorem eraseJournal_kept (h : s.tableLaws C F) (x : Fin 4) : (s.eraseJournal x).tableLaws C F :=
  request_kept (setJournal_kept h (by rfl)) _ _

theorem eraseReleased_kept (h : s.tableLaws C F) : s.eraseReleased.tableLaws C F :=
  kept_foldl (fun _ x hs => kept_ite (eraseJournal_kept hs x) hs) h four

theorem rising_outsideExtent {α : Type} {u : Table α} (h : Table.rising u = true) (x : Fin 4) :
    Table.rising (outsideExtent u x) = true := rising_filter h _

theorem journalErased_kept (h : s.tableLaws C F) (x : Fin 4) : (s.journalErased x).tableLaws C F := by
  unfold State.journalErased
  dsimp only
  have erased := setFlash_kept h (v := { s.flash with pages := outsideExtent s.flash.pages x }) fun hC =>
    ⟨(h.form hC).1.extents, rising_outsideExtent (h.form hC).1.pages x⟩
  exact startPageWrite_kept (setPageMap_kept erased fun hC => rising_outsideExtent (erased.form hC).1.pageMap x)

theorem readPage_kept (h : s.tableLaws C F) (c : ChainRef) (j : JournalRead) (slot : Nat) (b : Bool) :
    (s.readPage c j slot b).tableLaws C F := kept_of_frame h (readPage_frame s c j slot b) (by decide)

theorem readOn_kept (h : s.tableLaws C F) (n : Nat) (c : ChainRef) (j : JournalRead)
    (page : Option (Nat × List StoredEntry)) : (State.readOn n s c j page).tableLaws C F := by
  induction n generalizing s j with
  | zero => exact h
  | succ n ih =>
    unfold State.readOn
    refine kept_ite (complete_kept h _ _) (kept_ite (complete_kept h _ _) ?_)
    dsimp only
    split
    · exact ih (emit_kept h _) _
    · exact kept_ite (ih (emit_kept h _) _) (readPage_kept h _ _ _ _)
    · exact readPage_kept h _ _ _ _

theorem serveRecord_kept (h : s.tableLaws C F) (c : ChainRef) : (s.serveRecord c).tableLaws C F := by
  unfold State.serveRecord
  split
  · split
    · exact kept_ite (nextAppend_kept (joinBufferWait_kept h c))
        (nextAppend_kept (takeAndMove_kept (popAppend_kept (setStager_kept h (by rfl))) _ _ _))
    · exact h
  · exact h

theorem serveAppend_kept (h : s.tableLaws C F) : s.serveAppend.tableLaws C F := by
  unfold State.serveAppend
  split
  · refine kept_ite ?_ h
    split
    · exact nextAppend_kept (appendWith_kept (popAppend_kept h) _ _)
    · exact serveRecord_kept h _
    · exact nextAppend_kept (commitPolicy_kept (popAppend_kept h) _)
  · exact h

/-! ## The end of a chain, and the Service Arbiter -/

theorem stopJob_kept (h : s.tableLaws C F) (c : ChainRef) : (s.stopJob c).tableLaws C F := by
  unfold State.stopJob
  split
  · exact endFeed_kept h _ _ _
  · exact complete_kept (dropSeg_kept h _) _ _
  · exact complete_kept (dropSeg_kept h _) _ _
  · exact complete_kept (leaveStore_kept h _) _ _
  · exact complete_kept h _ _
  · exact complete_kept h _ _

theorem resetJob_kept (h : s.tableLaws C F) (c : ChainRef) : (s.resetJob c).tableLaws C F := by
  unfold State.resetJob
  dsimp only
  refine modChain_kept ?_ _ _
  split
  · exact leaveFeed_kept h c
  · exact dropSeg_kept h _
  · exact dropSeg_kept h _
  · exact leaveStore_kept h _
  · exact h
  · exact h

theorem fetchFails_kept (h : s.tableLaws C F) (c : ChainRef) : (s.fetchFails c).tableLaws C F := by
  unfold State.fetchFails
  exact kept_ite (notice_kept (idleChain_kept h c) _ _ _) h

theorem bufferReadFails_kept (h : s.tableLaws C F) (c : ChainRef) : (s.bufferReadFails c).tableLaws C F := by
  unfold State.bufferReadFails
  split
  · exact kept_ite (endFeed_kept h _ _ _) h
  · exact complete_kept (dropSeg_kept h _) _ _
  · exact h

theorem portReset_kept (h : s.tableLaws C F) (p : PortId) : (s.portReset p).tableLaws C F := by
  unfold State.portReset
  dsimp only
  refine orphanFiles_kept (modPort_kept ?_ p _) p
  exact kept_foldl (f := fun s c => s.resetJob ⟨p, c⟩) (fun _ c hs => resetJob_kept hs ⟨p, c⟩) (modPort_kept h p _) four

theorem decodeGranted_kept (h : s.tableLaws C F) (r : JobRef) : (s.decodeGranted r).tableLaws C F := by
  unfold State.decodeGranted
  split
  · split
    · exact decodeStands_kept (jobState_kept h _ _) _ _ _
    · exact h
  · exact h

theorem granted_kept (h : s.tableLaws C F) (c : ChainRef) : (s.granted c).tableLaws C F := by
  unfold State.granted
  split
  · unfold State.feedGranted
    exact kept_ite (setChainState_kept (setJob_kept h _ _) _ _) (endFeed_kept h _ _ _)
  · exact decodeGranted_kept h _

theorem grantLane_kept (h : s.tableLaws C F) : s.grantLane.tableLaws C F := by
  unfold State.grantLane
  split
  · split
    · have charged := fun p n => kept_of_frame h (charge_frame s p n) (by decide)
      exact granted_kept (setArbiter_kept (leaveArbiter_kept (charged _ _) _) _) _
    · exact kept_ite (decodeGranted_kept (setArbiter_kept (setArbiter_kept h _) _) _) h
  · exact h

/-! ## Start-up -/

theorem retireExtent_kept (h : s.tableLaws C F) (x : Nat) : (s.retireExtent x).tableLaws C F :=
  setEntry_kept (setSettings_kept h (by rfl)) x fun _ => by decide

theorem restoredOne_kept (h : s.tableLaws C F) (id : SettingsId) : (s.restoredOne id).tableLaws C F :=
  setBootCounts_kept (setSettings_kept h (by rfl)) rfl rfl

theorem restoreRow_kept (h : s.tableLaws C F) (i : Fin 8) : (s.restoreRow i).tableLaws C F := by
  unfold State.restoreRow
  have put := fun n cause => ask_kept (restoredOne_kept (setSettings_kept h
    (v := { s.settings with rows := vset s.settings.rows i n }) rfl) (.row i)) (.policyRestored i.val n cause) .plain
  exact kept_ite (put _ _) (kept_ite (put _ _) h)

/-- Holds put into slots of the table keep its form. -/
def Settings.holdsFormed (t : Table Hold) : Prop := Table.rising t = true ∧ ∀ p ∈ t, p.1 < 64

theorem holdsFormed_tput {t : Table Hold} (h : Settings.holdsFormed t) {k : Nat} (hk : k < 64) (v : Hold) :
    Settings.holdsFormed (tput t k v) := ⟨rising_tput h.1 k v, keys_tput h.2 hk⟩

theorem holdsFormed_keepIds (g : Settings) (d : Nat) {holds : Table Hold} (h : Settings.holdsFormed holds) :
    Settings.holdsFormed (g.keepIds d holds) := by
  unfold Settings.keepIds
  refine List.foldlRecOn holdSlots _ h fun t ht k hk => ?_
  split
  · split
    · exact holdsFormed_tput ht (List.mem_range.mp hk) _
    · exact ht
  · exact ht

theorem holdsFormed_giveIds (g : Settings) (d : Nat) {holds : Table Hold} (h : Settings.holdsFormed holds) (last : Nat) :
    Settings.holdsFormed (g.giveIds d holds last).1 := by
  unfold Settings.giveIds
  refine List.foldlRecOn (motive := fun a : Table Hold × Nat => Settings.holdsFormed a.1) holdSlots _ h fun t ht k hk => ?_
  dsimp only
  split
  · exact holdsFormed_tput ht (List.mem_range.mp hk) _
  · exact ht

theorem restoreHolds_kept (h : s.tableLaws C F) : s.restoreHolds.tableLaws C F := by
  unfold State.restoreHolds
  dsimp only
  refine setBootCounts_kept (setRetention_kept (setHolds_kept h fun hC => ?_) _) rfl rfl
  refine holdsFormed_giveIds _ _ (holdsFormed_keepIds _ _ ⟨rising_filter (h.form hC).1.holds _, fun p hp => ?_⟩) _
  exact (h.form hC).1.holdSlots p (List.mem_of_mem_filter hp)

/-- The pages found stand in the order of the scanned slots. -/
theorem foundPages_keys (scanned : Table (List StoredEntry)) :
    (foundPages scanned).map Prod.fst |>.Sublist (scanned.map Prod.fst) := by
  unfold foundPages
  have key : ∀ (l : Table (List StoredEntry)) (acc : Table (List JEntry) × List Nat),
      ((l.foldl (fun (acc : Table (List JEntry) × List Nat) p =>
        let fresh := freshEntries acc.2 p.2
        (if fresh.isEmpty then acc.1 else acc.1 ++ [(p.1, fresh)], fresh.map (·.serial) ++ acc.2)) acc).1.map
          Prod.fst).Sublist (acc.1.map Prod.fst ++ l.map Prod.fst) := by
    intro l
    induction l with
    | nil => intro acc; simp
    | cons p l ih =>
      intro acc
      rw [List.foldl_cons]
      refine (ih _).trans ?_
      dsimp only
      split
      · exact (List.Sublist.refl _).append (List.sublist_cons_self _ _)
      · simp
  simpa using key scanned ([], [])

theorem rising_foundPages {scanned : Table (List StoredEntry)} (h : Table.rising scanned = true) :
    Table.rising (foundPages scanned) = true := by
  rw [rising_iff_pairwise] at h ⊢
  exact h.sublist (foundPages_keys scanned)

theorem scanJournal_kept (h : s.tableLaws C F) {pages : Table (List JEntry)} (hp : C → Table.rising pages = true) :
    (s.scanJournal pages).tableLaws C F := by
  unfold State.scanJournal
  dsimp only
  refine kept_foldl (fun _ x hs => kept_ite (eraseJournal_kept hs x) hs) (setPageMap_kept ?_ fun hC => rising_map (hp hC) _) four
  refine setBootCounts_kept ?_ rfl rfl
  exact kept_ite (restoredOne_kept (setSettings_kept h (by rfl)) _) h

theorem scanSettings_kept (h : s.tableLaws C F) (pages : Table (List JEntry)) : (s.scanSettings pages).tableLaws C F := by
  unfold State.scanSettings
  dsimp only
  refine setClock_kept ?_ _
  have day := kept_ite (c := s.settings.isDamaged .savedDay = true)
    (restoredOne_kept (setSettings_kept h (v := { s.settings with savedDay := dayFromJournal (foundEntries pages) }) rfl)
      .savedDay) h
  exact kept_ite (restoredOne_kept (setSettings_kept day (by rfl)) _) day

theorem nextHeader_kept (h : s.tableLaws C F) (ch : Channel) (x : Nat) : (s.nextHeader ch x).tableLaws C F := by
  unfold State.nextHeader
  have next := fun y => setBootCounts_kept h (v := { s.boot with nextHeader := vset s.boot.nextHeader ch y }) rfl rfl
  exact kept_ite (request_kept (next _) _ _) (next _)

theorem recoverSeal_kept (h : s.tableLaws C F) (p : Nat × SegHeader) : (s.recoverSeal p).tableLaws C F :=
  ask_kept (setBootCounts_kept (setEntry_kept h p.1 fun _ => Nat.zero_le 4) (by rfl) (by rfl)) _ _

theorem eraseIncomplete_kept (h : s.tableLaws C F) (x : Nat) : (s.eraseIncomplete x).tableLaws C F :=
  request_kept (setBootCounts_kept (setEntry_kept h x fun _ => Nat.zero_le 4) (by rfl) (by rfl)) _ _

theorem rebuildCounter_kept (h : s.tableLaws C F) (l : List JEntry) : (s.rebuildCounter l).tableLaws C F := by
  unfold State.rebuildCounter
  exact kept_ite (restoredOne_kept (setSettings_kept h (by rfl)) _) h

theorem becomeReady_kept (h : s.tableLaws C F) : s.becomeReady.tableLaws C F := by
  unfold State.becomeReady
  have ready := setClock_kept (kept_of_frame h (setPower_frame s .ready) (by decide))
  exact kept_ite (noticeAll_kept (ready _) _ _) (ready _)

theorem rebuildEnd_kept (h : s.tableLaws C F) : s.rebuildEnd.tableLaws C F := by
  unfold State.rebuildEnd
  dsimp only
  refine becomeReady_kept (ask_kept (recomputeL_kept ?_) _ _)
  have counted : ∀ {u : State}, u.tableLaws C F →
      (if u.settings.isDamaged .lastSeal then u.restoredOne .lastSeal else u).tableLaws C F := fun hu =>
    kept_ite (restoredOne_kept hu _) hu
  refine counted (rebuildCounter_kept ?_ _)
  refine kept_foldl (fun _ x hs => eraseIncomplete_kept hs x) (kept_foldl (fun _ p hs => recoverSeal_kept hs p) ?_ _) _
  exact kept_foldl (fun _ p hs => setEntry_kept hs p.1 fun _ => Nat.zero_le 4) h _

theorem beginRebuild_kept (h : s.tableLaws C F) : s.beginRebuild.tableLaws C F := by
  unfold State.beginRebuild
  dsimp only
  have ended : ∀ {u : State}, u.tableLaws C F → (if u.boot.headersDone then u.rebuildEnd else u).tableLaws C F :=
    fun hu => kept_ite (rebuildEnd_kept hu) hu
  refine ended (kept_foldl (fun _ ch hs => nextHeader_kept hs ch _) ?_ four)
  exact kept_foldl (fun _ x hs => setEntry_kept hs x fun _ => by decide) (setBootCounts_kept h (by rfl) (by rfl)) _

theorem scanEnd_kept (h : s.tableLaws C F) : s.scanEnd.tableLaws C F := by
  unfold State.scanEnd
  dsimp only
  refine beginRebuild_kept (restoreHolds_kept (kept_foldl (fun _ i hs => restoreRow_kept hs i) ?_ classes))
  refine setJournal_kept (scanSettings_kept (scanJournal_kept h fun hC => ?_) _) rfl
  exact rising_foundPages (h.form hC).1.scanned

theorem scanned_kept (h : s.tableLaws C F) (slot : Nat) (content : SlotContent) : (s.scanned slot content).tableLaws C F := by
  unfold State.scanned
  dsimp only
  have noted : (match content with
      | .erased => s
      | .page entries => s.setBoot { s.boot with scanned := tput s.boot.scanned slot entries }).tableLaws C F := by
    cases content
    · exact h
    · exact setBoot_kept h fun hC => ⟨rising_tput (h.form hC).1.scanned slot _, (h.form hC).1.headers⟩
  exact kept_ite (request_kept (setBootCounts_kept noted (by rfl) (by rfl)) _ _) (scanEnd_kept noted)

end Sys2Proof.Machine
end

section
/-!
SUPPORT. The laws of the tables through every command and every step (O53, O54).
-/

namespace Sys2Proof.Machine

variable {C F : Prop} {s t : State}

/-! ## The descriptor commands -/

theorem writePlaces_kept (h : s.tableLaws C F) (p : PortId) (addr i : Nat) (l : List Place) :
    (s.writePlaces p addr i l).tableLaws C F := by
  induction l generalizing s i with
  | nil => exact h
  | cons x l ih => exact ih (emit_kept h _) _

theorem openStream_kept (h : s.tableLaws C F) (a : At) (source cls : Nat) (fill : Byte) (mask : BitVec 8) (first : Seq)
    (widths force : Three) (samples tolerance : Nat) :
    (s.openStream a source cls fill mask first widths force samples tolerance).tableLaws C F := by
  unfold State.openStream
  refine kept_ite (refuse_kept h _ _) (kept_ite (refuse_kept h _ _) ?_)
  split
  · exact refuse_kept h _ _
  · rename_i hk
    exact done_kept (setStreams_kept h fun hC => ⟨rising_tput (h.form hC).1.streams _ _,
      keys_tput (h.form hC).1.streamSlots (lowestFree_lt hk)⟩) _ _

theorem closeStream_kept (h : s.tableLaws C F) (a : At) (source : Nat) : (s.closeStream a source).tableLaws C F := by
  unfold State.closeStream
  split
  · exact refuse_kept h _ _
  · exact kept_ite (refuse_kept h _ _) (done_kept (setStreams_kept h fun hC => ⟨rising_tdel (h.form hC).1.streams _,
      fun p hp => (h.form hC).1.streamSlots p (mem_of_mem_tdel hp)⟩) _ _)

theorem snapshot_kept (h : s.tableLaws C F) (a : At) (buf : Buf) (source : Nat) : (s.snapshot a buf source).tableLaws C F := by
  unfold State.snapshot
  refine kept_ite (refuse_kept h _ _) ?_
  split
  · exact refuse_kept h _ _
  · exact complete_kept (modStream_kept (emit_kept h _) _ _) _ _

theorem maskStream_kept (h : s.tableLaws C F) (a : At) (source : Nat) (mask : BitVec 8) (clear : Bool) :
    (s.maskStream a source mask clear).tableLaws C F := by
  unfold State.maskStream
  split
  · exact refuse_kept h _ _
  · exact done_kept (modStream_kept h _ _) _ _

theorem setWidths_kept (h : s.tableLaws C F) (a : At) (source : Nat) (force : Three) (tolerance : Nat) :
    (s.setWidths a source force tolerance).tableLaws C F := by
  unfold State.setWidths
  refine kept_ite (refuse_kept h _ _) ?_
  split
  · exact refuse_kept h _ _
  · exact done_kept (modStream_kept h _ _) _ _

theorem readGaps_kept (h : s.tableLaws C F) (a : At) (buf : Buf) (source : Nat) : (s.readGaps a buf source).tableLaws C F := by
  unfold State.readGaps
  refine kept_ite (refuse_kept h _ _) ?_
  split
  · exact refuse_kept h _ _
  · exact complete_kept (writePlaces_kept h _ _ _ _) _ _

theorem openFile_kept (h : s.tableLaws C F) (a : At) (source fileNo minutes : Nat) :
    (s.openFile a source fileNo minutes).tableLaws C F := by
  unfold State.openFile
  refine kept_ite (refuse_kept h _ _) ?_
  split
  · exact refuse_kept h _ _
  · refine kept_ite (refuse_kept h _ _) ?_
    split
    · exact refuse_kept h _ _
    · rename_i hk
      refine done_kept (modStream_kept (setFiles_kept h (fun hC => ⟨rising_tput (h.form hC).1.files _ _,
        keys_tput (h.form hC).1.fileEntries (lowestFree_lt hk)⟩) fun hF j g hg => ?_) _ _) _ _
      rcases mem_tput hg with e | hm
      · cases e; rfl
      · exact h.sums hF j g hm

theorem takeFeed_kept (h : s.tableLaws C F) (a : At) (buf : Buf) (source fileNo : Nat) :
    (s.takeFeed a buf source fileNo).tableLaws C F := by
  unfold State.takeFeed
  refine kept_ite (refuse_kept h _ _) ?_
  split
  · exact refuse_kept h _ _
  · exact kept_ite (waitForLane_kept (setJob_kept h _ _) _) (refuse_kept h _ _)

theorem freshAttempts_kept (h : s.tableLaws C F) (b : Nat) : (s.freshAttempts b).tableLaws C F := by
  unfold State.freshAttempts
  split
  · rename_i hv
    split
    · exact joinSeals_kept (resetBuf_kept h hv) _
    · exact h
  · exact h

theorem resumeFile_kept (h : s.tableLaws C F) (a : At) (source fileNo : Nat) : (s.resumeFile a source fileNo).tableLaws C F := by
  unfold State.resumeFile
  split
  · exact refuse_kept h _ _
  · rename_i k f _
    have resumed := modFileCounts_kept h k (f := FileEntry.resumed) fun _ => ⟨rfl, rfl, rfl, rfl⟩
    exact kept_ite (handOver_kept (done_kept (kept_ite
      (kept_foldl (fun _ b hs => freshAttempts_kept hs b) resumed _) resumed) _ _) _) (refuse_kept h _ _)

theorem discardOpen_kept (h : s.tableLaws C F) (k : Nat) : (s.discardOpen k).tableLaws C F := by
  unfold State.discardOpen
  split
  · refine modFileCounts_kept (freeBuf_kept h _) k fun _ => ?_
    exact ⟨rfl, rfl, rfl, rfl⟩
  · exact h

theorem closingFile_kept (h : s.tableLaws C F) (k : Nat) (cause : ClosingCause) :
    (s.modFile k (FileEntry.closing cause)).tableLaws C F := modFileCounts_kept h k fun _ => ⟨rfl, rfl, rfl, rfl⟩

theorem abandonFile_kept (h : s.tableLaws C F) (a : At) (source fileNo : Nat) :
    (s.abandonFile a source fileNo).tableLaws C F := by
  unfold State.abandonFile
  split
  · exact refuse_kept h _ _
  · rename_i k f _
    have closing := done_kept (closingFile_kept (freeFailed_kept (discardOpen_kept h k) k) k .abandon) a .none
    exact kept_ite (handOver_kept (endFeedOf_kept closing _ _) _) (refuse_kept h _ _)

theorem adoptFile_kept (h : s.tableLaws C F) (a : At) (source fileNo : Nat) : (s.adoptFile a source fileNo).tableLaws C F := by
  unfold State.adoptFile
  split
  · exact refuse_kept h _ _
  · refine kept_ite (done_kept (modFileCounts_kept h _ fun _ => ?_) _ _) (refuse_kept h _ _)
    exact ⟨rfl, rfl, rfl, rfl⟩

theorem beginWalkOf_kept (h : s.tableLaws C F) (a : At) (buf : Buf) (start : Nat) (source : Option Nat)
    (filter : Option EntryState) : (s.beginWalkOf a buf start source filter).tableLaws C F := by
  unfold State.beginWalkOf
  exact kept_ite (refuse_kept h _ _) (setJob_kept h _ _)

theorem catalogueRead_kept (h : s.tableLaws C F) (a : At) (buf : Buf) (start : Nat) (source st : Option Nat) :
    (catalogueRead a buf start source st s).tableLaws C F := by
  refine bufferDescriptor_kept h a buf _ fun hu => ?_
  split
  · split
    · exact beginWalkOf_kept hu _ _ _ _ _
    · exact refuse_kept hu _ _
  · exact beginWalkOf_kept hu _ _ _ _ _

theorem beginRetrieval_kept (h : s.tableLaws C F) (at_ : At) (buf : Buf) (source : Option Nat) (a b : Nat)
    (cursor : Option Cursor) : (s.beginRetrieval at_ buf source a b cursor).tableLaws C F := by
  unfold State.beginRetrieval
  refine kept_ite (refuse_kept h _ _) ?_
  have begun : ∀ {u : State} (j : Job), u.tableLaws C F → (match cursor with
      | some cur => (u.setJob (refOf at_) j).cursorTest (refOf at_) cur
      | none => (u.setJob (refOf at_) j).search (refOf at_)).tableLaws C F := fun j hu => by
    split
    · exact cursorTest_kept (setJob_kept hu _ _) _ _
    · exact search_kept (setJob_kept hu _ _) _
  exact begun _ (kept_ite h (modPort_kept h _ _))

theorem setProjection_kept (h : s.tableLaws C F) (a : At) (p : Projection) : (s.setProjection a p).tableLaws C F := by
  unfold State.setProjection
  exact kept_ite (refuse_kept h _ _) (kept_ite (done_kept (modPort_kept h _ _) _ _) (refuse_kept h _ _))

theorem setStaged_kept (h : s.tableLaws C F) (i : Fin 8) (g : Staged) : (s.setStaged i g).tableLaws C F :=
  setRetention_kept h _

theorem proposePolicy_kept (h : s.tableLaws C F) (a : At) (cls days : Nat) : (s.proposePolicy a cls days).tableLaws C F := by
  unfold State.proposePolicy
  split
  · exact kept_ite (refuse_kept h _ _) (complete_kept (refreshCommit_kept (setStaged_kept h _ _)) _ _)
  · exact refuse_kept h _ _

theorem endorseRow_kept (h : s.tableLaws C F) (a : At) (i : Fin 8) (days : Nat) : (s.endorseRow a i days).tableLaws C F := by
  unfold State.endorseRow
  split
  · exact refuse_kept h _ _
  · exact kept_ite (refuse_kept h _ _) (kept_ite (done_kept (setStaged_kept h _ _) _ _) (complete_kept h _ _))
  · exact kept_ite (refuse_kept h _ _) (kept_ite (done_kept h _ _) (complete_kept h _ _))

theorem endorsePolicy_kept (h : s.tableLaws C F) (a : At) (cls days : Nat) : (s.endorsePolicy a cls days).tableLaws C F := by
  unfold State.endorsePolicy
  split
  · exact kept_ite (refuse_kept h _ _) (endorseRow_kept h _ _ _)
  · exact refuse_kept h _ _

/-- Every entry changed keeps the form where none becomes FREE and none gains pins. -/
theorem mapCatalogue_kept (h : s.tableLaws C F) {f : Entry → Entry} (hp : ∀ e, (f e).pins = e.pins)
    (hn : ∀ e, e ≠ Entry.free → f e ≠ Entry.free) :
    (s.setCatalogue (s.catalogue.map (fun p => (p.1, f p.2)))).tableLaws C F := by
  refine setCatalogue_kept h fun hC => ⟨rising_map (h.form hC).1.catalogue f, fun p hm => ?_⟩
  obtain ⟨q, hq, rfl⟩ := List.mem_map.mp hm
  exact ⟨((h.form hC).1.listed q hq).1, hn _ ((h.form hC).1.listed q hq).2, by rw [hp]; exact (h.form hC).2 q hq⟩

/-- An entry with segment fields is not the FREE entry. -/
theorem ne_free_of_covers {hold : Hold} {e : Entry} (hc : hold.coversEntry e = true) : e.seg ≠ none := by
  unfold Hold.coversEntry at hc
  intro hn
  simp [hn] at hc

theorem placedOn_ne_free (hold : Hold) {e : Entry} (he : e ≠ Entry.free) : hold.placedOn e ≠ Entry.free := by
  unfold Hold.placedOn
  split
  · rename_i hc; exact fun e' => ne_free_of_covers hc.1 (congrArg Entry.seg e')
  · exact he

theorem liftedFrom_ne_free (hold : Hold) {e : Entry} (he : e ≠ Entry.free) : hold.liftedFrom e ≠ Entry.free := by
  unfold Hold.liftedFrom
  split
  · rename_i hc; exact fun e' => ne_free_of_covers hc.1 (congrArg Entry.seg e')
  · exact he

theorem placedOn_pins (hold : Hold) (e : Entry) : (hold.placedOn e).pins = e.pins := by
  unfold Hold.placedOn; split <;> rfl

theorem liftedFrom_pins (hold : Hold) (e : Entry) : (hold.liftedFrom e).pins = e.pins := by
  unfold Hold.liftedFrom; split <;> rfl

theorem takeHold_kept (h : s.tableLaws C F) (at_ : At) (source : Option Nat) (a b : Nat) :
    (s.takeHold at_ source a b).tableLaws C F := by
  unfold State.takeHold
  refine kept_ite (refuse_kept h _ _) ?_
  split
  · exact refuse_kept h _ _
  · rename_i hk
    refine kept_ite (refuse_kept h _ _) (done_kept (append_kept ?_ _) _ _)
    refine mapCatalogue_kept (setRetention_kept (setHolds_kept h fun hC => ?_) _) (placedOn_pins _)
      fun _ => placedOn_ne_free _
    exact ⟨rising_tput (h.form hC).1.holds _ _, keys_tput (h.form hC).1.holdSlots (lowestFree_lt hk)⟩

theorem liftHold_kept {acc : State × Nat × Nat} (h : acc.1.tableLaws C F) (port : PortId) (p : Nat × Hold) :
    (liftHold port acc p).1.tableLaws C F := by
  unfold liftHold
  have lifted := mapCatalogue_kept h (liftedFrom_pins p.2) fun _ => liftedFrom_ne_free p.2
  exact append_kept (setHolds_kept lifted fun hC => ⟨rising_tdel (h.form hC).1.holds _,
    fun q hq => (h.form hC).1.holdSlots q (mem_of_mem_tdel hq)⟩) _

theorem releaseHolds_kept (h : s.tableLaws C F) (a : At) (id : Nat) : (s.releaseHolds a id).tableLaws C F := by
  unfold State.releaseHolds
  refine kept_ite (refuse_kept h _ _) (kept_ite (refuse_kept h _ _) (done_kept ?_ _ _))
  exact List.foldlRecOn (motive := fun acc : State × Nat × Nat => acc.1.tableLaws C F) _ _ h
    fun acc ha p _ => liftHold_kept ha a.port p

theorem shortenDeadlines_kept (h : s.tableLaws C F) (n : Nat) : (s.shortenDeadlines n).tableLaws C F := by
  refine mapFiles_kept h (f := fun f => if f.deadlineRuns then { f with deadline := f.deadline - n } else f) fun g => ?_
  split <;> exact ⟨rfl, rfl, rfl, rfl⟩

theorem dayRoll_kept (h : s.tableLaws C F) (d : Nat) : (s.dayRoll d).tableLaws C F :=
  askCommit_kept (noticeAll_kept (setSettings_kept h (by rfl)) _ _) d

theorem setClockValue_kept (h : s.tableLaws C F) (a : At) (value : Nat) : (s.setClockValue a value).tableLaws C F := by
  unfold State.setClockValue
  refine kept_ite (refuse_kept h _ _) (kept_ite (refuse_kept h _ _) ?_)
  unfold State.moveClock
  have moved := fun v b n => shortenDeadlines_kept (append_kept (setClock_kept h v) b) n
  exact complete_kept (kept_ite (moved _ _ _) (dayRoll_kept (moved _ _ _) _)) _ _

theorem beginVerify_kept (h : s.tableLaws C F) (a : At) (x : Nat) (b : Bool) : (s.beginVerify a x b).tableLaws C F := by
  unfold State.beginVerify
  refine kept_ite (refuse_kept h _ _) ?_
  split
  · exact kept_ite (askPin_kept (setJob_kept h _ _) _ _) (refuse_kept h _ _)
  · exact refuse_kept h _ _

theorem setScrub_kept (h : s.tableLaws C F) (a : At) (b : Bool) (start : Nat) : (s.setScrub a b start).tableLaws C F := by
  unfold State.setScrub
  have ended : s.endScrub.tableLaws C F := setAudit_kept (dropSeg_kept h _) _
  exact kept_ite (refuse_kept h _ _) (done_kept (kept_ite (setAudit_kept ended _) (setAudit_kept ended _)) _ _)

theorem discardDamaged_kept (h : s.tableLaws C F) (a : At) (x : Nat) : (s.discardDamaged a x).tableLaws C F := by
  unfold State.discardDamaged
  refine kept_ite (refuse_kept h _ _) (kept_ite ?_ (refuse_kept h _ _))
  split
  · exact kept_ite (refuse_kept h _ _) (done_kept (decideLow_kept (modEntry_kept (appendRaw_kept h _) x id)) _ _)
  · exact refuse_kept h _ _

theorem takeRelease_kept (h : s.tableLaws C F) (a : At) (serial : Nat) : (s.takeRelease a serial).tableLaws C F := by
  unfold State.takeRelease
  have released : ∀ n, (s.release n).tableLaws C F := fun n => by
    unfold State.release
    exact decideLow_kept (reserveWait_kept (eraseReleased_kept (setSettings_kept h (by rfl))))
  exact complete_kept (kept_ite h (released _)) _ _

theorem readStatus_kept (h : s.tableLaws C F) (a : At) (buf : Buf) : (s.readStatus a buf).tableLaws C F := by
  unfold State.readStatus
  exact kept_ite (refuse_kept h _ _) (complete_kept (writePlaces_kept h _ _ _ _) _ _)

theorem writeIdent_kept (h : s.tableLaws C F) (a : At) (buf : Buf) : (s.writeIdent a buf).tableLaws C F := by
  unfold State.writeIdent
  exact kept_ite (refuse_kept h _ _) (complete_kept (emit_kept h _) _ _)

theorem jumpTo_kept (h : s.tableLaws C F) (a : At) (target : Nat) : (s.jumpTo a target).tableLaws C F := by
  unfold State.jumpTo
  exact kept_ite (done_kept (modChain_kept h _ _) _ _) (refuse_kept h _ _)

theorem haltChain_kept (h : s.tableLaws C F) (a : At) : (s.haltChain a).tableLaws C F := by
  unfold State.haltChain
  have halted := idleChain_kept (done_kept h a .none) (refOf a)
  exact kept_ite (notice_kept halted _ _ _) halted

/-- Every descriptor command keeps the laws of the tables. -/
theorem runDescriptor_kept (h : s.tableLaws C F) (i : Instr) : (runDescriptor i s).tableLaws C F := by
  unfold runDescriptor
  split
  · exact descriptor_kept h _ _ fun hu => openStream_kept hu _ _ _ _ _ _ _ _ _ _
  · exact descriptor_kept h _ _ fun hu => closeStream_kept hu _ _
  · exact descriptor_kept h _ _ fun hu => openFile_kept hu _ _ _ _
  · exact bufferDescriptor_kept h _ _ _ fun hu => takeFeed_kept hu _ _ _ _
  · exact descriptor_kept h _ _ fun hu => resumeFile_kept hu _ _ _
  · exact descriptor_kept h _ _ fun hu => abandonFile_kept hu _ _ _
  · exact descriptor_kept h _ _ fun hu => adoptFile_kept hu _ _ _
  · exact bufferDescriptor_kept h _ _ _ fun hu => snapshot_kept hu _ _ _
  · exact descriptor_kept h _ _ fun hu => maskStream_kept hu _ _ _ _
  · exact descriptor_kept h _ _ fun hu => setWidths_kept hu _ _ _ _
  · exact bufferDescriptor_kept h _ _ _ fun hu => readGaps_kept hu _ _ _
  · exact catalogueRead_kept h _ _ _ _ _
  · exact bufferDescriptor_kept h _ _ _ fun hu => beginRetrieval_kept hu _ _ _ _ _ _
  · exact descriptor_kept h _ _ fun hu => setProjection_kept hu _ _
  · exact descriptor_kept h _ _ fun hu => proposePolicy_kept hu _ _ _
  · exact descriptor_kept h _ _ fun hu => endorsePolicy_kept hu _ _ _
  · exact descriptor_kept h _ _ fun hu => takeHold_kept hu _ _ _ _
  · exact descriptor_kept h _ _ fun hu => releaseHolds_kept hu _ _
  · exact descriptor_kept h _ _ fun hu => setClockValue_kept hu _ _
  · exact descriptor_kept h _ _ fun hu => beginVerify_kept hu _ _ _
  · exact descriptor_kept h _ _ fun hu => setScrub_kept hu _ _ _
  · exact descriptor_kept h _ _ fun hu => discardDamaged_kept hu _ _
  · exact bufferDescriptor_kept h _ _ _ fun hu => readOn_kept (setJob_kept hu _ _) _ _ _ _
  · exact descriptor_kept h _ _ fun hu => takeRelease_kept hu _ _
  · exact descriptor_kept h _ _ fun hu => complete_kept (modPort_kept hu _ _) _ _
  · exact bufferDescriptor_kept h _ _ _ fun hu => readStatus_kept hu _ _
  · exact bufferDescriptor_kept h _ _ _ fun hu => writeIdent_kept hu _ _
  · exact descriptor_kept h _ _ fun hu => jumpTo_kept hu _ _
  · exact descriptor_kept h _ _ fun hu => haltChain_kept hu _
  · exact h

theorem descriptorFetch_kept (h : s.tableLaws C F) (p : PortId) (c : ChainNo) (b : List Byte) :
    (descriptorFetch p c b s).tableLaws C F := by
  unfold descriptorFetch
  split
  · exact runDescriptor_kept h _
  · exact descriptor_kept h _ _ fun hu => refuse_kept hu _ _

/-! ## The cell commands -/

theorem stopChain_kept (h : s.tableLaws C F) (p : PortId) (chain : Byte) : (s.stopChain p chain).tableLaws C F := by
  unfold State.stopChain
  split
  · exact kept_ite (idleChain_kept h _) (stopJob_kept h _)
  · exact h

theorem startChain_kept (h : s.tableLaws C F) (p : PortId) (chain : Byte) : (s.startChain p chain).tableLaws C F := by
  unfold State.startChain
  split
  · exact modChain_kept h _ _
  · exact h

theorem drainPort_kept (h : s.tableLaws C F) (p : PortId) : (s.drainPort p).tableLaws C F :=
  settleDrain_kept (kept_foldl (fun _ c hs => kept_ite (idleChain_kept hs ⟨p, c⟩) hs) (modPort_kept h p _) four) p

theorem chainStart_kept (h : s.tableLaws C F) (p : PortId) (chain mask : Byte) : (chainStart p chain mask s).tableLaws C F :=
  cellCommand_kept h p _ _ fun hu => startChain_kept hu p chain

theorem chainStop_kept (h : s.tableLaws C F) (p : PortId) (chain mask : Byte) : (chainStop p chain mask s).tableLaws C F :=
  cellCommand_kept h p _ _ fun hu => stopChain_kept hu p chain

theorem portDrain_kept (h : s.tableLaws C F) (p : PortId) (chain mask : Byte) : (portDrain p chain mask s).tableLaws C F :=
  cellCommand_kept h p _ _ fun hu => drainPort_kept hu p

theorem portOpen_kept (h : s.tableLaws C F) (p : PortId) (chain mask : Byte) : (portOpen p chain mask s).tableLaws C F :=
  cellCommand_kept h p _ _ fun hu => modPort_kept hu p _

theorem noticeArea_kept (h : s.tableLaws C F) (p : PortId) (chain mask : Byte) : (noticeArea p chain mask s).tableLaws C F :=
  cellCommand_kept h p _ _ fun hu => modPort_kept hu p _

theorem tornWrite_kept (h : s.tableLaws C F) (p : PortId) (cmd chain mask : Byte) :
    (tornWrite p cmd chain mask s).tableLaws C F := kept_ite h (modPort_kept h p _)

theorem cellWrite_kept (h : s.tableLaws C F) (p : PortId) (cmd chain mask : Byte) :
    (cellWrite p cmd chain mask s).tableLaws C F := by
  unfold cellWrite
  split
  · exact chainStart_kept h p chain mask
  · exact chainStop_kept h p chain mask
  · exact portDrain_kept h p chain mask
  · exact portOpen_kept h p chain mask
  · exact noticeArea_kept h p chain mask
  · exact cellCommand_kept h p _ _ id

theorem registerWrite_kept (h : s.tableLaws C F) (p : PortId) (reg : WindowReg) (v : BitVec 64) :
    (registerWrite p reg v s).tableLaws C F := by
  unfold registerWrite
  refine kept_ite h ?_
  split
  · unfold writeCell0
    exact kept_ite (cellWrite_kept h p _ _ _) (kept_ite (modPort_kept h p _) (tornWrite_kept h p _ _ _))
  · exact modPort_kept h p _
  · exact h

/-! ## The events -/

theorem haltAt_kept (h : s.tableLaws C F) (c : ChainRef) (f : Feed) (kind : FaultKind) (r : Option (Seq × Nat))
    (found : Option Nat) : (s.haltAt c f kind r found).tableLaws C F := by
  unfold State.haltAt
  split
  · refine endFeed_kept (notice_kept (modFileCounts_kept (modStream_kept h _ _) _ fun _ => ?_) _ _ _) c _ _
    exact ⟨rfl, rfl, rfl, rfl⟩
  · exact h

theorem acceptTrailer_kept (h : s.tableLaws C F) (c : ChainRef) (f : Feed) (tr : Trailer) :
    (s.acceptTrailer c f tr).tableLaws C F := by
  unfold State.acceptTrailer
  dsimp only
  refine handOver_kept (endFeed_kept (setJob_kept (handOff_kept (modFileCounts_kept h _ fun _ => ?_) _) _ _) c _ _) _
  exact ⟨rfl, rfl, rfl, rfl⟩

theorem framing_kept (h : s.tableLaws C F) (c : ChainRef) (f : Feed) (st : Stream) : (s.framing c f st).tableLaws C F := by
  unfold State.framing
  have flagged : (s.raise f.stream .framing).tableLaws C F := modStream_kept h _ _
  refine kept_ite (moveFeed_kept (setJob_kept (modFileCounts_kept flagged _ fun _ => ?_) _ _) c _) (haltAt_kept flagged _ _ _ _ _)
  exact ⟨rfl, rfl, rfl, rfl⟩

theorem trailerPlace_kept (h : s.tableLaws C F) (c : ChainRef) (f : Feed) (st : Stream) (n : Nat) (tr : Trailer) :
    (s.trailerPlace c f st n tr).tableLaws C F := by
  unfold State.trailerPlace
  have flagged : (s.raise f.stream .trailerFile).tableLaws C F := modStream_kept h _ _
  exact kept_ite (acceptTrailer_kept h _ _ _) (kept_ite (acceptTrailer_kept flagged _ _ _) (haltAt_kept flagged _ _ _ _ _))

theorem fitTest_kept (h : s.tableLaws C F) (k : Nat) (g : FileEntry) (r : Rec) : (s.fitTest k g r).1.tableLaws C F := by
  unfold State.fitTest
  split
  · split
    · exact h
    · exact handOff_kept h k
  · exact h

theorem checkedRecord_kept (h : s.tableLaws C F) (c : ChainRef) (f : Feed) (g : FileEntry) (st : Stream) (raw : RawRec)
    (k : Checked) : (s.checkedRecord c f g st raw k).tableLaws C F := by
  unfold State.checkedRecord
  have flagged := modStream_kept h f.stream (fun st => { st with sticky := k.sticky })
  dsimp only
  split
  · exact haltAt_kept flagged _ _ _ _ _
  · exact moveFeed_kept (countTaking_kept flagged _ _ _ _ _ _) _ _
  · exact moveFeed_kept (countTaking_kept flagged _ _ _ _ _ _) _ _
  · exact takeOrWait_kept flagged _ _ _
  · exact takeOrWait_kept (fitTest_kept flagged _ _ _) _ _ _

theorem recordPlace_kept (h : s.tableLaws C F) (c : ChainRef) (b : List Byte) : (s.recordPlace c b).tableLaws C F := by
  unfold State.recordPlace
  split
  · refine kept_ite ?_ h
    split
    · unfold State.readPlace
      exact kept_ite (checkedRecord_kept h _ _ _ _ _ _)
        (kept_ite (trailerPlace_kept h _ _ _ _ _) (kept_ite (moveFeed_kept h _ _) (framing_kept h _ _ _)))
    · exact h
  · exact h

theorem takeWaiting_kept (h : s.tableLaws C F) (c : ChainRef) : (s.takeWaiting c).tableLaws C F := by
  unfold State.takeWaiting
  split
  · split
    · have left := setStager_kept h (v := { s.stager with wait := s.stager.wait.filter (fun d => decide (d ≠ c)) }) rfl
      exact kept_ite (nextAppend_kept (takeAndMove_kept (popAppend_kept left) _ _ _)) (takeAndMove_kept left _ _ _)
    · exact h
  · exact h

theorem passOver_kept (h : s.tableLaws C F) (c : ChainRef) : (s.passOver c).tableLaws C F := by
  unfold State.passOver
  split
  · exact kept_ite h (joinAppend_kept h _)
  · exact h

theorem giveTo_kept (l : List ChainRef) (h : s.tableLaws C F) : (State.giveTo l s).tableLaws C F := by
  induction l generalizing s with
  | nil => exact h
  | cons c l ih => exact kept_ite (takeWaiting_kept h c) (ih (passOver_kept h c))

theorem expireDeadline_kept (h : s.tableLaws C F) (k : Nat) : (s.expireDeadline k).tableLaws C F := by
  unfold State.expireDeadline
  split
  · exact kept_ite (handOver_kept (endFeedOf_kept
      (freeFailed_kept (handOff_kept (closingFile_kept h k .deadline) k) k) _ _) _) h
  · exact h

theorem powerOnValues_kept (h : s.tableLaws C F) {straps : StrapPins} {settings : Settings} {flash : Flash}
    (hs : settings.holds = s.settings.holds)
    (hf : C → Table.rising flash.extents = true ∧ Table.rising flash.pages = true) :
    (State.powerOnValues s.pending s.out straps settings flash).tableLaws C F := by
  refine ⟨fun hC => ?_, fun _ k f hf => absurd hf (by simp [State.powerOnValues])⟩
  have hc := (h.form hC).1
  have none : ∀ {α : Type} {P : α → Prop}, ∀ p ∈ ([] : List α), P p := fun p hp => absurd hp List.not_mem_nil
  refine ⟨⟨(hf hC).1, (hf hC).2, rfl, rfl, rfl, rfl, rfl, ?_, rfl, rfl, rfl, none, none, none, ?_, none⟩, none⟩
  · exact (congrArg Table.rising hs).trans hc.holds
  · exact fun p hp => hc.holdSlots p (hs ▸ hp)

theorem powerUp_kept (h : s.tableLaws C F) (pins : StrapPins) (damaged : List SettingsId) :
    (s.powerUp pins damaged).tableLaws C F := by
  unfold State.powerUp
  split
  · exact request_kept (kept_of_frame (powerOnValues_kept h (by rfl) fun hC =>
      ⟨(h.form hC).1.extents, (h.form hC).1.pages⟩) (setPower_frame _ .starting) (by decide)) _ _
  · exact h

/-- A power-off leaves the flash's tables in their form. -/
theorem rising_cutChannel (s : State) {f : Flash} (h : Table.rising f.extents = true ∧ Table.rising f.pages = true)
    (ch : Channel) (cut : Cut) : Table.rising (s.cutChannel f ch cut).extents = true
      ∧ Table.rising (s.cutChannel f ch cut).pages = true := by
  unfold State.cutChannel
  split
  · unfold State.cutFlash
    split
    · exact h
    · exact ⟨rising_tput h.1 _ _, h.2⟩
    · split
      · exact ⟨rising_tput h.1 _ _, h.2⟩
      · exact h
    · split
      · exact ⟨h.1, rising_tput h.2 _ _⟩
      · exact h
    · exact ⟨rising_tput h.1 _ _, h.2⟩
    · exact ⟨rising_tdel h.1 _, h.2⟩
    · exact ⟨h.1, rising_filter h.2 _⟩
    · exact ⟨h.1, rising_outsideExtent h.2 _⟩
    · exact h
  · exact h

theorem powerDown_kept (h : s.tableLaws C F) (c0 c1 c2 c3 : Cut) : (s.powerDown c0 c1 c2 c3).tableLaws C F :=
  powerOnValues_kept h rfl fun hC => rising_cutChannel s (rising_cutChannel s (rising_cutChannel s (rising_cutChannel s
    ⟨(h.form hC).1.extents, (h.form hC).1.pages⟩ 0 c0) 1 c1) 2 c2) 3 c3

theorem countFailure_kept (h : s.tableLaws C F) : s.countFailure.tableLaws C F := setJournal_kept h rfl

theorem completeScanRead_kept (h : s.tableLaws C F) (o : PageOutcome) : (s.completeScanRead o).tableLaws C F := by
  unfold State.completeScanRead
  split
  · refine kept_ite ?_ h
    have popped := popQueue_kept h 0
    dsimp only
    split
    · exact scanned_kept popped _ _
    · exact kept_ite (scanned_kept (countFailure_kept popped) _ _) (request_kept (countFailure_kept popped) _ _)
  · exact h

theorem headerReported_kept (h : s.tableLaws C F) (ch : Channel) (x : Nat) (r : Option (Option SegHeader)) :
    (s.headerReported ch x r).tableLaws C F := by
  unfold State.headerReported
  have noted : (match r with
      | some k => s.setBoot { s.boot with headers := tput s.boot.headers x k }
      | none => s).tableLaws C F := by
    split
    · exact setBoot_kept h fun hC => ⟨(h.form hC).1.scanned, rising_tput (h.form hC).1.headers x _⟩
    · exact h
  have ended : ∀ {u : State}, u.tableLaws C F → (if u.boot.headersDone then u.rebuildEnd else u).tableLaws C F :=
    fun hu => kept_ite (rebuildEnd_kept hu) hu
  exact ended (nextHeader_kept noted ch _)

theorem completeHeaderRead_kept (h : s.tableLaws C F) (ch : Channel) (o : ReadOutcome) :
    (s.completeHeaderRead ch o).tableLaws C F := by
  unfold State.completeHeaderRead
  split
  · refine kept_ite ?_ h
    dsimp only
    split
    · exact request_kept (popQueue_kept h ch) _ _
    · exact headerReported_kept (popQueue_kept h ch) _ _ _
  · exact h

theorem advanceClock_kept (h : s.tableLaws C F) : s.advanceClock.tableLaws C F := by
  unfold State.advanceClock
  have moved := shortenDeadlines_kept (setClock_kept h { s.clock with value := s.clock.value + 1 }) 1
  exact kept_ite h (kept_ite (dayRoll_kept moved 1) moved)

theorem dividerSecond_kept (h : s.tableLaws C F) : s.dividerSecond.tableLaws C F := by
  unfold State.dividerSecond
  refine kept_ite h ?_
  split
  · exact advanceClock_kept h
  · exact advanceClock_kept h
  · exact setClock_kept h _

theorem pulse_kept (h : s.tableLaws C F) : s.pulse.tableLaws C F := by
  unfold State.pulse
  refine kept_ite h ?_
  split
  · exact h
  · exact advanceClock_kept (setClock_kept h _)
  · exact setClock_kept h _

theorem watchdogExpires_kept (h : s.tableLaws C F) : s.watchdogExpires.tableLaws C F := by
  unfold State.watchdogExpires
  exact kept_ite (noticeAll_kept (advanceClock_kept (advanceClock_kept (setClock_kept h _))) _ _) h

theorem commitReady_kept (h : s.tableLaws C F) : s.commitReady.tableLaws C F := by
  unfold State.commitReady
  split
  · exact kept_ite (nextAppend_kept (commitPolicy_kept (popAppend_kept h) _)) h
  · exact h

theorem visit_kept (h : s.tableLaws C F) (x : Nat) : (s.visit x).tableLaws C F := by
  unfold State.visit
  dsimp only
  split
  · split
    · refine kept_ite h (kept_ite h (kept_ite (retire_kept h _ _) (setScanner_kept (modEntry_kept h x ?_) _)))
      exact id
    · refine kept_ite (retest_kept h x) (kept_ite h (modEntry_kept h x ?_))
      exact id
    · exact h
  · exact h

theorem scanVisit_kept (h : s.tableLaws C F) : s.scanVisit.tableLaws C F := by
  unfold State.scanVisit
  refine kept_ite ?_ h
  have visited := fun p => setScanner_kept (visit_kept h s.scanner.position)
    { (s.visit s.scanner.position).scanner with position := p }
  have ended : ∀ {u : State}, u.tableLaws C F → u.endWalk.tableLaws C F := fun hu =>
    kept_ite (setScanner_kept hu _) (setScanner_kept hu _)
  exact kept_ite (ended (visited _)) (visited _)

theorem allocate_kept (h : s.tableLaws C F) (ch : Channel) : (s.allocate ch).tableLaws C F := by
  unfold State.allocate
  split
  · split
    · rename_i hv
      split
      · dsimp only
        refine setQueue_kept (setStore_kept (setEntry_kept ?_ _ fun _ => Nat.zero_le 4) _) _ _
        have left : ∀ l, (s.setStager { s.stager with seals := l }).tableLaws C F := fun _ => setStager_kept h rfl
        exact resetBuf_kept (left _) hv
      · exact h
    · exact h
  · exact h

theorem sealAllocation_kept (h : s.tableLaws C F) : s.sealAllocation.tableLaws C F := by
  unfold State.sealAllocation
  have full : s.storeFull.tableLaws C F := kept_ite h (noticeAll_kept (setStore_kept h _) _ _)
  refine kept_ite h (kept_ite full ?_)
  split
  · exact allocate_kept h _
  · exact setStore_kept h _

theorem placeGivenTo_kept (h : s.tableLaws C F) (op : StoreOp) : (s.placeGivenTo op).tableLaws C F := by
  unfold State.placeGivenTo
  split
  · exact jobState_kept (setPhase_kept h _ _) _ _
  · exact setChainState_kept h _ _
  · exact h

theorem givePlace_kept (h : s.tableLaws C F) (ch : Channel) : (s.givePlace ch).tableLaws C F := by
  unfold State.givePlace
  refine kept_ite ?_ h
  split
  · exact placeGivenTo_kept (setQueue_kept (setStore_kept h _) _ _) _
  · exact allocate_kept h ch
  · exact h

theorem retireExtent_frame (s : State) (x : Nat) : s.sameBut [.settings, .catalogue] (s.retireExtent x) :=
  sameBut_then (setSettings_frame s _) (setEntry_frame _ _ _) (by decide) (by decide)

theorem setContent_kept (h : s.tableLaws C F) (x : Nat) (c : ExtentContent) : (s.setContent x c).tableLaws C F := by
  refine setFlash_kept h fun hC => ⟨?_, (h.form hC).1.pages⟩
  dsimp only
  split
  · exact rising_tdel (h.form hC).1.extents x
  · exact rising_tput (h.form hC).1.extents x c

theorem completeWrite_kept (h : s.tableLaws C F) (ch : Channel) (ok : Bool) : (s.completeWrite ch ok).tableLaws C F := by
  unfold State.completeWrite
  split
  · have popped := popQueue_kept h ch
    dsimp only
    split
    · rename_i hv
      split
      · refine kept_ite (ask_kept (freeBuf_kept (modEntry_kept (setContent_kept popped _ _) _ id) _) _ _) ?_
        exact ask_kept (resetBuf_kept (retireExtent_kept (setContent_kept popped _ .incomplete) _)
          (by rw [(retireExtent_frame _ _).stager (by decide)]; exact hv)) _ _
      · exact popped
    · exact popped
  · exact h

theorem completeErase_kept (h : s.tableLaws C F) (ch : Channel) (ok : Bool) : (s.completeErase ch ok).tableLaws C F := by
  unfold State.completeErase
  split
  · have popped := popQueue_kept h ch
    exact kept_ite (setEntry_kept (setContent_kept popped _ _) _ fun _ => Nat.zero_le 4)
      (ask_kept (retireExtent_kept (setContent_kept popped _ _) _) _ _)
  · exact h

theorem readDone_kept (h : s.tableLaws C F) (r : JobRef) (hd : SegHeader) (b : List Bool) :
    (s.readDone r hd b).tableLaws C F := by
  cases r
  · exact waitForLane_kept (setPhase_kept h _ _) _
  · exact setArbiter_kept (setPhase_kept h _ _) _

theorem completeSegRead_kept (h : s.tableLaws C F) (ch : Channel) (o : ReadOutcome) : (s.completeSegRead ch o).tableLaws C F := by
  unfold State.completeSegRead
  have popped := popQueue_kept h ch
  split
  · unfold State.segReadDone
    split
    · exact readDone_kept popped _ _ _
    · exact kept_ite (segEnded_kept popped _ _) (startRead_kept popped _ _ _)
  · exact popped
  · exact h

theorem completePage_kept (h : s.tableLaws C F) (ok : Bool) : (s.completePage ok).tableLaws C F := by
  unfold State.completePage
  split
  · exact kept_ite (pageWritten_kept (popQueue_kept h 0) _) (pageFailed_kept (popQueue_kept h 0) _)
  · exact h

theorem closePage_kept (h : s.tableLaws C F) : s.closePage.tableLaws C F := by
  unfold State.closePage
  split
  · exact kept_ite h (pumpPages_kept (startPageWrite_kept (setPageState_kept h _ _)) 6)
  · exact h

theorem completeJournalErase_kept (h : s.tableLaws C F) (ok : Bool) : (s.completeJournalErase ok).tableLaws C F := by
  unfold State.completeJournalErase
  split
  · exact kept_ite (journalErased_kept (popQueue_kept h 0) _) (request_kept (countFailure_kept (popQueue_kept h 0)) _ _)
  · exact h

theorem completePageRead_kept (h : s.tableLaws C F) (o : PageOutcome) : (s.completePageRead o).tableLaws C F := by
  unfold State.completePageRead
  have popped := popQueue_kept h 0
  split
  · split
    · unfold State.pageReadDone
      split
      · exact readOn_kept (setChainState_kept popped _ _) _ _ _ _
      · exact kept_ite (complete_kept (countFailure_kept popped) _ _) (readPage_kept (countFailure_kept popped) _ _ _ _)
    · exact popped
  · exact popped
  · exact h

theorem pinGranted_kept (h : s.tableLaws C F) (c : ChainRef) (x : Nat) : (s.pinGranted c x).tableLaws C F := by
  unfold State.pinGranted
  split
  · exact kept_ite (goOnPinned_kept h c x) (search_kept (releasePin_kept (setJob_kept h _ _) x) c)
  · exact goOnPinned_kept h c x
  · exact h

theorem grantPin_kept (h : s.tableLaws C F) (x : Nat) : (s.grantPin x).tableLaws C F := by
  unfold State.grantPin
  split
  · exact pinGranted_kept (modEntry_kept h x id) _ x
  · exact h

theorem decodeOne_kept (h : s.tableLaws C F) (r : JobRef) : (s.decodeOne r).tableLaws C F := by
  unfold State.decodeOne
  split
  · split
    · split
      · have handed : ∀ g i x, (s.handRecord r g i x).1.tableLaws C F := fun g i x => by
          unfold State.handRecord
          split
          · split
            · exact deliver_kept h _ _ _ _ _
            · exact h
          · exact h
        exact kept_ite (decodeStands_kept (handed _ _ _) _ _ _) (handed _ _ _)
      · exact segEnded_kept h _ _
    · exact h
  · exact h

theorem takeReport_kept (h : s.tableLaws C F) : s.takeReport.tableLaws C F := by
  unfold State.takeReport
  split
  · have taken := fun a => setAudit_kept h a
    dsimp only
    split
    · exact kept_ite (quarantine_kept (taken _) _ _ _ _ _ _) (taken _)
    · exact taken _
  · exact h

/-- The scrub takes a pin below a count of four alone. -/
theorem considerScrub_kept (h : s.tableLaws C F) : s.considerScrub.tableLaws C F := by
  unfold State.considerScrub
  refine kept_ite ?_ h
  dsimp only
  split
  · refine kept_ite ?_ (scrubDone_kept h _)
    split
    · rename_i hp
      exact startRead_kept (setAudit_kept (modEntry_kept h _ (f := fun e => { e with pins := e.pins + 1 }) fun _ => hp) _) _ _ _
    · exact scrubDone_kept h _
  · exact scrubDone_kept h _

theorem linkDown_kept (h : s.tableLaws C F) (p : PortId) (f : Port → Port) :
    ((s.portReset p).modPort p f).tableLaws C F := modPort_kept (portReset_kept h p) p f

/-! ## Every command, and every step -/

theorem next_kept {u : State} (ht : (.next u : Host.Outcome State Fault Refusal) = .next t) (h : u.tableLaws C F) :
    t.tableLaws C F := by cases ht; exact h

/-- Every command keeps the laws of the tables. -/
theorem exec_kept (h : s.tableLaws C F) {i : Instr} (ht : exec i s = .next t) : t.tableLaws C F := by
  cases i with
  | streamOpen => exact next_kept ht (runDescriptor_kept h (.streamOpen ..))
  | streamClose => exact next_kept ht (runDescriptor_kept h (.streamClose ..))
  | fileOpen => exact next_kept ht (runDescriptor_kept h (.fileOpen ..))
  | fileFeed => exact next_kept ht (runDescriptor_kept h (.fileFeed ..))
  | fileResume => exact next_kept ht (runDescriptor_kept h (.fileResume ..))
  | fileAbandon => exact next_kept ht (runDescriptor_kept h (.fileAbandon ..))
  | fileAdopt => exact next_kept ht (runDescriptor_kept h (.fileAdopt ..))
  | streamSnapshot => exact next_kept ht (runDescriptor_kept h (.streamSnapshot ..))
  | streamMask => exact next_kept ht (runDescriptor_kept h (.streamMask ..))
  | widthSet => exact next_kept ht (runDescriptor_kept h (.widthSet ..))
  | gapRead => exact next_kept ht (runDescriptor_kept h (.gapRead ..))
  | catalogueRead => exact next_kept ht (runDescriptor_kept h (.catalogueRead ..))
  | retrieve => exact next_kept ht (runDescriptor_kept h (.retrieve ..))
  | projectionSet => exact next_kept ht (runDescriptor_kept h (.projectionSet ..))
  | policyPropose => exact next_kept ht (runDescriptor_kept h (.policyPropose ..))
  | policyEndorse => exact next_kept ht (runDescriptor_kept h (.policyEndorse ..))
  | holdPlace => exact next_kept ht (runDescriptor_kept h (.holdPlace ..))
  | holdRelease => exact next_kept ht (runDescriptor_kept h (.holdRelease ..))
  | clockSet => exact next_kept ht (runDescriptor_kept h (.clockSet ..))
  | verify => exact next_kept ht (runDescriptor_kept h (.verify ..))
  | scrubSet => exact next_kept ht (runDescriptor_kept h (.scrubSet ..))
  | damagedDiscard => exact next_kept ht (runDescriptor_kept h (.damagedDiscard ..))
  | journalRead => exact next_kept ht (runDescriptor_kept h (.journalRead ..))
  | journalRelease => exact next_kept ht (runDescriptor_kept h (.journalRelease ..))
  | serviceSet => exact next_kept ht (runDescriptor_kept h (.serviceSet ..))
  | statusRead => exact next_kept ht (runDescriptor_kept h (.statusRead ..))
  | identify => exact next_kept ht (runDescriptor_kept h (.identify ..))
  | jump => exact next_kept ht (runDescriptor_kept h (.jump ..))
  | halt => exact next_kept ht (runDescriptor_kept h (.halt ..))
  | chainStart => exact next_kept ht (chainStart_kept h _ _ _)
  | chainStop => exact next_kept ht (chainStop_kept h _ _ _)
  | portDrain => exact next_kept ht (portDrain_kept h _ _ _)
  | portOpen => exact next_kept ht (portOpen_kept h _ _ _)
  | noticeArea => exact next_kept ht (noticeArea_kept h _ _ _)
  | torn => exact next_kept ht (tornWrite_kept h _ _ _ _)
  | registerWrite => exact next_kept ht (registerWrite_kept h _ _ _)
  | descriptorFetch => exact next_kept ht (descriptorFetch_kept h _ _ _)
  | descriptorFetchTimeout => exact next_kept ht (fetchFails_kept h _)
  | bufferReadTimeout => exact next_kept ht (bufferReadFails_kept h _)
  | linkUp => exact next_kept ht (kept_ite (modPort_kept h _ _) h)
  | linkDown => exact next_kept ht (kept_ite h (linkDown_kept h _ _))
  | functionLevelReset => exact next_kept ht (kept_ite h (linkDown_kept h _ _))
  | functionLevelResetEnd => exact next_kept ht (kept_ite (modPort_kept h _ _) h)
  | laneGrant => exact next_kept ht (grantLane_kept h)
  | recordPlace => exact next_kept ht (recordPlace_kept h _ _)
  | stagingBufferGiven => exact next_kept ht (kept_ite (giveTo_kept _ h) h)
  | fileDeadlineExpiry => exact next_kept ht (expireDeadline_kept h _)
  | powerOn => exact next_kept ht (powerUp_kept h _ _)
  | powerOff => exact next_kept ht (kept_ite h (powerDown_kept h _ _ _ _))
  | journalScanReadComplete => exact next_kept ht (completeScanRead_kept h _)
  | headerReadComplete => exact next_kept ht (completeHeaderRead_kept h _ _)
  | dividerSecond => exact next_kept ht (dividerSecond_kept h)
  | pulse => exact next_kept ht (pulse_kept h)
  | pulseWatchdogExpiry => exact next_kept ht (watchdogExpires_kept h)
  | policyCommit => exact next_kept ht (commitReady_kept h)
  | scanVisit => exact next_kept ht (scanVisit_kept h)
  | sealAllocation => exact next_kept ht (sealAllocation_kept h)
  | queuePlaceGiven => exact next_kept ht (givePlace_kept h _)
  | segmentWriteComplete => exact next_kept ht (completeWrite_kept h _ _)
  | segmentReadComplete => exact next_kept ht (completeSegRead_kept h _ _)
  | eraseComplete => exact next_kept ht (completeErase_kept h _ _)
  | journalPageWriteComplete => exact next_kept ht (completePage_kept h _)
  | pageTimerExpiry => exact next_kept ht (closePage_kept h)
  | journalEraseComplete => exact next_kept ht (completeJournalErase_kept h _)
  | journalPageReadComplete => exact next_kept ht (completePageRead_kept h _)
  | appendWaitServed => exact next_kept ht (serveAppend_kept h)
  | pinGrant => exact next_kept ht (grantPin_kept h _)
  | decodedRecord =>
    refine next_kept ht ?_
    split
    · exact decodeOne_kept h _
    · exact h
  | damageReport => exact next_kept ht (takeReport_kept h)
  | scrubConsider => exact next_kept ht (considerScrub_kept h)
  | errorCompletion => exact next_kept ht (kept_ite (fetchFails_kept h _) (bufferReadFails_kept h _))

/-- Every step keeps the laws of the tables. -/
theorem step_kept (h : s.tableLaws C F) (ht : step s = .next t) : t.tableLaws C F := by
  unfold step at ht
  split at ht
  · exact next_kept ht (tick_kept h)
  · rename_i rest _
    exact exec_kept (s := { s with pending := rest }) (kept_of_same h rfl rfl rfl rfl rfl rfl rfl rfl rfl rfl) ht

end Sys2Proof.Machine

open Sys2Proof Sys2Proof.Machine

/-- Settles O53: an invariant of the tables kept operation by operation. -/
theorem stepKeepsTablesCanonical : Obligations.StepKeepsTablesCanonical := by
  unfold Obligations.StepKeepsTablesCanonical
  intro s t ht hc hp
  exact (step_kept (C := True) (F := False) ⟨fun _ => ⟨hc, hp⟩, False.elim⟩ ht).form trivial

/-- Settles O54: the same lemmas, read for law 2. -/
theorem stepKeepsFileSums : Obligations.StepKeepsFileSums := by
  unfold Obligations.StepKeepsFileSums
  intro s t ht hs
  exact (step_kept (C := False) (F := True) ⟨False.elim, fun _ => hs⟩ ht).sums trivial
end

section
/-!
SUPPORT. How a completion leaves what is posted, its chain and its port, whether its chain goes on or ends; how a feed ends;
and what later operations leave of what was posted.
-/

namespace Sys2Proof.Machine

variable {s t : State}

/-! ## What has been posted stays posted -/

/-- Everything posted before stays posted, and more may follow it. -/
def State.posts (s t : State) : Prop := ∃ more, t.out = s.out ++ more

theorem posts_refl (s : State) : s.posts s := ⟨[], by simp⟩

theorem posts_trans {u : State} (h : s.posts t) (k : t.posts u) : s.posts u := by
  obtain ⟨l, hl⟩ := h
  obtain ⟨m, hm⟩ := k
  exact ⟨l ++ m, by rw [hm, hl, List.append_assoc]⟩

theorem posts_of_frame {l : List Part} (h : s.sameBut l t) (hn : Part.out ∉ l) : s.posts t :=
  ⟨[], by rw [h.out hn, List.append_nil]⟩

theorem posts_ite {u : State} {c : Prop} [Decidable c] (h : s.posts t) (k : s.posts u) : s.posts (if c then t else u) := by
  split
  · exact h
  · exact k

theorem posts_foldl {α : Type} {f : State → α → State} (h : ∀ (s : State) a, s.posts (f s a)) (xs : List α)
    (s : State) : s.posts (xs.foldl f s) := by
  induction xs generalizing s with
  | nil => exact posts_refl s
  | cons x xs ih => exact posts_trans (h s x) (ih (f s x))

theorem mem_out_of_posts {o : Output} (h : s.posts t) (ho : o ∈ s.out) : o ∈ t.out := by
  obtain ⟨l, hl⟩ := h
  rw [hl]
  exact List.mem_append_left _ ho

theorem posts_notice (s : State) (p : PortId) (k : NoticeKind) (o : NoticeObject) : s.posts (s.notice p k o) :=
  ⟨_, notice_out s p k o⟩

theorem posts_noticeAll (s : State) (k : NoticeKind) (o : NoticeObject) : s.posts (s.noticeAll k o) :=
  posts_foldl (fun s p => posts_notice s p k o) four s

theorem posts_decideLow (s : State) : s.posts s.decideLow := by
  unfold State.decideLow
  dsimp only
  split
  · exact posts_refl s
  · refine posts_trans ?_ (posts_of_frame (tellScanner_frame _ _) (by decide))
    have low := posts_of_frame (setJournal_frame s { s.journal with low := decide (s.freePlaces < lowMark) }) (by decide)
    exact posts_ite (posts_trans low (posts_noticeAll _ _ _)) low

theorem posts_joinAppend (s : State) (r : AppendReq) : s.posts (s.joinAppend r) :=
  posts_trans (posts_of_frame (sameBut_trans (setJournal_frame s _) (reserveWait_frame _)) (by decide)) (posts_decideLow _)

theorem posts_leaveAppend (s : State) (c : ChainRef) : s.posts (s.leaveAppend c) := by
  unfold State.leaveAppend
  dsimp only
  split
  · exact posts_refl s
  · exact posts_trans (posts_of_frame (sameBut_trans (setJournal_frame s _) (reserveWait_frame _)) (by decide))
      (posts_decideLow _)

theorem posts_idleChain (s : State) (c : ChainRef) : s.posts (s.idleChain c) := posts_of_frame (idleChain_frame s c) (by decide)

/-! ## Notices and chains -/

/-- A notice leaves every chain. -/
theorem chain_notice (s : State) (p : PortId) (k : NoticeKind) (o : NoticeObject) (d : ChainRef) :
    (s.notice p k o).chain d = s.chain d := by
  unfold State.chain
  rw [port_notice]
  split
  · rename_i h; subst h; cases NoticeKind.cls k <;> rfl
  · rfl

theorem chain_noticeAll (s : State) (k : NoticeKind) (o : NoticeObject) (d : ChainRef) :
    (s.noticeAll k o).chain d = s.chain d := by
  have h : ∀ (l : List PortId) (s : State), (l.foldl (fun s p => s.notice p k o) s).chain d = s.chain d := by
    intro l
    induction l with
    | nil => intro s; rfl
    | cons p l ih => intro s; rw [List.foldl_cons, ih, chain_notice]
  exact h four s

theorem chain_of_ports (h : t.ports = s.ports) (d : ChainRef) : t.chain d = s.chain d := by
  unfold State.chain State.port
  rw [h]

theorem job_of_chain {d : ChainRef} (h : t.chain d = s.chain d) : t.job d = s.job d := by
  unfold State.job
  rw [h]

theorem feed_of_job {d : ChainRef} (h : t.job d = s.job d) : t.feed d = s.feed d := by
  unfold State.feed
  rw [h]

/-- A job that is no descriptor's is none. -/
theorem job_of_desc {c : ChainRef} {d : Desc} (h : (s.chain c).desc = some d) : s.job c = d.job := by
  unfold State.job
  rw [h]
  rfl

theorem feed_of_desc {c : ChainRef} {d : Desc} {f : Feed} (h : (s.chain c).desc = some d) (hj : d.job = some (.feed f)) :
    s.feed c = some f := by
  unfold State.feed
  rw [job_of_desc h, hj]

theorem feed_eq_some_iff {c : ChainRef} {f : Feed} : s.feed c = some f ↔ s.job c = some (.feed f) := by
  unfold State.feed
  constructor
  · intro h
    split at h
    · rename_i e; rw [e]; cases h; rfl
    · cases h
  · intro h
    rw [h]

/-- The state of a port after a notice is as it was. -/
theorem state_notice (s : State) (p q : PortId) (k : NoticeKind) (o : NoticeObject) :
    ((s.notice p k o).port q).state = (s.port q).state := by
  rw [port_notice]
  split
  · rename_i h; subst h; cases NoticeKind.cls k <;> rfl
  · rfl

theorem state_noticeAll (s : State) (q : PortId) (k : NoticeKind) (o : NoticeObject) :
    ((s.noticeAll k o).port q).state = (s.port q).state := by
  have h : ∀ (l : List PortId) (s : State), ((l.foldl (fun s p => s.notice p k o) s).port q).state = (s.port q).state := by
    intro l
    induction l with
    | nil => intro s; rfl
    | cons p l ih => intro s; rw [List.foldl_cons, ih, state_notice]
  exact h four s

theorem port_of_ports (h : t.ports = s.ports) (p : PortId) : t.port p = s.port p := by
  unfold State.port
  rw [h]

/-- Deciding the low state leaves every chain, and every port's state. -/
theorem decideLow_chain (s : State) (d : ChainRef) : s.decideLow.chain d = s.chain d := by
  unfold State.decideLow
  dsimp only
  split
  · rfl
  · rw [chain_of_ports ((tellScanner_frame _ _).ports (by decide))]
    split
    · rw [chain_noticeAll]; rfl
    · rfl

theorem decideLow_state (s : State) (q : PortId) : (s.decideLow.port q).state = (s.port q).state := by
  unfold State.decideLow
  dsimp only
  split
  · rfl
  · rw [port_of_ports ((tellScanner_frame _ _).ports (by decide))]
    split
    · rw [state_noticeAll]; rfl
    · rfl

/-- Where the low state already says what the free places say, deciding it changes nothing. -/
theorem decideLow_of_low (h : s.journal.low = decide (s.freePlaces < lowMark)) : s.decideLow = s := by
  unfold State.decideLow
  rw [if_pos h.symm]

/-- The free places depend on the Journal and Settings Memory alone. -/
theorem freePlaces_of_same (hj : t.journal = s.journal) (hs : t.settings = s.settings) : t.freePlaces = s.freePlaces := by
  unfold State.freePlaces State.occupied State.slotPlaces
  rw [hj, hs]

/-- The port of a changed chain keeps its state. -/
theorem state_modChain (s : State) (c : ChainRef) (f : Chain → Chain) (q : PortId) :
    ((s.modChain c f).port q).state = (s.port q).state := by
  unfold State.modChain
  rw [port_modPort]
  split
  · rename_i h; subst h; rfl
  · rfl

/-! ## The end of a chain on a port that does not drain -/

theorem settleDrain_of_not_draining {p : PortId} (h : (s.port p).state ≠ .draining) : s.settleDrain p = s := by
  unfold State.settleDrain
  rw [if_neg (fun e => h e.1)]

theorem idleChain_of_not_draining {c : ChainRef} (h : (s.port c.port).state ≠ .draining) :
    s.idleChain c = s.modChain c (fun k => { k with state := .idle, desc := none }) := by
  unfold State.idleChain
  exact settleDrain_of_not_draining (by rw [state_modChain]; exact h)

/-- A port's drain leaves every chain. -/
theorem chain_settleDrain (s : State) (p : PortId) (d : ChainRef) : (s.settleDrain p).chain d = s.chain d := by
  unfold State.settleDrain
  split
  · rw [chain_of_ports ((orphanFiles_frame _ _).ports (by decide))]
    unfold State.chain
    rw [port_modPort]
    obtain ⟨q, m⟩ := d
    dsimp only
    split
    · rename_i h; subst h; rfl
    · rfl
  · rfl

theorem chain_idleChain (s : State) (c d : ChainRef) :
    (s.idleChain c).chain d = if d = c then { s.chain c with state := .idle, desc := none } else s.chain d := by
  unfold State.idleChain
  rw [chain_settleDrain, chain_modChain]

/-! ## Completions -/

/-- A completion writes its word first of what it posts. -/
theorem complete_posts {c : ChainRef} {d : Desc} (hd : (s.chain c).desc = some d) (w : Completion) :
    ∃ more, (s.complete c w).out = s.out ++ .completion c.port (d.addr + 32) w :: more := by
  have h : (s.emit (.completion c.port (d.addr + 32) w)).posts (s.complete c w) := by
    unfold State.complete
    rw [hd]
    dsimp only
    have noticed : (s.emit (.completion c.port (d.addr + 32) w)).posts
        (if d.notify then (s.emit (.completion c.port (d.addr + 32) w)).notice c.port .descriptorDone
          (.chain c.chain d.addr) else s.emit (.completion c.port (d.addr + 32) w)) :=
      posts_ite (posts_notice _ _ _ _) (posts_refl _)
    have told : ∀ {u : State}, (s.emit (.completion c.port (d.addr + 32) w)).posts u →
        (s.emit (.completion c.port (d.addr + 32) w)).posts (if w.status = .fetchTimeout then
          u.notice c.port .fetchTimeout (.chain c.chain d.addr) else u) := fun hu =>
      posts_ite (posts_trans hu (posts_notice _ _ _ _)) hu
    refine told (posts_trans noticed (posts_ite (posts_trans (posts_idleChain _ _) (posts_notice _ _ _ _)) ?_))
    exact posts_ite (posts_idleChain _ _) (posts_of_frame (modChain_frame _ _ _) (by decide))
  obtain ⟨more, hm⟩ := h
  exact ⟨more, by rw [hm]; simp [State.emit]⟩

theorem posts_complete (s : State) (c : ChainRef) (w : Completion) : s.posts (s.complete c w) := by
  cases hd : (s.chain c).desc with
  | none => unfold State.complete; rw [hd]; exact posts_refl s
  | some d => obtain ⟨more, hm⟩ := complete_posts hd w; exact ⟨_, hm⟩

theorem mem_out_complete {c : ChainRef} {d : Desc} (hd : (s.chain c).desc = some d) (w : Completion) :
    .completion c.port (d.addr + 32) w ∈ (s.complete c w).out := by
  obtain ⟨more, hm⟩ := complete_posts hd w
  rw [hm]
  simp

/-- On a port that does not drain a completion leaves the files. -/
theorem complete_undrained_frame {c : ChainRef} (w : Completion) (hp : (s.port c.port).state ≠ .draining) :
    s.sameBut [.ports, .out] (s.complete c w) := by
  unfold State.complete
  split
  · exact sameBut_refl _ s
  · rename_i d _
    dsimp only
    have posted : s.sameBut [.ports, .out] (s.emit (.completion c.port (d.addr + 32) w)) :=
      sameBut_mono (emit_frame s _) (by decide)
    have noticed : s.sameBut [.ports, .out]
        (if d.notify then (s.emit (.completion c.port (d.addr + 32) w)).notice c.port .descriptorDone
          (.chain c.chain d.addr) else s.emit (.completion c.port (d.addr + 32) w)) :=
      sameBut_ite (sameBut_trans posted (notice_frame _ _ _ _)) posted
    have still : ((if d.notify then (s.emit (.completion c.port (d.addr + 32) w)).notice c.port .descriptorDone
          (.chain c.chain d.addr) else s.emit (.completion c.port (d.addr + 32) w)).port c.port).state
        = (s.port c.port).state := by
      split
      · exact state_notice _ _ _ _ _
      · rfl
    generalize (if d.notify then (s.emit (.completion c.port (d.addr + 32) w)).notice c.port .descriptorDone
      (.chain c.chain d.addr) else s.emit (.completion c.port (d.addr + 32) w)) = u at noticed still ⊢
    have idle : s.sameBut [.ports, .out] (u.idleChain c) := by
      rw [idleChain_of_not_draining (by rw [still]; exact hp)]
      exact sameBut_trans noticed (sameBut_mono (modChain_frame _ _ _) (by decide))
    have told : ∀ {v : State}, s.sameBut [.ports, .out] v → s.sameBut [.ports, .out]
        (if w.status = .fetchTimeout then v.notice c.port .fetchTimeout (.chain c.chain d.addr) else v) := fun hv =>
      sameBut_ite (sameBut_trans hv (notice_frame _ _ _ _)) hv
    refine told (sameBut_ite (sameBut_trans idle (notice_frame _ _ _ _)) (sameBut_ite idle ?_))
    exact sameBut_trans noticed (sameBut_mono (modChain_frame _ _ _) (by decide))

/-- A completion leaves every other chain; its own keeps its next address, has no descriptor, and runs on or is IDLE. -/
theorem complete_chain {c : ChainRef} {d : Desc} (hd : (s.chain c).desc = some d) (w : Completion) :
    (∀ e, e ≠ c → (s.complete c w).chain e = s.chain e)
      ∧ ((s.complete c w).chain c).next = (s.chain c).next ∧ ((s.complete c w).chain c).desc = none
      ∧ (w.status = .stopped ∨ w.status = .fetchTimeout → ((s.complete c w).chain c).state = .idle) := by
  unfold State.complete
  rw [hd]
  dsimp only
  have noticed : ∀ e, (if d.notify then (s.emit (.completion c.port (d.addr + 32) w)).notice c.port .descriptorDone
      (.chain c.chain d.addr) else s.emit (.completion c.port (d.addr + 32) w)).chain e = s.chain e := fun e => by
    split
    · rw [chain_notice]; rfl
    · rfl
  generalize (if d.notify then (s.emit (.completion c.port (d.addr + 32) w)).notice c.port .descriptorDone
    (.chain c.chain d.addr) else s.emit (.completion c.port (d.addr + 32) w)) = u at noticed ⊢
  have told : ∀ (v : State) (e), (if w.status = .fetchTimeout then v.notice c.port .fetchTimeout (.chain c.chain d.addr)
      else v).chain e = v.chain e := fun v e => by
    split
    · exact chain_notice _ _ _ _ _
    · rfl
  simp only [told]
  split
  · simp only [chain_notice, chain_idleChain, noticed]
    exact ⟨fun e he => if_neg he, by simp, by simp, by simp⟩
  · split
    · simp only [chain_idleChain, noticed]
      exact ⟨fun e he => if_neg he, by simp, by simp, by simp⟩
    · rename_i hr
      simp only [chain_modChain, noticed]
      exact ⟨fun e he => if_neg he, by simp, by simp, fun h => absurd (h.elim .inl (fun h => .inr (.inl h))) hr⟩

theorem complete_job_none {c : ChainRef} {d : Desc} (hd : (s.chain c).desc = some d) (w : Completion) :
    (s.complete c w).job c = none := by
  unfold State.job
  rw [(complete_chain hd w).2.2.1]
  rfl

/-- A completion leaves files that no drain could orphan: those that are not OPEN or HALTED. -/
theorem complete_files (s : State) (c : ChainRef) (w : Completion) {k : Nat} {f : FileEntry} (hf : tget s.files k = some f)
    (ho : f.state ≠ .opened) (hh : f.state ≠ .halted) : tget (s.complete c w).files k = some f := by
  have orphaned : ∀ (u : State) (p : PortId), tget u.files k = some f → tget (u.orphanFiles p).files k = some f := by
    intro u p hu
    have e : orphanFile p f = f := by
      unfold orphanFile
      cases hs : f.state <;> simp_all
    unfold State.orphanFiles
    rw [State.setFiles_files, tget_map, hu, Option.map_some, e]
  have idled : ∀ (u : State), tget u.files k = some f → tget (u.idleChain c).files k = some f := by
    intro u hu
    unfold State.idleChain State.settleDrain
    split
    · exact orphaned _ _ hu
    · exact hu
  have noticed : ∀ (u : State) (kind : NoticeKind) (o : NoticeObject), tget u.files k = some f →
      tget (u.notice c.port kind o).files k = some f := fun u kind o hu => by
    rw [(notice_frame u c.port kind o).files (by decide)]; exact hu
  unfold State.complete
  split
  · exact hf
  · rename_i d _
    dsimp only
    have posted : tget (s.emit (.completion c.port (d.addr + 32) w)).files k = some f := hf
    have first : tget (if d.notify then (s.emit (.completion c.port (d.addr + 32) w)).notice c.port .descriptorDone
          (.chain c.chain d.addr) else s.emit (.completion c.port (d.addr + 32) w)).files k = some f := by
      split
      · exact noticed _ _ _ posted
      · exact posted
    generalize (if d.notify then (s.emit (.completion c.port (d.addr + 32) w)).notice c.port .descriptorDone
      (.chain c.chain d.addr) else s.emit (.completion c.port (d.addr + 32) w)) = u at first ⊢
    have told : ∀ {v : State}, tget v.files k = some f → tget (if w.status = .fetchTimeout then
        v.notice c.port .fetchTimeout (.chain c.chain d.addr) else v).files k = some f := fun {v} hv => by
      split
      · exact noticed _ _ _ hv
      · exact hv
    refine told ?_
    split
    · exact noticed _ _ _ (idled _ first)
    · split
      · exact idled _ first
      · exact first

/-! ## A descriptor refused, and one that finishes -/

/-- A descriptor's own effect begins with every port's state as it was. -/
theorem state_holding (s : State) (a : At) (q : PortId) : ((s.holding a).port q).state = (s.port q).state :=
  state_modChain s _ _ q

theorem desc_holding (s : State) (a : At) : ((s.holding a).chain (refOf a)).desc
    = some { addr := s.fetchAddress a, notify := a.notify, haltOnError := a.haltOnError, job := none } := by
  rw [chain_holding]
  rfl

/-- The port of a chain that holds its descriptor. -/
theorem port_holding (s : State) (a : At) (p : PortId) :
    (s.holding a).port p = if p = a.port
      then { s.port a.port with
        chains := vmod (s.port a.port).chains a.chain (fun k => { k with
          next := k.next + 64
          desc := some { addr := k.next, notify := a.notify, haltOnError := a.haltOnError, job := none } }) }
      else s.port p := port_modPort _ _ _ _

/-- A refusal writes its completion, and changes nothing but chains and notices. -/
theorem refuse_refusedWith {a : At} {role : Role} (h : s.arrives a role) (st : Status) :
    s.refusedWith a st ((s.holding a).refuse a st) := by
  have hp : ((s.holding a).port (refOf a).port).state ≠ .draining := by
    rw [state_holding]
    exact fun e => by cases h.opened.symm.trans e
  refine ⟨?_, ?_⟩
  · exact sameBut_then (holding_frame s a) (complete_undrained_frame _ hp) (by decide) (by decide)
  · obtain ⟨more, hm⟩ := complete_posts (desc_holding s a) (Completion.plain st 0)
    exact ⟨more, hm⟩

theorem vmod_vmod {α : Type} {n : Nat} (v : Vector α n) (i : Fin n) (f g : α → α) :
    vmod (vmod v i f) i g = vset v i (g (f v[i.val])) := by
  unfold vmod vset
  ext j hj
  simp only [Vector.getElem_set]
  split <;> simp_all

/-- The ports, port by port, fix the vector of them. -/
theorem ports_ext {v : Vector Port 4} (h : ∀ p : PortId, t.port p = v[p.val]) : t.ports = v := by
  ext i hi
  exact h ⟨i, hi⟩

/-- A descriptor of an OPEN port that completes without an error finishes, whatever its own effect did elsewhere. -/
theorem complete_finishes {a : At} {role : Role} {u : State} {posted : List Output} {w : Completion}
    (h : s.arrives a role) (hp : u.ports = (s.holding a).ports) (ho : u.out = s.out ++ posted)
    (hw : Status.isError w.status = false) :
    s.finishes a posted w (u.complete (refOf a) w) ∧ u.sameBut [.ports, .out] (u.complete (refOf a) w) := by
  have hd := (congrArg Chain.desc (chain_of_ports hp (refOf a))).trans (desc_holding s a)
  have he : ¬ (a.haltOnError = true ∧ Status.isError w.status = true ∧ w.status ≠ .stopped) := fun e => by
    rw [hw] at e; exact absurd e.2.1 (by decide)
  have hs : w.status ≠ .stopped := fun e => by rw [e] at hw; cases hw
  have ht : w.status ≠ .fetchTimeout := fun e => by rw [e] at hw; cases hw
  have hq : (u.port (refOf a).port).state ≠ .draining := by
    rw [port_of_ports hp, state_holding]
    exact fun e => by cases h.opened.symm.trans e
  have frame := complete_goesOn_frame hd he hs ht hq
  refine ⟨⟨?_, ?_⟩, frame⟩
  · refine ports_ext fun p => ?_
    rw [complete_goesOn_port hd he hs ht hq, port_of_ports hp]
    unfold State.portsAfter
    rw [port_holding]
    by_cases e : p = a.port
    · subst e
      simp only [refOf, if_true, vmod_get_self, vmod_vmod]
      cases a.notify <;> rfl
    · rw [vmod_get_of_ne _ e, if_neg (show ¬ p = (refOf a).port from e), if_neg e]
      rfl
  · rw [complete_goesOn_out hd he hs ht hq, ho, frame.clock (by decide), port_of_ports hp]
    unfold State.endPosts chainNotice noticePosts
    rw [port_holding, if_pos (show (refOf a).port = a.port from rfl)]
    cases (s.port a.port).area with
    | none => rfl
    | some area => rfl

/-- A descriptor that ends DONE after an effect that neither posts nor touches a port. -/
theorem done_finishes {a : At} {role : Role} {u : State} {l : List Part} (h : s.arrives a role) (f : (s.holding a).sameBut l u)
    (hp : Part.ports ∉ l) (ho : Part.out ∉ l) (r : Results) :
    s.finishes a [] (Completion.doneWith r) (u.done a r) ∧ u.sameBut [.ports, .out] (u.done a r) :=
  complete_finishes h (f.ports hp) (by rw [f.out ho, List.append_nil]; rfl) rfl

end Sys2Proof.Machine
end

section
/-!
SUPPORT. Registering streams and files: what each command does to its table.
-/

namespace Sys2Proof.Machine

variable {s t : State}

/-! ## Finding streams -/

theorem findStream_holding (s : State) (a : At) (source : Nat) : (s.holding a).findStream source = s.findStream source := by
  unfold State.findStream
  rw [(holding_frame s a).streams (by decide)]

/-- A source id is registered where some stream bears it (R3). -/
theorem findStream_isSome_iff (s : State) (source : Nat) :
    (s.findStream source).isSome = true ↔ ∃ p ∈ s.streams, p.2.source = source := by
  unfold State.findStream
  simp [List.find?_isSome]

theorem findStream_eq_none_iff (s : State) (source : Nat) :
    s.findStream source = none ↔ ∀ p ∈ s.streams, p.2.source ≠ source := by
  unfold State.findStream
  simp [List.find?_eq_none]

/-- A stream that is found stands in the table at its slot. -/
theorem tget_of_findStream (h : Table.rising s.streams = true) {source slot : Nat} {st : Stream}
    (hf : s.findStream source = some (slot, st)) : tget s.streams slot = some st :=
  tget_of_mem h (List.mem_of_find?_eq_some hf)

theorem findFile_holding (s : State) (a : At) (source fileNo : Nat) :
    (s.holding a).findFile source fileNo = s.findFile source fileNo := by
  unfold State.findFile
  rw [findStream_holding]
  rfl

/-- A file that is found stands in the file table, under its file number, at its stream's file slot (R7). -/
theorem findFile_spec {source fileNo k : Nat} {f : FileEntry} (h : s.findFile source fileNo = some (k, f)) :
    ∃ slot st, s.findStream source = some (slot, st) ∧ st.file = some k ∧ tget s.files k = some f ∧ f.fileNo = fileNo := by
  unfold State.findFile at h
  split at h
  · rename_i slot st hs
    split at h
    · rename_i j hj
      split at h
      · rename_i g hg
        split at h
        · rename_i hn
          obtain ⟨rfl, rfl⟩ := Prod.mk.inj (Option.some.inj h)
          exact ⟨slot, st, hs, hj, hg, hn⟩
        · cases h
      · cases h
    · cases h
  · cases h

/-! ## Tables with one row changed -/

theorem sameAway_tput {α : Type} (t : Table α) (n : Nat) (v : α) : sameAway n t (tput t n v) :=
  fun _ hk => tget_tput_of_ne hk t v

theorem sameAway_tdel {α : Type} (t : Table α) (n : Nat) : sameAway n t (tdel t n) := fun k hk => by
  rw [tget_tdel, if_neg hk]

theorem sameAway_tmod {α : Type} (t : Table α) (n : Nat) (f : α → α) : sameAway n t (tmod t n f) := fun k hk => by
  rw [tget_tmod, if_neg hk]

/-! ## STREAM_OPEN and STREAM_CLOSE -/

/-- What STREAM_OPEN does with valid arguments and an unregistered source, where its lowest FREE slot is `slot`. -/
theorem openStream_taken {a : At} {source cls : Nat} {fill : Byte} {mask : BitVec 8} {first : Seq} {widths force : Three}
    {samples tolerance slot : Nat} (hb : ¬ (7 < cls ∨ 7 < tolerance ∨ fill = 0xD1 ∨ fill = 0xE7))
    (hr : s.findStream source = none) (hl : lowestFree s.streams 256 = some slot) :
    s.openStream a source cls fill mask first widths force samples tolerance
      = (s.setStreams (tput s.streams slot
          (Stream.opening source cls fill mask first widths force samples tolerance))).done a (.slot slot) := by
  unfold State.openStream
  rw [if_neg hb, hr, hl]
  rfl

theorem not_registered_iff (s : State) (source : Nat) :
    (¬ ∃ p ∈ s.streams, p.2.source = source) ↔ s.findStream source = none := by
  rw [← findStream_isSome_iff]
  simp

end Sys2Proof.Machine

open Sys2Proof Sys2Proof.Machine

/-- Settles O3: the tests of STREAM_OPEN in their order, and both outcomes of STREAM_CLOSE. -/
theorem streamTableOpensAndCloses : Obligations.StreamTableOpensAndCloses := by
  unfold Obligations.StreamTableOpensAndCloses
  refine ⟨fun s a source cls fill mask first widths force samples tolerance h rising => ?_, fun s a source h => ?_⟩
  · have streams : (s.holding a).streams = s.streams := (holding_frame s a).streams (by decide)
    refine ⟨_, rfl, ?_⟩
    unfold streamOpen
    rw [descriptor_of_arrives h]
    refine ⟨fun bad => ?_, fun ok reg => ?_, fun ok fresh full => ?_, fun ok fresh slot free least => ?_⟩
    · unfold State.openStream
      rw [if_pos bad]
      exact refuse_refusedWith h _
    · unfold State.openStream
      rw [if_neg ok, findStream_holding, if_pos ((findStream_isSome_iff s source).mpr reg)]
      exact refuse_refusedWith h _
    · have hr := (not_registered_iff s source).mp fresh
      have hn : lowestFree (s.holding a).streams 256 = none := by
        rw [streams, lowestFree_none rising]
        exact fun k hk hf => full k ⟨hk, hf⟩
      unfold State.openStream
      rw [if_neg ok, findStream_holding, hr, hn]
      exact refuse_refusedWith h _
    · have hr := (not_registered_iff s source).mp fresh
      have hl : lowestFree (s.holding a).streams 256 = some slot := by
        rw [streams, lowestFree_spec rising]
        exact ⟨free.1, free.2, fun m hm hf => least m hm ⟨Nat.lt_trans hm free.1, hf⟩⟩
      rw [openStream_taken ok (by rw [findStream_holding]; exact hr) hl]
      have effect := setStreams_frame (s.holding a)
        (tput (s.holding a).streams slot (Stream.opening source cls fill mask first widths force samples tolerance))
      obtain ⟨ends, frame⟩ := done_finishes h effect (by decide) (by decide) (.slot slot)
      rw [frame.streams (by decide), State.setStreams_streams, streams]
      refine ⟨tget_tput_self _ _ _, sameAway_tput _ _ _, ends, ?_⟩
      exact sameBut_then (sameBut_then (m := [.streams, .ports]) (holding_frame s a) effect (by decide) (by decide)) frame
        (by decide) (by decide)
  · refine ⟨_, rfl, ?_⟩
    unfold streamClose
    rw [descriptor_of_arrives h]
    unfold State.closeStream
    rw [findStream_holding]
    refine ⟨fun absent => ?_, fun slot st found => ⟨fun busy => ?_, fun idle => ?_⟩⟩
    · rw [(findStream_eq_none_iff s source).mpr absent]
      exact refuse_refusedWith h _
    · rw [found]
      dsimp only
      rw [if_pos (Option.isSome_iff_ne_none.mpr busy)]
      exact refuse_refusedWith h _
    · rw [found]
      dsimp only
      rw [idle]
      have effect := setStreams_frame (s.holding a) (tdel (s.holding a).streams slot)
      obtain ⟨ends, frame⟩ := done_finishes h effect (by decide) (by decide) .none
      simp only [Option.isSome_none, Bool.false_eq_true, if_false]
      rw [frame.streams (by decide), State.setStreams_streams, (holding_frame s a).streams (by decide)]
      refine ⟨tget_tdel_self _ _, sameAway_tdel _ _, ends, ?_⟩
      exact sameBut_then (sameBut_then (m := [.streams, .ports]) (holding_frame s a) effect (by decide) (by decide)) frame
        (by decide) (by decide)

/-- Settles O6: the lowest unused file entry is set up, and its stream bears its number. -/
theorem fileOpenSetsUpTheEntry : Obligations.FileOpenSetsUpTheEntry := by
  unfold Obligations.FileOpenSetsUpTheEntry
  intro s a source fileNo minutes slot k st h risingStreams risingFiles short found idle small unused least
  have streams : (s.holding a).streams = s.streams := (holding_frame s a).streams (by decide)
  have files : (s.holding a).files = s.files := (holding_frame s a).files (by decide)
  have hl : lowestFree (s.holding a).files 32 = some k := by
    rw [files, lowestFree_spec risingFiles]
    exact ⟨small, unused, least⟩
  have effect : (s.holding a).sameBut [.streams, .files]
      (((s.holding a).setFiles (tput (s.holding a).files k (FileEntry.opening fileNo slot a.port minutes))).modStream slot
        (fun st => { st with file := some k, sticky := 0, lastFault := none })) :=
    sameBut_then (setFiles_frame _ _) (setStreams_frame _ _) (by decide) (by decide)
  obtain ⟨ends, frame⟩ := done_finishes h effect (by decide) (by decide) .none
  refine ⟨_, rfl, ?_⟩
  unfold fileOpen
  rw [descriptor_of_arrives h]
  unfold State.openFile
  rw [if_neg (Nat.not_lt.mpr short), findStream_holding, found]
  dsimp only
  rw [idle, hl]
  simp only [Option.isSome_none, Bool.false_eq_true, if_false]
  rw [frame.files (by decide), frame.streams (by decide)]
  refine ⟨?_, ?_, ?_, ?_, ends, ?_⟩
  · rw [State.modStream, State.setStreams_files, State.setFiles_files, tget_tput_self, Nat.mul_comm]
    rfl
  · rw [State.modStream, State.setStreams_files, State.setFiles_files, files]
    exact sameAway_tput _ _ _
  · rw [State.modStream, State.setStreams_streams, State.setFiles_streams, streams, tget_tmod, if_pos rfl,
      tget_of_findStream risingStreams found]
    rfl
  · rw [State.modStream, State.setStreams_streams, State.setFiles_streams, streams]
    exact sameAway_tmod _ _ _
  · exact sameBut_then (sameBut_then (m := [.streams, .files, .ports]) (holding_frame s a) effect (by decide) (by decide))
      frame (by decide) (by decide)

end

section
/-!
SUPPORT. Waiting for a codec lane: what it changes of the arbiter, of a chain and of a port's tag.
-/

namespace Sys2Proof.Machine

variable {s t : State}

theorem port_modChain (s : State) (c : ChainRef) (f : Chain → Chain) (q : PortId) :
    (s.modChain c f).port q
      = if q = c.port then { s.port c.port with chains := vmod (s.port c.port).chains c.chain f } else s.port q :=
  port_modPort _ _ _ _

theorem chain_modPort_of_chains (s : State) (p : PortId) (f : Port → Port) (h : (f (s.port p)).chains = (s.port p).chains)
    (d : ChainRef) : (s.modPort p f).chain d = s.chain d := by
  obtain ⟨q, m⟩ := d
  unfold State.chain
  rw [port_modPort]
  dsimp only
  split
  · rename_i e; subst e; simp only [h]
  · rfl

theorem waitForLane_arbiter (s : State) (c : ChainRef) :
    (s.waitForLane c).arbiter = { s.arbiter with
      waiting := vset s.arbiter.waiting c.port (s.arbiter.waiting[c.port.val] ++ [c.chain]) } := by
  unfold State.waitForLane
  dsimp only
  split <;> rfl

theorem waitForLane_chain (s : State) (c d : ChainRef) :
    (s.waitForLane c).chain d = if d = c then { s.chain c with state := .waiting } else s.chain d := by
  have raised : ∀ d, (if s.arbiter.waiting[c.port.val].isEmpty then
      s.modPort c.port (fun q => { q with tag := max q.tag s.arbiter.g }) else s).chain d = s.chain d := fun d => by
    split
    · exact chain_modPort_of_chains _ _ _ rfl _
    · rfl
  have charged : ∀ (u : State) (v : Arbiter) (d : ChainRef), (u.setArbiter v).chain d = u.chain d := fun _ _ _ => rfl
  unfold State.waitForLane State.setChainState
  dsimp only
  simp only [chain_modChain, charged, raised]

/-- The tag of a port with nothing waiting rises to G (R165). -/
theorem waitForLane_tag (s : State) (c : ChainRef) :
    ((s.waitForLane c).port c.port).tag
      = if s.arbiter.waiting[c.port.val] = [] then max (s.port c.port).tag s.arbiter.g else (s.port c.port).tag := by
  have charged : ∀ (u : State) (v : Arbiter) (q : PortId), (u.setArbiter v).port q = u.port q := fun _ _ _ => rfl
  unfold State.waitForLane State.setChainState
  dsimp only
  rw [port_modChain, if_pos rfl]
  dsimp only
  rw [charged]
  by_cases h : s.arbiter.waiting[c.port.val] = []
  · rw [if_pos (List.isEmpty_iff.mpr h), if_pos h, port_modPort, if_pos rfl]
  · rw [if_neg (fun e => h (List.isEmpty_iff.mp e)), if_neg h]

theorem waitForLane_port_of_ne (s : State) (c : ChainRef) {q : PortId} (h : q ≠ c.port) :
    (s.waitForLane c).port q = s.port q := by
  have charged : ∀ (u : State) (v : Arbiter) (q : PortId), (u.setArbiter v).port q = u.port q := fun _ _ _ => rfl
  unfold State.waitForLane State.setChainState
  dsimp only
  rw [port_modChain, if_neg h, charged]
  split
  · rw [port_modPort, if_neg h]
  · rfl

/-- The chain that a descriptor's own effect sets a job in. -/
theorem chain_setJob_holding (s : State) (a : At) (j : Job) :
    ((s.holding a).setJob (refOf a) j).chain (refOf a)
      = { s.chain (refOf a) with
          next := s.fetchAddress a + 64
          desc := some { addr := s.fetchAddress a, notify := a.notify, haltOnError := a.haltOnError, job := some j } } := by
  unfold State.setJob
  rw [chain_modChain, if_pos rfl, chain_holding]
  rfl

theorem port_setJob_holding_of_ne (s : State) (a : At) (j : Job) {q : PortId} (h : q ≠ (refOf a).port) :
    ((s.holding a).setJob (refOf a) j).port q = s.port q := by
  unfold State.setJob State.holding
  rw [port_modChain, if_neg h, port_modChain, if_neg h]

theorem tag_setJob_holding (s : State) (a : At) (j : Job) (q : PortId) :
    (((s.holding a).setJob (refOf a) j).port q).tag = (s.port q).tag := by
  unfold State.setJob State.holding
  rw [port_modChain]
  split
  · rename_i h; subst h; rw [port_modChain, if_pos rfl]
  · rename_i h; rw [port_modChain, if_neg h]

end Sys2Proof.Machine

open Sys2Proof Sys2Proof.Machine

/-- Settles O7: the feed becomes its descriptor's job, and its chain joins its port's waiting list. -/
theorem fileFeedWaitsForALane : Obligations.FileFeedWaitsForALane := by
  unfold Obligations.FileFeedWaitsForALane
  intro s a buf source fileNo k f h fits whole found owner opened
  refine ⟨_, rfl, ?_⟩
  have places : countRead buf.count % 32 = 0 := by
    unfold countRead
    split
    · rfl
    · exact whole
  have run : fileFeed a buf source fileNo s = ((s.holding a).setJob (refOf a)
      (.feed (Feed.begin k f.stream source (countRead buf.count)))).waitForLane (refOf a) := by
    unfold fileFeed
    rw [bufferDescriptor_of_arrives h fits]
    unfold State.takeFeed
    dsimp only
    rw [if_neg (not_not_intro places), findFile_holding, found]
    exact if_pos ⟨owner, opened⟩
  rw [run]
  generalize hj : Job.feed (Feed.begin k f.stream source (countRead buf.count)) = j
  have set : s.sameBut [.ports] ((s.holding a).setJob (refOf a) j) :=
    sameBut_trans (holding_frame s a) (setJob_frame _ _ _)
  have frame := sameBut_then (m := [.ports, .arbiter]) set (waitForLane_frame _ (refOf a)) (by decide) (by decide)
  refine ⟨⟨?_, frame.out (by decide)⟩, ?_, ?_, fun q hq => ?_, frame⟩
  · rw [waitForLane_chain, if_pos rfl, chain_setJob_holding, ← hj]
    rfl
  · rw [waitForLane_arbiter, set.arbiter (by decide)]
    rfl
  · show (State.port _ (refOf a).port).tag = _
    rw [waitForLane_tag, set.arbiter (by decide), tag_setJob_holding]
    rfl
  · rw [waitForLane_port_of_ne _ (refOf a) hq, port_setJob_holding_of_ne s a j hq]

end

section
/-!
SUPPORT. Resuming and adopting a file: fresh attempts of FAILED segments, and hand-overs that do not happen.
-/

namespace Sys2Proof.Machine

variable {s t : State}

/-! ## Hand-overs that do not happen -/

/-- A file that is not closing, or has segments in flight, is not handed over. -/
theorem handOver_of_not_ready {k : Nat} {f : FileEntry} (hf : tget s.files k = some f)
    (h : f.closingCause = none ∨ f.segsInFlight ≠ 0) : s.handOver k = s := by
  unfold State.handOver
  rw [hf]
  dsimp only
  split
  · rename_i cause hc _
    rcases h with h | h
    · rw [h] at hc; cases hc
    · exact if_neg (fun e => h e.2.2)
  · rfl

/-! ## Fresh attempts (R82) -/

theorem freshAttempts_frame (s : State) (b : Nat) : s.sameBut [.stager, .store] (s.freshAttempts b) := by
  unfold State.freshAttempts
  split
  · split
    · exact sameBut_then (setBuf_frame _ _ _) (joinSeals_frame _ _) (by decide) (by decide)
    · exact sameBut_refl _ s
  · exact sameBut_refl _ s

/-- A FAILED buffer becomes SEALING with attempt 1 and waits to be sealed. -/
theorem freshAttempts_of_failed {b : Nat} {v : Staging} {h : SegHeader} (hv : tget s.stager.bufs b = some v)
    (hs : v.state = .failed h) :
    tget (s.freshAttempts b).stager.bufs b = some { v with state := .sealing h 1 none }
      ∧ b ∈ (s.freshAttempts b).stager.seals := by
  unfold State.freshAttempts
  rw [hv]
  dsimp only
  rw [hs]
  exact ⟨by simp [State.joinSeals], (mem_insertSeal _ _ _ _).mpr (.inl rfl)⟩

/-- Fresh attempts of a buffer leave every buffer that is not FAILED, and every seal that waits. -/
theorem freshAttempts_keeps {b c : Nat} {v : Staging} (hv : tget s.stager.bufs b = some v)
    (hs : (∀ h, v.state ≠ .failed h) ∨ b ≠ c) :
    tget (s.freshAttempts c).stager.bufs b = some v ∧ ∀ d ∈ s.stager.seals, d ∈ (s.freshAttempts c).stager.seals := by
  unfold State.freshAttempts
  split
  · rename_i w hw
    split
    · rename_i h hh
      have hne : b ≠ c := by
        rintro rfl
        obtain rfl := Option.some.inj (hv.symm.trans hw)
        exact hs.elim (fun e => e h hh) (fun e => e rfl)
      refine ⟨?_, fun d hd => (mem_insertSeal _ _ _ _).mpr (.inr hd)⟩
      simp [State.joinSeals, hne, hv]
    · exact ⟨hv, fun _ hd => hd⟩
  · exact ⟨hv, fun _ hd => hd⟩

/-- A SEALING buffer that waits to be sealed still does after fresh attempts of any buffers. -/
theorem foldl_freshAttempts_keeps {b : Nat} {v : Staging} (l : List Nat) (hv : tget s.stager.bufs b = some v)
    (hs : ∀ h, v.state ≠ .failed h) (hw : b ∈ s.stager.seals) :
    tget (l.foldl State.freshAttempts s).stager.bufs b = some v ∧ b ∈ (l.foldl State.freshAttempts s).stager.seals := by
  induction l generalizing s with
  | nil => exact ⟨hv, hw⟩
  | cons c l ih =>
    obtain ⟨kept, waits⟩ := freshAttempts_keeps (c := c) hv (.inl hs)
    exact ih kept (waits b hw)

theorem foldl_freshAttempts_of_failed {b : Nat} {v : Staging} {h : SegHeader} {l : List Nat}
    (hv : tget s.stager.bufs b = some v) (hs : v.state = .failed h) (hb : b ∈ l) :
    tget (l.foldl State.freshAttempts s).stager.bufs b = some { v with state := .sealing h 1 none }
      ∧ b ∈ (l.foldl State.freshAttempts s).stager.seals := by
  induction l generalizing s with
  | nil => cases hb
  | cons c l ih =>
    rw [List.foldl_cons]
    by_cases e : b = c
    · subst e
      obtain ⟨fresh, waits⟩ := freshAttempts_of_failed hv hs
      exact foldl_freshAttempts_keeps l fresh (fun _ => BufState.noConfusion) waits
    · exact ih (freshAttempts_keeps hv (.inr e)).1 ((List.mem_cons.mp hb).resolve_left e)

/-- Where no seal waits for a queue place, none begins to, and the store stays. -/
theorem foldl_freshAttempts_store (h : PlaceReq.seal ∉ s.store.placeWait) (l : List Nat) :
    (l.foldl State.freshAttempts s).store = s.store := by
  induction l generalizing s with
  | nil => rfl
  | cons c l ih =>
    have one : (s.freshAttempts c).store = s.store := by
      unfold State.freshAttempts
      split
      · split
        · exact sealPlace_of_none _ h
        · rfl
      · rfl
    rw [List.foldl_cons, ih (by rw [one]; exact h), one]

/-! ## FILE_RESUME and FILE_ADOPT before their completion -/

/-- The state in which FILE_RESUME of a HALTED file completes. -/
def State.resumed (s : State) (k : Nat) (f : FileEntry) : State :=
  if f.haltCause = some .store then
    (((s.modFile k FileEntry.resumed).stager.bufs.filter (fun p => p.2.failedOf f)).map Prod.fst).foldl State.freshAttempts
      (s.modFile k FileEntry.resumed)
  else s.modFile k FileEntry.resumed

theorem resumed_frame (s : State) (k : Nat) (f : FileEntry) : s.sameBut [.files, .stager, .store] (s.resumed k f) := by
  unfold State.resumed
  have file := sameBut_mono (m := [.files, .stager, .store]) (modFile_frame s k FileEntry.resumed) (by decide)
  refine sameBut_ite (sameBut_trans file (sameBut_mono (l := [.stager, .store]) ?_ (by decide))) file
  exact sameBut_foldl freshAttempts_frame _ _

theorem resumed_files (s : State) (k : Nat) (f : FileEntry) : (s.resumed k f).files = tmod s.files k FileEntry.resumed := by
  unfold State.resumed
  split
  · exact (sameBut_foldl freshAttempts_frame _ _).files (by decide)
  · rfl

theorem resumed_stager {f : FileEntry} (h : f.haltCause ≠ some .store) (k : Nat) : (s.resumed k f).stager = s.stager := by
  unfold State.resumed
  rw [if_neg h]
  rfl

theorem resumed_store {f : FileEntry} (h : PlaceReq.seal ∉ s.store.placeWait ∨ f.haltCause ≠ some .store) (k : Nat) :
    (s.resumed k f).store = s.store := by
  unfold State.resumed
  split
  · rename_i e
    exact foldl_freshAttempts_store (s := s.modFile k FileEntry.resumed) (h.resolve_right (fun n => n e)) _
  · rfl

theorem failedOf_of_failed {f : FileEntry} {v : Staging} {h : SegHeader} (hs : v.stream = f.stream) (hn : v.fileNo = f.fileNo)
    (hf : v.state = .failed h) : v.failedOf f = true := by
  unfold Staging.failedOf
  rw [hf]
  simp [hs, hn]

theorem resumed_failed {f : FileEntry} {b : Nat} {v : Staging} {h : SegHeader} (hc : f.haltCause = some .store) (k : Nat)
    (hv : tget s.stager.bufs b = some v) (hs : v.stream = f.stream) (hn : v.fileNo = f.fileNo) (hf : v.state = .failed h) :
    tget (s.resumed k f).stager.bufs b = some { v with state := .sealing h 1 none } ∧ b ∈ (s.resumed k f).stager.seals := by
  unfold State.resumed
  rw [if_pos hc]
  refine foldl_freshAttempts_of_failed (s := s.modFile k FileEntry.resumed) hv hf ?_
  exact List.mem_map.mpr ⟨(b, v), List.mem_filter.mpr ⟨mem_of_tget hv, failedOf_of_failed hs hn hf⟩, rfl⟩

theorem resumed_entry (f : FileEntry) :
    f.resumed = { f with haltCause := none, state := if f.closingCause = none then .opened else .closing } := by
  unfold FileEntry.resumed
  cases f.closingCause <;> rfl

end Sys2Proof.Machine

open Sys2Proof Sys2Proof.Machine

/-- Settles O8: the halt is cleared and the FAILED segments of the file get fresh attempts; an adoption changes the entry
alone. -/
theorem resumeAndAdoptReturnTheFile : Obligations.ResumeAndAdoptReturnTheFile := by
  unfold Obligations.ResumeAndAdoptReturnTheFile
  intro s a source fileNo k f h found
  obtain ⟨-, -, -, -, entry, -⟩ := findFile_spec found
  have files : (s.holding a).files = s.files := (holding_frame s a).files (by decide)
  have stager : (s.holding a).stager = s.stager := (holding_frame s a).stager (by decide)
  have store : (s.holding a).store = s.store := (holding_frame s a).store (by decide)
  refine ⟨fun halted owner goesOn => ⟨_, rfl, ?_⟩, fun orphaned => ⟨_, rfl, ?_⟩⟩
  · have effect := resumed_frame (s.holding a) k f
    obtain ⟨ends, frame⟩ := done_finishes h effect (by decide) (by decide) .none
    have result : tget (((s.holding a).resumed k f).done a .none).files k = some f.resumed := by
      rw [frame.files (by decide), resumed_files, files, tget_tmod, if_pos rfl, entry]
      rfl
    have run : fileResume a source fileNo s = ((s.holding a).resumed k f).done a .none := by
      unfold fileResume
      rw [descriptor_of_arrives h]
      unfold State.resumeFile
      rw [findFile_holding, found]
      dsimp only
      rw [if_pos ⟨owner, halted⟩]
      exact handOver_of_not_ready result goesOn
    rw [run]
    refine ⟨by rw [result, resumed_entry], ?_, fun other => ?_, fun failed b v hd hv hs hn hf => ?_, ends,
      fun quiet => ?_, ?_⟩
    · rw [frame.files (by decide), resumed_files, files]
      exact sameAway_tmod _ _ _
    · rw [frame.stager (by decide), resumed_stager other, stager]
    · rw [frame.stager (by decide)]
      exact resumed_failed failed k (by rw [stager]; exact hv) hs hn hf
    · rw [frame.store (by decide), resumed_store (by rw [store]; exact quiet), store]
    · exact sameBut_then (sameBut_then (m := [.files, .stager, .store, .ports]) (holding_frame s a) effect (by decide)
        (by decide)) frame (by decide) (by decide)
  · have effect := modFile_frame (s.holding a) k (FileEntry.adopted a.port)
    obtain ⟨ends, frame⟩ := done_finishes h effect (by decide) (by decide) .none
    unfold fileAdopt
    rw [descriptor_of_arrives h]
    unfold State.adoptFile
    rw [findFile_holding, found]
    dsimp only
    rw [if_pos orphaned, frame.files (by decide), State.modFile, State.setFiles_files, files]
    refine ⟨?_, sameAway_tmod _ _ _, ends, ?_⟩
    · rw [tget_tmod, if_pos rfl, entry]
      rfl
    · exact sameBut_then (sameBut_then (m := [.files, .ports]) (holding_frame s a) effect (by decide) (by decide)) frame
        (by decide) (by decide)

end

section
/-!
SUPPORT. The closing of a file: training at a hand-off, the freeing of FAILED buffers, and the end of the feed that holds a
lane.
-/

namespace Sys2Proof.Machine

variable {s t : State}

/-! ## Training (R65) -/

theorem fieldTrained_trainField (force maximum width tolerance : Nat) :
    fieldTrained force maximum width tolerance (trainField force maximum width tolerance).1
      (trainField force maximum width tolerance).2 := by
  unfold trainField
  refine ⟨fun h => ?_, fun h below above => ?_, fun h apart => ?_⟩
  · rw [if_pos h]
    exact ⟨rfl, rfl⟩
  · rw [if_neg (not_not_intro h), if_pos ⟨below, above⟩]
    exact ⟨rfl, rfl⟩
  · rw [if_neg (not_not_intro h), if_neg (by omega)]
    exact ⟨rfl, rfl⟩

theorem trainedFrom_trained (t : Training) (w : Three) : t.trainedFrom w (t.trained w) :=
  ⟨fieldTrained_trainField _ _ _ _, fieldTrained_trainField _ _ _ _, fieldTrained_trainField _ _ _ _, rfl, rfl, rfl, rfl⟩

/-! ## A hand-off to sealing (R60, R65, R72) -/

/-- What a hand-off to sealing of a file's open segment leaves. -/
structure State.handedOff (s : State) (k b : Nat) (f : FileEntry) (v : Staging) (st : Stream) (codec : Codec) (t : State) :
    Prop where
  files : ∀ j, tget t.files j = if j = k then some { f with segsInFlight := f.segsInFlight + 1, openSeg := none }
    else tget s.files j
  bufs : t.stager.bufs = tput s.stager.bufs b
    { v with state := .sealing (segmentHeader st.source st.cls f.fileNo s.settings.sealCounter codec) 1 none }
  seals : b ∈ t.stager.seals
  settings : t.settings = { s.settings with sealCounter := s.settings.sealCounter + 1 }
  stream : ∃ tr, tget t.streams f.stream = some { st with training := tr } ∧ st.training.trainedFrom codec.widths tr
  streams : sameAway f.stream s.streams t.streams
  store : t.store = s.store.sealPlace
  frame : s.sameBut [.streams, .stager, .store, .settings, .files] t

theorem handedOff_handOff {k b : Nat} {f : FileEntry} {v : Staging} {st : Stream} {codec : Codec}
    (hf : tget s.files k = some f) (hb : f.openSeg = some b) (hv : tget s.stager.bufs b = some v)
    (hs : tget s.streams f.stream = some st) (hc : v.state = .opened codec) :
    s.handedOff k b f v st codec (s.handOff k) := by
  have frame := handOff_frame s k
  rw [handOff_spec s hf hb hv hs hc] at frame ⊢
  refine ⟨fun j => tget_tput _ _ _ _, rfl, (mem_insertSeal _ _ _ _).mpr (.inl rfl), rfl, ⟨_, ?_, trainedFrom_trained _ _⟩,
    sameAway_tmod _ _ _, rfl, frame⟩
  show tget (tmod s.streams f.stream _) f.stream = _
  rw [tget_tmod, if_pos rfl, hs]
  rfl

/-! ## Counting in a table -/

/-- A table in which a number's value is replaced counts the same, where neither value counts. -/
theorem countP_tput {α : Type} {p : Nat × α → Bool} {t : Table α} {n : Nat} {v w : α} (hv : tget t n = some v)
    (h : p (n, v) = false) (k : p (n, w) = false) : (tput t n w).countP p = t.countP p := by
  induction t with
  | nil => cases hv
  | cons q t ih =>
    obtain ⟨m, x⟩ := q
    unfold tput
    split
    · rw [List.countP_cons_of_neg (by simp [k])]
    · rename_i below
      rw [tget_cons] at hv
      split
      · rename_i e
        subst e
        rw [if_pos rfl] at hv
        obtain rfl := Option.some.inj hv
        rw [List.countP_cons_of_neg (by simp [k]), List.countP_cons_of_neg (by simp [h])]
      · rename_i e
        rw [if_neg e] at hv
        simp only [List.countP_cons, ih hv]

/-- A table without a number counts the same, where that number's value does not count. -/
theorem countP_tdel {α : Type} {p : Nat × α → Bool} {t : Table α} (ht : Table.rising t = true) {n : Nat}
    (h : ∀ v, tget t n = some v → p (n, v) = false) : (tdel t n).countP p = t.countP p := by
  rw [tdel_eq_filter, List.countP_filter]
  refine List.countP_congr fun q hq => ?_
  obtain ⟨m, v⟩ := q
  have key : p (m, v) = true → m ≠ n := by
    rintro hp rfl
    rw [h v (tget_of_mem ht hq)] at hp
    cases hp
  simp only [Bool.and_eq_true, decide_eq_true_eq]
  exact ⟨fun e => e.1, fun e => ⟨e, key e⟩⟩

/-! ## The freeing of FAILED buffers (R16, R19) -/

theorem foldl_freeBuf (l : List (Nat × Staging)) (s : State) :
    l.foldl (fun s p => s.freeBuf p.1) s
      = s.setStager { s.stager with bufs := l.foldl (fun t p => tdel t p.1) s.stager.bufs } := by
  induction l generalizing s with
  | nil => rfl
  | cons p l ih => rw [List.foldl_cons, ih]; rfl

theorem tget_foldl_tdel {α : Type} (l : List (Nat × α)) (t : Table α) (b : Nat) :
    tget (l.foldl (fun t p => tdel t p.1) t) b = if ∃ p ∈ l, p.1 = b then none else tget t b := by
  induction l generalizing t with
  | nil => simp
  | cons p l ih =>
    rw [List.foldl_cons, ih, tget_tdel]
    by_cases h : ∃ q ∈ l, q.1 = b
    · rw [if_pos h, if_pos (by obtain ⟨q, hq, e⟩ := h; exact ⟨q, List.mem_cons_of_mem _ hq, e⟩)]
    · rw [if_neg h]
      by_cases e : b = p.1
      · rw [if_pos e, if_pos ⟨p, List.mem_cons_self, e.symm⟩]
      · rw [if_neg e, if_neg]
        rintro ⟨q, hq, hb⟩
        rcases List.mem_cons.mp hq with rfl | hq
        · exact e hb.symm
        · exact h ⟨q, hq, hb⟩

theorem failedOf_of_opened {v : Staging} {codec : Codec} (h : v.state = .opened codec) (f : FileEntry) :
    v.failedOf f = false := by
  simp [Staging.failedOf, h]

theorem failedOf_of_sealing {v : Staging} {h : SegHeader} {n : Nat} {x : Option Nat} (hs : v.state = .sealing h n x)
    (f : FileEntry) : v.failedOf f = false := by
  simp [Staging.failedOf, hs]

/-- The FAILED buffers of a file. -/
def State.failedBufs (s : State) (f : FileEntry) : Table Staging := s.stager.bufs.filter (fun p => p.2.failedOf f)

/-- The freeing, where there are FAILED buffers and where there are none. -/
theorem freeFailed_eq {k : Nat} {f : FileEntry} (hf : tget s.files k = some f) :
    s.freeFailed k = if (s.failedBufs f).isEmpty then s else
      ((s.setStager { s.stager with bufs := (s.failedBufs f).foldl (fun t p => tdel t p.1) s.stager.bufs }).modFile k
        (fun f' => { f' with segsInFlight := f'.segsInFlight - (s.failedBufs f).length })).recomputeL := by
  unfold State.freeFailed
  rw [hf]
  dsimp only
  rw [foldl_freeBuf]
  rfl

theorem mem_failedBufs_key (h : Table.rising s.stager.bufs = true) (f : FileEntry) (b : Nat) :
    (∃ p ∈ s.failedBufs f, p.1 = b) ↔ ∃ v, tget s.stager.bufs b = some v ∧ v.failedOf f = true := by
  unfold State.failedBufs
  constructor
  · rintro ⟨⟨b, v⟩, hp, rfl⟩
    obtain ⟨hm, hf⟩ := List.mem_filter.mp hp
    exact ⟨v, tget_of_mem h hm, hf⟩
  · rintro ⟨v, hv, hf⟩
    exact ⟨(b, v), List.mem_filter.mpr ⟨mem_of_tget hv, hf⟩, rfl⟩

/-- The buffers that stay are those that are not FAILED buffers of the file. -/
theorem freeFailed_bufs (h : Table.rising s.stager.bufs = true) {k : Nat} {f : FileEntry} (hf : tget s.files k = some f)
    (b : Nat) : tget (s.freeFailed k).stager.bufs b = (tget s.stager.bufs b).filter (fun v => !v.failedOf f) := by
  have kept : tget ((s.failedBufs f).foldl (fun t p => tdel t p.1) s.stager.bufs) b
      = (tget s.stager.bufs b).filter (fun v => !v.failedOf f) := by
    rw [tget_foldl_tdel, if_congr (mem_failedBufs_key h f b) rfl rfl]
    cases tget s.stager.bufs b with
    | none => simp
    | some v => cases hv : v.failedOf f <;> simp [Option.filter, hv]
  rw [freeFailed_eq hf]
  split
  · rename_i none
    rw [List.isEmpty_iff.mp none] at kept
    exact kept
  · exact kept

theorem freeFailed_keeps (h : Table.rising s.stager.bufs = true) {k b : Nat} {f : FileEntry} {v : Staging}
    (hf : tget s.files k = some f) (hv : tget s.stager.bufs b = some v) (hs : v.failedOf f = false) :
    tget (s.freeFailed k).stager.bufs b = some v := by
  rw [freeFailed_bufs h hf, hv]
  simp [Option.filter, hs]

theorem freeFailed_frees (h : Table.rising s.stager.bufs = true) {k b : Nat} {f : FileEntry}
    (hf : tget s.files k = some f) (hv : ∀ v, tget s.stager.bufs b = some v → v.failedOf f = true) :
    tget (s.freeFailed k).stager.bufs b = none := by
  rw [freeFailed_bufs h hf]
  cases hb : tget s.stager.bufs b with
  | none => rfl
  | some v => simp [Option.filter, hv v hb]

/-- Segments in flight falls by the number of FAILED buffers freed. -/
theorem freeFailed_files {k : Nat} {f : FileEntry} (hf : tget s.files k = some f) (j : Nat) :
    tget (s.freeFailed k).files j = if j = k
      then some { f with segsInFlight := f.segsInFlight - s.stager.bufs.countP (fun p => p.2.failedOf f) }
      else tget s.files j := by
  have count : s.stager.bufs.countP (fun p => p.2.failedOf f) = (s.failedBufs f).length := List.countP_eq_length_filter
  rw [freeFailed_eq hf, count]
  split
  · rename_i none
    rw [List.isEmpty_iff.mp none]
    split
    · rename_i e; rw [e, hf]; rfl
    · rfl
  · show tget (State.modFile _ k _).files j = _
    rw [tget_modFile, State.setStager_files, hf]
    rfl

/-- What the freeing leaves of the seal wait list and the seal serial counter. -/
theorem freeFailed_seals (s : State) (k : Nat) :
    (s.freeFailed k).stager.seals = s.stager.seals ∧ (s.freeFailed k).settings.sealCounter = s.settings.sealCounter := by
  cases hf : tget s.files k with
  | none => unfold State.freeFailed; rw [hf]; exact ⟨rfl, rfl⟩
  | some f =>
    rw [freeFailed_eq hf]
    split
    · exact ⟨rfl, rfl⟩
    · exact ⟨rfl, rfl⟩

/-! ## The end of the feed that holds a lane -/

theorem leaveFeed_bufs (s : State) (c : ChainRef) :
    (s.leaveFeed c).stager.bufs = s.stager.bufs ∧ (s.leaveFeed c).stager.seals = s.stager.seals := by
  unfold State.leaveFeed
  dsimp only
  rw [(leaveAppend_frame _ c).stager (by decide)]
  exact ⟨rfl, rfl⟩

theorem endFeed_bufs (s : State) (c : ChainRef) (st : Status) (b : Bool) :
    (s.endFeed c st b).stager.bufs = s.stager.bufs ∧ (s.endFeed c st b).stager.seals = s.stager.seals := by
  unfold State.endFeed
  split
  · dsimp only
    rw [(complete_frame _ c _).stager (by decide)]
    exact leaveFeed_bufs s c
  · exact ⟨rfl, rfl⟩

theorem endFeedOf_bufs (s : State) (k : Nat) (st : Status) :
    (s.endFeedOf k st).stager.bufs = s.stager.bufs ∧ (s.endFeedOf k st).stager.seals = s.stager.seals := by
  unfold State.endFeedOf
  split
  · exact endFeed_bufs s _ _ _
  · exact ⟨rfl, rfl⟩

/-- The end of a feed leaves the files that no drain could orphan: those neither OPEN nor HALTED. -/
theorem endFeed_files (s : State) (c : ChainRef) (st : Status) (b : Bool) {k : Nat} {f : FileEntry}
    (hf : tget s.files k = some f) (ho : f.state ≠ .opened) (hh : f.state ≠ .halted) :
    tget (s.endFeed c st b).files k = some f := by
  unfold State.endFeed
  split
  · exact complete_files _ c _ (by rw [(leaveFeed_frame s c).files (by decide)]; exact hf) ho hh
  · exact hf

theorem endFeedOf_files (s : State) (j : Nat) (st : Status) {k : Nat} {f : FileEntry}
    (hf : tget s.files k = some f) (ho : f.state ≠ .opened) (hh : f.state ≠ .halted) :
    tget (s.endFeedOf j st).files k = some f := by
  unfold State.endFeedOf
  split
  · exact endFeed_files s _ _ _ hf ho hh
  · exact hf

theorem endFeedOf_of_none {k : Nat} (h : s.feedOn k = none) (st : Status) : s.endFeedOf k st = s := by
  unfold State.endFeedOf
  rw [h]

theorem feedOn_congr (h : ∀ c, t.feed c = s.feed c) (k : Nat) : t.feedOn k = s.feedOn k := by
  unfold State.feedOn
  simp only [h]

theorem feed_of_ports (h : t.ports = s.ports) (c : ChainRef) : t.feed c = s.feed c :=
  feed_of_job (job_of_chain (chain_of_ports h c))

end Sys2Proof.Machine

open Sys2Proof Sys2Proof.Machine

/-- Settles O10: the open segment goes to sealing, the FAILED segments are discarded, and what then ends the file's feed
leaves the file CLOSING. -/
theorem deadlineExpiryClosesTheFile : Obligations.DeadlineExpiryClosesTheFile := by
  unfold Obligations.DeadlineExpiryClosesTheFile
  intro s k b f v codec st hf running live due seg hv hc hst rising failed fewer
  refine ⟨s.expireDeadline k, rfl, ?_⟩
  have closing : tget (s.modFile k (FileEntry.closing .deadline)).files k = some (f.closing .deadline) := by
    rw [tget_modFile, if_pos rfl, hf]; rfl
  have handed := handedOff_handOff closing seg hv hst hc
  obtain ⟨files, bufs, seals, settings, ⟨training, stream, trained⟩, streams, store, frame⟩ := handed
  have expired : s.expireDeadline k
      = ((((s.modFile k (FileEntry.closing .deadline)).handOff k).freeFailed k).endFeedOf k .refusedState).handOver k := by
    unfold State.expireDeadline
    rw [hf]
    exact if_pos ⟨by simpa [FileEntry.deadlineRuns, running, or_assoc] using live, due⟩
  generalize (s.modFile k (FileEntry.closing .deadline)).handOff k = u at *
  have risen : Table.rising u.stager.bufs = true := by rw [bufs]; exact rising_tput rising _ _
  have count : u.stager.bufs.countP (fun p => p.2.failedOf f) = failed := by
    rw [bufs]
    exact countP_tput hv (failedOf_of_opened hc f) (failedOf_of_sealing rfl f)
  have ready := (files k).trans (if_pos rfl)
  have freed : tget (u.freeFailed k).files k = some { f with
      state := .closing, closingCause := some .deadline, haltCause := none, wasHalted := false, openSeg := none
      segsInFlight := f.segsInFlight + 1 - failed } := by
    rw [freeFailed_files ready, if_pos rfl, ← count]
    rfl
  have others : ∀ j, j ≠ k → tget (u.freeFailed k).files j = tget s.files j := fun j hj => by
    rw [freeFailed_files ready, if_neg hj, files, if_neg hj, tget_modFile, if_neg hj]
  have sealed : tget (u.freeFailed k).stager.bufs b = some { v with
      state := .sealing (segmentHeader st.source st.cls f.fileNo s.settings.sealCounter codec) 1 none } :=
    freeFailed_keeps risen ready (by rw [bufs]; exact tget_tput_self _ _ _) (failedOf_of_sealing rfl _)
  have gone : ∀ j x, tget s.stager.bufs j = some x → x.failedOf f = true →
      tget (u.freeFailed k).stager.bufs j = none := fun j x hx hfail => by
    refine freeFailed_frees risen ready fun y hy => ?_
    rw [bufs] at hy
    have apart : j ≠ b := by
      rintro rfl
      obtain rfl := Option.some.inj (hv.symm.trans hx)
      rw [failedOf_of_opened hc f] at hfail
      cases hfail
    obtain rfl := Option.some.inj (hx.symm.trans ((tget_tput_of_ne apart _ _).symm.trans hy))
    exact hfail
  obtain ⟨sealsKept, counterKept⟩ := freeFailed_seals u k
  have freeing := freeFailed_frame u k
  generalize u.freeFailed k = w at *
  have closed := endFeedOf_files w k .refusedState freed FileState.noConfusion FileState.noConfusion
  have stays : (w.endFeedOf k .refusedState).handOver k = w.endFeedOf k .refusedState :=
    handOver_of_not_ready closed (.inr (Nat.sub_ne_zero_of_lt (Nat.lt_succ_of_le fewer)))
  rw [expired, stays]
  obtain ⟨bufsKept, sealsStill⟩ := endFeedOf_bufs w k .refusedState
  have ending := endFeedOf_frame w k .refusedState
  refine ⟨closed, ?_, ?_, ?_, ⟨training, ?_, trained⟩, fun j x hx hfail => ?_, fun quiet => ?_⟩
  · rw [bufsKept]
    exact sealed
  · rw [sealsStill, sealsKept]
    exact seals
  · rw [ending.settings (by decide), counterKept, settings]
    rfl
  · rw [ending.streams (by decide), freeing.streams (by decide)]
    exact stream
  · rw [bufsKept]
    exact gone j x hx hfail
  · have whole : s.sameBut [.files, .streams, .stager, .store, .settings] w :=
      sameBut_then (sameBut_then (m := [.files, .streams, .stager, .store, .settings])
        (modFile_frame s k (FileEntry.closing .deadline)) frame (by decide) (by decide)) freeing (by decide) (by decide)
    rw [endFeedOf_of_none ((feedOn_congr (fun c => feed_of_ports (whole.ports (by decide)) c) k).trans quiet)]
    refine ⟨whole.out (by decide), fun j hj => others j hj, ?_, fun none => ?_, whole⟩
    · rw [freeing.streams (by decide)]
      exact streams
    · rw [freeing.store (by decide), store]
      exact sealPlace_of_none _ none

end

section
/-!
SUPPORT. The closing of a file at the Audit Unit: its hand-over, the append with what goes beside it, and what stands after
each.
-/

namespace Sys2Proof.Machine

variable {s t : State}

/-! ## Ports under notices -/

/-- A notice to every port is counted by each. -/
theorem noticeAll_port (s : State) (k : NoticeKind) (o : NoticeObject) (q : PortId) :
    (s.noticeAll k o).port q = (s.port q).countNotice (NoticeKind.cls k) := by
  unfold State.noticeAll four
  simp only [List.foldl_cons, List.foldl_nil, port_notice]
  match q with
  | 0 => rfl
  | 1 => rfl
  | 2 => rfl
  | 3 => rfl

/-- Deciding the low state leaves a port, or counts an ARCHIVE notice of it. -/
theorem decideLow_port (s : State) (q : PortId) :
    s.decideLow.port q = s.port q ∨ s.decideLow.port q = (s.port q).countNotice .archive := by
  unfold State.decideLow
  dsimp only
  split
  · exact .inl rfl
  · rw [port_of_ports ((tellScanner_frame _ _).ports (by decide))]
    split
    · refine .inr ((noticeAll_port _ _ _ q).trans ?_)
      cases decide (s.freePlaces < lowMark) <;> rfl
    · exact .inl rfl

/-- An ARCHIVE notice leaves a port's count of INTAKE notices. -/
theorem decideLow_intake (s : State) (q : PortId) :
    (s.decideLow.port q).intakeNotices = (s.port q).intakeNotices := by
  rcases decideLow_port s q with h | h
  · rw [h]
  · rw [h]; rfl

/-! ## Feeds after a completion -/

theorem desc_of_fetching {c : ChainRef} (h : s.fetching c = true) : (s.chain c).desc = none := by
  unfold State.fetching at h
  simp only [Bool.and_eq_true, Option.isNone_iff_eq_none] at h
  exact h.2

/-- A descriptor that arrives at its chain finds no feed there. -/
theorem feed_of_fetching {c : ChainRef} (h : s.fetching c = true) : s.feed c = none := by
  unfold State.feed State.job
  rw [desc_of_fetching h]
  rfl

/-- A descriptor that completes at once leaves every feed. -/
theorem complete_feed {a : At} {role : Role} {u : State} (h : s.arrives a role) (hp : u.ports = (s.holding a).ports)
    (w : Completion) (c : ChainRef) : (u.complete (refOf a) w).feed c = s.feed c := by
  have hd := (congrArg Chain.desc (chain_of_ports hp (refOf a))).trans (desc_holding s a)
  by_cases e : c = refOf a
  · rw [e, feed_of_fetching h.fetching]
    unfold State.feed
    rw [complete_job_none hd]
  · refine feed_of_job (job_of_chain ?_)
    rw [(complete_chain hd w).1 c e, chain_of_ports hp]
    unfold State.holding
    rw [chain_modChain, if_neg e]

/-! ## Room in the Journal -/

/-- The free places depend on the Journal and the release serial alone. -/
theorem freePlaces_of_release (hj : t.journal = s.journal) (hr : t.settings.release = s.settings.release) :
    t.freePlaces = s.freePlaces := by
  unfold State.freePlaces State.occupied State.slotPlaces
  rw [hj, hr]

theorem canAppend_of_release (hj : t.journal = s.journal) (hr : t.settings.release = s.settings.release) (n : Nat) :
    t.canAppend n = s.canAppend n := by
  unfold State.canAppend
  rw [hj, freePlaces_of_release hj hr]

theorem ask_of_canAppend (h : s.canAppend 1 = true) (body : JBody) (note : AppendNote) :
    s.ask body note = s.appendWith body note := if_pos h

theorem ask_of_not_canAppend (h : s.canAppend 1 = false) (body : JBody) (note : AppendNote) :
    s.ask body note = s.joinAppend (.entry body note) := if_neg (by rw [h]; exact Bool.false_ne_true)

theorem reserveWait_wait (s : State) :
    s.reserveWait.journal.wait = s.journal.wait ∧ s.reserveWait.journal.next = s.journal.next := by
  unfold State.reserveWait
  split
  · exact ⟨rfl, rfl⟩
  · exact ⟨rfl, rfl⟩

/-- A request that joins the append wait list stands at its tail, and no serial is taken. -/
theorem joinAppend_wait (s : State) (r : AppendReq) :
    (s.joinAppend r).journal.wait = s.journal.wait ++ [r] ∧ (s.joinAppend r).journal.next = s.journal.next := by
  unfold State.joinAppend
  rw [decideLow_journal]
  exact reserveWait_wait (s.setJournal { s.journal with wait := s.journal.wait ++ [r] })

/-! ## The closing (R20) -/

/-- A feed whose file has left the table. -/
def Feed.bereft (k : Nat) (g : Feed) : Feed := { g with fileGone := g.fileGone || decide (g.file = k) }

/-- One chain at the closing of a file. -/
def State.bereave (k : Nat) (s : State) (c : ChainRef) : State :=
  match s.feed c with
  | some g => if g.file = k then s.setJob c (.feed { g with fileGone := true }) else s
  | none => s

theorem bereft_of_file {k : Nat} {g : Feed} (h : g.file = k) : g.bereft k = { g with fileGone := true } := by
  unfold Feed.bereft
  rw [decide_eq_true h, Bool.or_true]

theorem bereft_of_other {k : Nat} {g : Feed} (h : g.file ≠ k) : g.bereft k = g := by
  unfold Feed.bereft
  rw [decide_eq_false h, Bool.or_false]

theorem bereft_bereft (k : Nat) (g : Feed) : (g.bereft k).bereft k = g.bereft k := by
  unfold Feed.bereft
  simp

theorem feed_setJob_of_feed {c : ChainRef} {g : Feed} (h : s.feed c = some g) (g' : Feed) (d : ChainRef) :
    (s.setJob c (.feed g')).feed d = if d = c then some g' else s.feed d := by
  have desc : ∃ e, (s.chain c).desc = some e := by
    rw [feed_eq_some_iff] at h
    unfold State.job at h
    obtain ⟨e, he, -⟩ := Option.bind_eq_some_iff.mp h
    exact ⟨e, he⟩
  obtain ⟨e, he⟩ := desc
  have job := job_setJob s c d (.feed g')
  rw [he] at job
  split
  · rename_i hd
    rw [if_pos hd] at job
    exact feed_eq_some_iff.mpr job
  · rename_i hd
    rw [if_neg hd] at job
    exact feed_of_job job

theorem bereave_feed (k : Nat) (s : State) (c d : ChainRef) :
    (s.bereave k c).feed d = if d = c then (s.feed d).map (Feed.bereft k) else s.feed d := by
  unfold State.bereave
  split
  · rename_i g hg
    split
    · rename_i hk
      rw [feed_setJob_of_feed hg]
      split
      · rename_i e; rw [e, hg, Option.map_some, bereft_of_file hk]
      · rfl
    · rename_i hk
      split
      · rename_i e; rw [e, hg, Option.map_some, bereft_of_other hk]
      · rfl
  · rename_i hg
    split
    · rename_i e; rw [e, hg]; rfl
    · rfl

theorem foldl_bereave_feed (k : Nat) (l : List ChainRef) (s : State) (d : ChainRef) :
    (l.foldl (State.bereave k) s).feed d = if d ∈ l then (s.feed d).map (Feed.bereft k) else s.feed d := by
  induction l generalizing s with
  | nil => rfl
  | cons c l ih =>
    rw [List.foldl_cons, ih, bereave_feed]
    by_cases e : d = c
    · subst e
      simp only [if_true, List.mem_cons_self, Option.map_map]
      split
      · cases s.feed d with
        | none => rfl
        | some g => simp [bereft_bereft]
      · rfl
    · simp only [e, if_false, List.mem_cons, false_or]

theorem mem_allChains (c : ChainRef) : c ∈ allChains := by
  obtain ⟨p, k⟩ := c
  exact List.mem_flatMap.mpr ⟨p, mem_four p, List.mem_map.mpr ⟨k, mem_four k, rfl⟩⟩

theorem bereave_port (k : Nat) (s : State) (c : ChainRef) (q : PortId) :
    ((s.bereave k c).port q).intakeNotices = (s.port q).intakeNotices
      ∧ ((s.bereave k c).port q).area = (s.port q).area := by
  unfold State.bereave
  split
  · split
    · unfold State.setJob
      rw [port_modChain]
      split
      · rename_i e; subst e; exact ⟨rfl, rfl⟩
      · exact ⟨rfl, rfl⟩
    · exact ⟨rfl, rfl⟩
  · exact ⟨rfl, rfl⟩

theorem bereave_frame (k : Nat) (s : State) (c : ChainRef) : s.sameBut [.ports] (s.bereave k c) := by
  unfold State.bereave
  split
  · exact sameBut_ite (setJob_frame s _ _) (sameBut_refl _ s)
  · exact sameBut_refl _ s

theorem foldl_bereave_intake (k : Nat) (l : List ChainRef) (s : State) (q : PortId) :
    ((l.foldl (State.bereave k) s).port q).intakeNotices = (s.port q).intakeNotices := by
  induction l generalizing s with
  | nil => rfl
  | cons c l ih => rw [List.foldl_cons, ih, (bereave_port k s c q).1]

/-- The state in which the feeds of a closed file are told. -/
def State.fileFreed (s : State) (k : Nat) (f : FileEntry) : State :=
  ((((s.notice f.owner .fileClosed (.file (s.sourceOf f.stream) f.fileNo)).setFiles (tdel s.files k)).setRecons
    (tdel s.recons k)).modStream f.stream (fun st => { st with file := none }))

theorem closeFile_eq {k : Nat} {f : FileEntry} (hf : tget s.files k = some f) :
    s.closeFile k = allChains.foldl (State.bereave k) (s.fileFreed k f) := by
  unfold State.closeFile
  rw [hf]
  dsimp only
  unfold State.fileFreed
  rw [State.setFiles_recons, (notice_frame s f.owner .fileClosed _).files (by decide),
    (notice_frame s f.owner .fileClosed _).recons (by decide)]
  rfl

/-- What the closing of a file leaves: the entry and the record are freed, the stream is IDLE, its feeds are told, and the
owner has its notice. -/
structure State.fileIsClosed (s : State) (k : Nat) (f : FileEntry) (t : State) : Prop where
  files : t.files = tdel s.files k
  recons : t.recons = tdel s.recons k
  streams : t.streams = tmod s.streams f.stream (fun st => { st with file := none })
  feeds : ∀ c g, s.feed c = some g → t.feed c = some (g.bereft k)
  intake : (t.port f.owner).intakeNotices = ((s.port f.owner).intakeNotices + 1) % 2 ^ 32
  out : t.out = s.out ++ noticePosts (s.port f.owner) f.owner .fileClosed (.file (s.sourceOf f.stream) f.fileNo) s.clock.value

theorem fileIsClosed_closeFile {k : Nat} {f : FileEntry} (hf : tget s.files k = some f) :
    s.fileIsClosed k f (s.closeFile k) := by
  rw [closeFile_eq hf]
  have told := sameBut_foldl (bereave_frame k) allChains (s.fileFreed k f)
  have streams := (notice_frame s f.owner .fileClosed (.file (s.sourceOf f.stream) f.fileNo)).streams (by decide)
  refine ⟨told.files (by decide), told.recons (by decide), ?_, fun c g hg => ?_, ?_, ?_⟩
  · rw [told.streams (by decide)]
    unfold State.fileFreed State.modStream
    rw [State.setStreams_streams, State.setRecons_streams, State.setFiles_streams, streams]
  · have feed : (s.fileFreed k f).feed c = s.feed c :=
      feed_of_job (job_of_chain (chain_notice s f.owner .fileClosed _ c))
    rw [foldl_bereave_feed, if_pos (mem_allChains c), feed, hg]
    rfl
  · have port : (s.fileFreed k f).port f.owner = (s.port f.owner).countNotice .intake :=
      (port_notice s f.owner f.owner .fileClosed _).trans (if_pos rfl)
    rw [foldl_bereave_intake, port]
    rfl
  · rw [told.out (by decide)]
    exact notice_out s f.owner .fileClosed _

/-! ## Hand-overs that happen -/

/-- A CLOSING file with no segment left is handed over, with its reconciliation record. -/
theorem handOver_of_ready {k : Nat} {f : FileEntry} {st : Stream} {cause : ClosingCause} (hf : tget s.files k = some f)
    (hc : f.closingCause = some cause) (hr : tget s.recons k = none) (hs : f.state = .closing) (ho : f.openSeg = none)
    (hn : f.segsInFlight = 0) (hst : tget s.streams f.stream = some st) :
    s.handOver k = (s.setRecons (tput s.recons k (reconOf st.source st.sticky cause f))).ask
      (.fileClosed (reconOf st.source st.sticky cause f).closedFields) (.fileClosed k) := by
  have source : s.sourceOf f.stream = st.source := by unfold State.sourceOf; rw [hst]; rfl
  unfold State.handOver
  rw [hf]
  dsimp only
  rw [hc, hr]
  dsimp only
  rw [if_pos ⟨hs, ho, hn⟩, source, hst]
  rfl

theorem ask_fileClosed_frame (s : State) (body : JBody) (k : Nat) :
    s.sameBut [.files, .streams, .recons, .ports, .journal, .store, .scanner, .out] (s.ask body (.fileClosed k)) := by
  unfold State.ask
  refine sameBut_ite ?_ (sameBut_mono (joinAppend_frame _ _) (by decide))
  exact sameBut_then (sameBut_then (appendRaw_frame s body) (closeFile_frame _ k)
    (m := [.files, .streams, .recons, .ports, .journal, .store, .out]) (by decide) (by decide)) (decideLow_frame _)
    (by decide) (by decide)

/-- A hand-over leaves the staging buffers and the settings. -/
theorem handOver_closed_frame (s : State) (k : Nat) :
    s.sameBut [.files, .streams, .recons, .ports, .journal, .store, .scanner, .out] (s.handOver k) := by
  unfold State.handOver
  split
  · split
    · split
      · exact sameBut_then (setRecons_frame s _) (ask_fileClosed_frame _ _ _) (by decide) (by decide)
      · exact sameBut_refl _ s
    · exact sameBut_refl _ s
  · exact sameBut_refl _ s

/-- An entry that has been appended stays so under what leaves the clock and, of the Journal, all but the low state. -/
theorem appended_decideLow {body : JBody} {u : State} (h : s.appended body u) : s.appended body u.decideLow := by
  unfold State.appended
  rw [decideLow_journal, (decideLow_frame u).clock (by decide)]
  exact h

/-- The append of FILE_CLOSED with the closing beside it: the entry is appended, and the file is closed. -/
theorem appendWith_fileClosed {k : Nat} {f : FileEntry} (hf : tget s.files k = some f) (body : JBody) :
    s.appended body (s.appendWith body (.fileClosed k))
      ∧ ∃ u, s.fileIsClosed k f u ∧ s.appendWith body (.fileClosed k) = u.decideLow := by
  have raw := appendRaw_frame s body
  have shut := closeFile_frame (s.appendRaw body) k
  have closed := fileIsClosed_closeFile (s := s.appendRaw body) (by rw [raw.files (by decide)]; exact hf)
  refine ⟨appended_decideLow ?_, _, ⟨?_, ?_, ?_, fun c g hg => ?_, ?_, ?_⟩, rfl⟩
  · show s.appended body ((s.appendRaw body).closeFile k)
    unfold State.appended
    rw [shut.journal (by decide), shut.clock (by decide)]
    exact (appendRaw_spec s body).1
  · exact closed.files.trans (by rw [raw.files (by decide)])
  · exact closed.recons.trans (by rw [raw.recons (by decide)])
  · exact closed.streams.trans (by rw [raw.streams (by decide)])
  · exact closed.feeds c g (by rw [feed_of_ports (raw.ports (by decide))]; exact hg)
  · exact closed.intake.trans (by rw [port_of_ports (raw.ports (by decide))])
  · refine closed.out.trans ?_
    have source : (s.appendRaw body).sourceOf f.stream = s.sourceOf f.stream := by
      unfold State.sourceOf
      rw [raw.streams (by decide)]
    rw [raw.out (by decide), port_of_ports (raw.ports (by decide)), source, raw.clock (by decide)]

/-- The slot write of a "file closed" notice. -/
theorem noticePosts_fileClosed {q : Port} {area : NoticeArea} (ha : q.area = some area) (hi : area.intake = true) (p : PortId)
    (o : NoticeObject) (time : Nat) : .notice p (area.addr + 64) .intake .fileClosed o time ((q.intakeNotices + 1) % 2 ^ 32)
      ∈ noticePosts q p .fileClosed o time := by
  unfold noticePosts
  rw [ha]
  dsimp only
  rw [show area.enables (NoticeKind.cls .fileClosed) = true from hi, if_pos rfl]
  exact List.mem_cons_self

end Sys2Proof.Machine

end

section
/-!
SUPPORT. FILE_ABANDON: the discard of a file's segments before its completion, and both outcomes of its hand-over after it.
-/

namespace Sys2Proof.Machine

variable {s t : State}

/-- The file as FILE_ABANDON leaves it, where `failed` of its buffers were FAILED. -/
def FileEntry.abandoned (failed : Nat) (f : FileEntry) : FileEntry :=
  { f with state := .closing, closingCause := some .abandon, haltCause := none, wasHalted := false, openSeg := none,
           segsInFlight := f.segsInFlight - failed }

/-- The number of FAILED buffers of a file. -/
def State.failedCount (s : State) (f : FileEntry) : Nat := s.stager.bufs.countP (fun p => p.2.failedOf f)

/-! ## The discard of the open segment -/

theorem discardOpen_frame (s : State) (k : Nat) : s.sameBut [.stager, .files] (s.discardOpen k) := by
  unfold State.discardOpen
  split
  · exact sameBut_then (freeBuf_frame s _) (modFile_frame _ _ _) (by decide) (by decide)
  · exact sameBut_refl _ s

theorem discardOpen_files {k : Nat} {f : FileEntry} (hf : tget s.files k = some f) (j : Nat) :
    tget (s.discardOpen k).files j = if j = k then some { f with openSeg := none } else tget s.files j := by
  unfold State.discardOpen
  rw [hf, Option.bind_some]
  cases ho : f.openSeg with
  | none =>
    dsimp only
    split
    · rename_i e; rw [e, hf, ← ho]
    · rfl
  | some b =>
    dsimp only
    rw [tget_modFile]
    show (if j = k then (tget s.files k).map _ else tget s.files j) = _
    rw [hf]
    rfl

/-- The buffers once a segment's buffer is discarded. -/
theorem discardOpen_bufs {k : Nat} {f : FileEntry} (hf : tget s.files k = some f) :
    (s.discardOpen k).stager.bufs = match f.openSeg with
      | some b => tdel s.stager.bufs b
      | none => s.stager.bufs := by
  unfold State.discardOpen
  rw [hf, Option.bind_some]
  cases f.openSeg <;> rfl

/-! ## Everything before the completion -/

/-- FILE_ABANDON before its completion: the segments discarded, the file CLOSING. -/
def State.abandoned (s : State) (k : Nat) : State :=
  ((s.discardOpen k).freeFailed k).modFile k (FileEntry.closing .abandon)

theorem abandoned_frame (s : State) (k : Nat) : s.sameBut [.files, .stager, .settings] (s.abandoned k) :=
  sameBut_then (sameBut_then (m := [.files, .stager, .settings]) (discardOpen_frame s k) (freeFailed_frame _ k) (by decide)
    (by decide)) (modFile_frame _ k _) (by decide) (by decide)

theorem abandoned_release (s : State) (k : Nat) : (s.abandoned k).settings.release = s.settings.release := by
  have discard := (discardOpen_frame s k).settings (by decide)
  show ((s.discardOpen k).freeFailed k).settings.release = _
  generalize s.discardOpen k = u at *
  rw [← discard]
  cases hf : tget u.files k with
  | none => unfold State.freeFailed; rw [hf]
  | some f =>
    rw [freeFailed_eq hf]
    split
    · rfl
    · rfl

section
variable {k : Nat} {f : FileEntry}

theorem discarded_rising (rising : Table.rising s.stager.bufs = true) (hf : tget s.files k = some f) :
    Table.rising (s.discardOpen k).stager.bufs = true := by
  rw [discardOpen_bufs hf]
  cases f.openSeg with
  | none => exact rising
  | some b => exact rising_tdel rising b

theorem discarded_failed (rising : Table.rising s.stager.bufs = true) (hf : tget s.files k = some f)
    (ho : ∀ b, f.openSeg = some b → ∃ v codec, tget s.stager.bufs b = some v ∧ v.state = .opened codec) :
    (s.discardOpen k).failedCount f = s.failedCount f := by
  unfold State.failedCount
  rw [discardOpen_bufs hf]
  cases hb : f.openSeg with
  | none => rfl
  | some b =>
    obtain ⟨v, codec, hv, hc⟩ := ho b hb
    refine countP_tdel rising fun w hw => ?_
    obtain rfl := Option.some.inj (hv.symm.trans hw)
    exact failedOf_of_opened hc f

theorem abandoned_files (rising : Table.rising s.stager.bufs = true) (hf : tget s.files k = some f)
    (ho : ∀ b, f.openSeg = some b → ∃ v codec, tget s.stager.bufs b = some v ∧ v.state = .opened codec) (j : Nat) :
    tget (s.abandoned k).files j = if j = k then some (f.abandoned (s.failedCount f)) else tget s.files j := by
  have discarded := (discardOpen_files hf k).trans (if_pos rfl)
  unfold State.abandoned
  rw [tget_modFile, freeFailed_files discarded, freeFailed_files discarded, if_pos rfl]
  split
  · rw [← discarded_failed rising hf ho]
    rfl
  · rename_i e
    rw [discardOpen_files hf, if_neg e]

theorem abandoned_openBuf (hf : tget s.files k = some f) (rising : Table.rising s.stager.bufs = true) {b : Nat}
    (hb : f.openSeg = some b) : tget (s.abandoned k).stager.bufs b = none := by
  have discarded := (discardOpen_files hf k).trans (if_pos rfl)
  refine freeFailed_frees (discarded_rising rising hf) discarded fun v hv => ?_
  rw [discardOpen_bufs hf, hb, tget_tdel_self] at hv
  cases hv

theorem abandoned_failedBuf (hf : tget s.files k = some f) (rising : Table.rising s.stager.bufs = true) {b : Nat} {v : Staging}
    (hv : tget s.stager.bufs b = some v) (hs : v.failedOf f = true) : tget (s.abandoned k).stager.bufs b = none := by
  have discarded := (discardOpen_files hf k).trans (if_pos rfl)
  refine freeFailed_frees (discarded_rising rising hf) discarded fun w hw => ?_
  rw [discardOpen_bufs hf] at hw
  have there : tget s.stager.bufs b = some w := by
    revert hw
    cases f.openSeg with
    | none => exact id
    | some c =>
      dsimp only
      rw [tget_tdel]
      split
      · exact fun e => by cases e
      · exact id
  obtain rfl := Option.some.inj (hv.symm.trans there)
  exact hs

end

/-! ## The hand-over of an abandoned file -/

/-- A descriptor that finishes leaves every port's count of INTAKE notices and its notice area. -/
theorem finishes_intake {a : At} {posted : List Output} {w : Completion} (h : s.finishes a posted w t) (q : PortId) :
    (t.port q).intakeNotices = (s.port q).intakeNotices ∧ (t.port q).area = (s.port q).area := by
  have port : t.port q = (s.portsAfter a (s.fetchAddress a + 64))[q.val] := by unfold State.port; rw [h.ports]
  rw [port]
  unfold State.portsAfter
  by_cases e : q = a.port
  · subst e
    rw [vmod_get_self]
    cases a.notify <;> exact ⟨rfl, rfl⟩
  · rw [vmod_get_of_ne _ e]
    exact ⟨rfl, rfl⟩

/-- What a hand-over with a journal place free leaves of a file. -/
structure State.fileHandedOver (s : State) (k : Nat) (f : FileEntry) (st : Stream) (record : Recon) (t : State) : Prop where
  files : t.files = tdel s.files k
  recons : t.recons = tdel (tput s.recons k record) k
  streams : t.streams = tmod s.streams f.stream (fun st => { st with file := none })
  appended : s.appended (.fileClosed record.closedFields) t
  intake : (t.port f.owner).intakeNotices = ((s.port f.owner).intakeNotices + 1) % 2 ^ 32
  posts : s.posts t
  notice : ∀ area, (s.port f.owner).area = some area → area.intake = true →
    .notice f.owner (area.addr + 64) .intake .fileClosed (.file st.source f.fileNo) s.clock.value
      (((s.port f.owner).intakeNotices + 1) % 2 ^ 32) ∈ t.out
  feeds : ∀ c g, s.feed c = some g → t.feed c = some (g.bereft k)

theorem fileHandedOver_of_canAppend {k : Nat} {f : FileEntry} {st : Stream} {record : Recon} (hf : tget s.files k = some f)
    (hst : tget s.streams f.stream = some st) (room : s.canAppend 1 = true) :
    s.fileHandedOver k f st record ((s.setRecons (tput s.recons k record)).ask (.fileClosed record.closedFields)
      (.fileClosed k)) := by
  have source : (s.setRecons (tput s.recons k record)).sourceOf f.stream = st.source := by
    unfold State.sourceOf; rw [State.setRecons_streams, hst]; rfl
  rw [ask_of_canAppend (s := s.setRecons (tput s.recons k record)) room]
  obtain ⟨appended, u, closed, told⟩ :=
    appendWith_fileClosed (s := s.setRecons (tput s.recons k record)) hf (.fileClosed record.closedFields)
  rw [told] at appended ⊢
  have low := decideLow_frame u
  have later := posts_decideLow u
  refine ⟨?_, ?_, ?_, appended, ?_, ?_, fun area ha hi => ?_, fun c g hg => ?_⟩
  · rw [low.files (by decide)]; exact closed.files
  · rw [low.recons (by decide)]; exact closed.recons
  · rw [low.streams (by decide)]; exact closed.streams
  · rw [decideLow_intake]; exact closed.intake
  · exact posts_trans ⟨_, closed.out⟩ later
  · refine mem_out_of_posts later ?_
    rw [closed.out, source]
    exact List.mem_append_right _ (noticePosts_fileClosed ha hi _ _ _)
  · rw [feed_of_job (job_of_chain (decideLow_chain u c))]
    exact closed.feeds c g hg

/-- What a hand-over without a free journal place leaves of a file: its record and its request wait. -/
structure State.fileHandoverWaits (s : State) (k : Nat) (record : Recon) (t : State) : Prop where
  files : t.files = s.files
  recons : t.recons = tput s.recons k record
  wait : t.journal.wait = s.journal.wait ++ [.entry (.fileClosed record.closedFields) (.fileClosed k)]
  next : t.journal.next = s.journal.next
  posts : s.posts t
  frame : s.sameBut [.recons, .journal, .scanner, .ports, .out] t

theorem fileHandoverWaits_of_not_canAppend {k : Nat} {record : Recon} (full : s.canAppend 1 = false) :
    s.fileHandoverWaits k record ((s.setRecons (tput s.recons k record)).ask (.fileClosed record.closedFields)
      (.fileClosed k)) := by
  rw [ask_of_not_canAppend (s := s.setRecons (tput s.recons k record)) full]
  have join := joinAppend_frame (s.setRecons (tput s.recons k record))
    (.entry (.fileClosed record.closedFields) (.fileClosed k))
  obtain ⟨wait, next⟩ := joinAppend_wait (s.setRecons (tput s.recons k record))
    (.entry (.fileClosed record.closedFields) (.fileClosed k))
  exact ⟨join.files (by decide), join.recons (by decide), wait, next,
    posts_trans (posts_of_frame (setRecons_frame s _) (by decide)) (posts_joinAppend _ _),
    sameBut_then (setRecons_frame s _) join (by decide) (by decide)⟩

end Sys2Proof.Machine

open Sys2Proof Sys2Proof.Machine

/-- Settles O9: the discard before the completion, and the hand-over after it where no segment is left. -/
theorem abandonDiscardsAndCloses : Obligations.AbandonDiscardsAndCloses := by
  unfold Obligations.AbandonDiscardsAndCloses
  intro s a source fileNo k f h found notClosing notClosed may rising opened failed closing
  obtain ⟨-, -, -, -, entry, -⟩ := findFile_spec found
  have held := holding_frame s a
  have hf : tget (s.holding a).files k = some f := by rw [held.files (by decide)]; exact entry
  have risen : Table.rising (s.holding a).stager.bufs = true := by rw [held.stager (by decide)]; exact rising
  have segs : ∀ b, f.openSeg = some b →
      ∃ v codec, tget (s.holding a).stager.bufs b = some v ∧ v.state = .opened codec := by
    rw [held.stager (by decide)]; exact opened
  have effect := abandoned_frame (s.holding a) k
  have files := abandoned_files risen hf segs
  have openFreed := fun b => abandoned_openBuf (b := b) hf risen
  have failedFreed := fun b v => abandoned_failedBuf (b := b) (v := v) hf risen
  have release := abandoned_release (s.holding a) k
  have count : (s.holding a).failedCount f = failed := by unfold State.failedCount; rw [held.stager (by decide)]
  rw [count] at files
  rw [held.stager (by decide)] at failedFreed
  obtain ⟨ends, frame⟩ := done_finishes h effect (by decide) (by decide) .none
  have feeds : ∀ c, (((s.holding a).abandoned k).done a .none).feed c = s.feed c :=
    complete_feed h (effect.ports (by decide)) (Completion.doneWith .none)
  have run : fileAbandon a source fileNo s
      = ((((s.holding a).abandoned k).done a .none).endFeedOf k .refusedState).handOver k := by
    unfold fileAbandon
    rw [descriptor_of_arrives h]
    unfold State.abandonFile
    rw [findFile_holding, found]
    exact if_pos ⟨notClosing, may⟩
  generalize hd : ((s.holding a).abandoned k).done a .none = d at *
  have closed : tget d.files k = some (f.abandoned failed) := by rw [frame.files (by decide), files, if_pos rfl]
  have away : sameAway k s.files d.files := fun j hj => by
    rw [frame.files (by decide), files, if_neg hj, held.files (by decide)]
  have whole : s.sameBut [.files, .stager, .settings, .ports, .out] d :=
    sameBut_then (sameBut_then (m := [.files, .stager, .settings, .ports]) held effect (by decide) (by decide)) frame
      (by decide) (by decide)
  have kept := endFeedOf_files d k .refusedState closed FileState.noConfusion FileState.noConfusion
  have bufs : ((d.endFeedOf k .refusedState).handOver k).stager.bufs = ((s.holding a).abandoned k).stager.bufs := by
    rw [(handOver_closed_frame _ k).stager (by decide), (endFeedOf_bufs d k _).1, frame.stager (by decide)]
  refine ⟨_, rfl, ?_⟩
  rw [run]
  refine ⟨fun b hb => by rw [bufs]; exact openFreed b hb, fun b v hv hs => by rw [bufs]; exact failedFreed b v hv hs,
    fun fewer => ?_, fun all quiet fresh st hst => ?_⟩
  · rw [handOver_of_not_ready kept (.inr (Nat.sub_ne_zero_of_lt fewer))]
    refine ⟨kept, fun quiet => ?_⟩
    rw [endFeedOf_of_none ((feedOn_congr feeds k).trans quiet)]
    exact ⟨away, ends, whole⟩
  · have nothing : (f.abandoned failed).segsInFlight = 0 := by
      show f.segsInFlight - failed = 0
      rw [all, Nat.sub_self]
    have stream : tget d.streams f.stream = some st := by rw [whole.streams (by decide)]; exact hst
    have recons : d.recons = s.recons := whole.recons (by decide)
    have journal : d.journal = s.journal := whole.journal (by decide)
    have clock : d.clock = s.clock := whole.clock (by decide)
    have posted : Output.completion a.port (s.fetchAddress a + 32) (Completion.plain .done 0) ∈ d.out := by
      rw [ends.out]
      exact List.mem_append_right _ List.mem_cons_self
    have room : d.canAppend 1 = s.canAppend 1 :=
      canAppend_of_release journal (by rw [frame.settings (by decide), release, held.settings (by decide)]) 1
    rw [endFeedOf_of_none ((feedOn_congr feeds k).trans quiet),
      handOver_of_ready closed rfl (by rw [recons]; exact fresh) rfl rfl nothing stream]
    intro cut record
    have same : reconOf st.source st.sticky .abandon (f.abandoned failed) = record := rfl
    rw [same]
    cases hroom : s.canAppend 1 with
    | true =>
      obtain ⟨hfiles, hrecons, hstreams, happended, hintake, hposts, hnotice, hfeeds⟩ :=
        fileHandedOver_of_canAppend (record := record) closed stream (room.trans hroom)
      have after := ask_fileClosed_frame (d.setRecons (tput d.recons k record)) (.fileClosed record.closedFields) k
      obtain ⟨counts, areas⟩ := finishes_intake ends f.owner
      refine ⟨mem_out_of_posts hposts posted, fun j hj => ?_, fun j hj => ?_,
        fun _ => ⟨?_, ?_, ?_, ?_, ?_, ?_, ?_, ?_, ?_⟩,
        fun e => by cases e⟩
      · rw [hfiles, tget_tdel, if_neg hj, away j hj]
      · rw [hrecons, tget_tdel, if_neg hj, tget_tput_of_ne hj, recons]
      · rw [hfiles, tget_tdel_self]
      · rw [hrecons, tget_tdel_self]
      · rw [hstreams, tget_tmod]
        exact (if_pos rfl).trans (congrArg (Option.map _) stream)
      · rw [hstreams, whole.streams (by decide)]
        exact sameAway_tmod _ _ _
      · unfold State.appended
        rw [← journal]
        exact happended
      · rw [← counts]
        exact hintake
      · intro area ha hi
        rw [← counts, ← clock]
        exact hnotice area (areas.trans ha) hi
      · exact fun c g hg => hfeeds c g ((feeds c).trans hg)
      · exact sameBut_then (sameBut_then
          (m := [.files, .streams, .stager, .settings, .recons, .ports, .journal, .store, .scanner, .out]) whole
          (setRecons_frame d _) (by decide) (by decide)) after (by decide) (by decide)
    | false =>
      obtain ⟨hfiles, hrecons, hwait, hnext, hposts, after⟩ :=
        fileHandoverWaits_of_not_canAppend (k := k) (record := record) (room.trans hroom)
      refine ⟨mem_out_of_posts hposts posted, fun j hj => ?_, fun j hj => ?_, fun e => (by cases e),
        fun _ => ⟨?_, ?_, ?_, ?_, ?_⟩⟩
      · rw [hfiles, away j hj]
      · rw [hrecons, tget_tput_of_ne hj, recons]
      · rw [hfiles]
        exact closed
      · rw [hrecons, tget_tput_self]
      · rw [hwait, journal]
      · rw [hnext, journal]
      · exact sameBut_then whole after (by decide) (by decide)

end

section
/-!
SUPPORT. The taking of a record: the checks it passes, its segment, its counts, and how its feed moves on.
-/

namespace Sys2Proof.Machine

variable {s t : State}

/-! ## Feeds -/

theorem feed_setChainState (s : State) (c d : ChainRef) (st : ChainState) : (s.setChainState c st).feed d = s.feed d :=
  feed_of_job (job_setChainState s c d st)

/-- A feed that has places left moves on to one of them. -/
theorem moveFeed_of_lt {c : ChainRef} {f : Feed} {next : Nat} (hf : s.feed c = some f) (h : next < f.places) :
    s.moveFeed c next = (s.setJob c (.feed { f with next })).setChainState c .running := by
  unfold State.moveFeed
  rw [hf]
  exact if_neg (Nat.not_le.mpr h)

theorem moveFeed_of_lt_feed {c : ChainRef} {f : Feed} {next : Nat} (hf : s.feed c = some f) (h : next < f.places) :
    (s.moveFeed c next).feed c = some { f with next } := by
  rw [moveFeed_of_lt hf h, feed_setChainState, feed_setJob_of_feed hf, if_pos rfl]

theorem moveFeed_of_lt_state {c : ChainRef} {f : Feed} {next : Nat} (hf : s.feed c = some f) (h : next < f.places) :
    ((s.moveFeed c next).chain c).state = .running := by
  rw [moveFeed_of_lt hf h]
  unfold State.setChainState
  rw [chain_modChain, if_pos rfl]

theorem moveFeed_of_lt_frame {c : ChainRef} {f : Feed} {next : Nat} (hf : s.feed c = some f) (h : next < f.places) :
    s.sameBut [.ports] (s.moveFeed c next) := by
  rw [moveFeed_of_lt hf h]
  exact sameBut_trans (setJob_frame s _ _) (setChainState_frame _ _ _)

theorem port_setJob_of_ne (s : State) (c : ChainRef) (j : Job) {q : PortId} (h : q ≠ c.port) :
    (s.setJob c j).port q = s.port q := by
  unfold State.setJob
  rw [port_modChain, if_neg h]

theorem port_setChainState_of_ne (s : State) (c : ChainRef) (st : ChainState) {q : PortId} (h : q ≠ c.port) :
    (s.setChainState c st).port q = s.port q := by
  unfold State.setChainState
  rw [port_modChain, if_neg h]

/-! ## A taking that drops no gap -/

/-- The state in which a record's counts change: its account is marked, and it stands in its file's segment. -/
def State.encoded (s : State) (f : Feed) (g : FileEntry) (st : Stream) (w : WaitRec) (r : Rec) : State :=
  let marked := s.modStream g.stream (fun x => { x with account := (mark st.account w.cls w.seq).1 })
  (if g.openSeg.isNone then marked.openSegment f.file r.start else marked).appendRecord f.file r

theorem takeMarked_eq {c : ChainRef} {f : Feed} {w : WaitRec} {g : FileEntry} {st : Stream} {r : Rec}
    (hg : tget s.files f.file = some g) (hst : tget s.streams g.stream = some st) (hr : w.archive = some r)
    (hd : (mark st.account w.cls w.seq).2 = []) :
    s.takeMarked c f w
      = ((s.encoded f g st w r).countTaking c f .accepted w.duration w.units w.changed).decideLow := by
  unfold State.takeMarked State.encoded
  rw [hg]
  dsimp only
  rw [hst]
  dsimp only
  rw [hd, hr]
  rfl

/-- A record encoded into an open segment: the buffer grows and the stream's maxima are observed. -/
theorem appendRecord_eq {k b : Nat} {g : FileEntry} {v : Staging} {codec : Codec} (hg : tget s.files k = some g)
    (hb : g.openSeg = some b) (hv : tget s.stager.bufs b = some v) (hc : v.state = .opened codec) (r : Rec) :
    s.appendRecord k r =
      (s.setBuf b { v with
        body := v.body ++ encodeRec codec r, state := .opened (codec.after r (encodeRec codec r).length) }).modStream g.stream
        (fun st => { st with training :=
          st.training.observe (codec.after r (encodeRec codec r).length).summary.count (codec.startZ r) r }) := by
  unfold State.appendRecord
  rw [hg]
  dsimp only
  rw [hb]
  dsimp only
  rw [hv]
  dsimp only
  rw [hc]

theorem count_after (codec : Codec) (r : Rec) (n : Nat) : (codec.after r n).summary.count = codec.summary.count + 1 := rfl

theorem encoded_frame (s : State) (f : Feed) (g : FileEntry) (st : Stream) (w : WaitRec) (r : Rec) :
    s.sameBut [.streams, .stager, .files] (s.encoded f g st w r) := by
  unfold State.encoded
  have marked := modStream_frame s g.stream (fun x => { x with account := (mark st.account w.cls w.seq).1 })
  refine sameBut_then (l := [.streams, .stager, .files]) ?_ (appendRecord_frame _ _ _) (by decide) (by decide)
  exact sameBut_ite (sameBut_then marked (openSegment_frame _ _ _) (by decide) (by decide)) (sameBut_mono marked (by decide))

/-- The taking of a record decides nothing of the low state, where no gap is dropped and it already is as it should be. -/
theorem takeMarked_of_low {c : ChainRef} {f : Feed} {w : WaitRec} {g : FileEntry} {st : Stream} {r : Rec}
    (hg : tget s.files f.file = some g) (hst : tget s.streams g.stream = some st) (hr : w.archive = some r)
    (hd : (mark st.account w.cls w.seq).2 = []) (low : s.journal.low = decide (s.freePlaces < lowMark)) :
    s.takeMarked c f w = (s.encoded f g st w r).countTaking c f .accepted w.duration w.units w.changed := by
  rw [takeMarked_eq hg hst hr hd]
  have frame := sameBut_then (m := [.streams, .stager, .files, .ports]) (encoded_frame s f g st w r)
    (countTaking_frame _ c f .accepted w.duration w.units w.changed) (by decide) (by decide)
  refine decideLow_of_low ?_
  rw [freePlaces_of_same (frame.journal (by decide)) (frame.settings (by decide)), frame.journal (by decide)]
  exact low

/-- Only the maxima change, and only within the sample count. -/
theorem observe_eq (t : Training) (n z : Nat) (r : Rec) :
    t.observe n z r = { t with
      maxima := if n ≤ t.samples
        then ⟨max t.maxima.td (min 32 (bitsOf z)), max t.maxima.du (bitsOf r.duration), max t.maxima.cu (bitsOf r.units)⟩
        else t.maxima } := by
  unfold Training.observe
  split
  · rfl
  · rfl

theorem feed_take_accepted (f : Feed) :
    f.take .accepted false = { f with accepted := f.accepted + 1, waiting := none } := rfl

/-- A record whose file has an open segment is encoded into it. -/
theorem encoded_of_open {f : Feed} {g : FileEntry} {st : Stream} {w : WaitRec} {r : Rec} {b : Nat} {v : Staging}
    {codec : Codec} (hg : tget s.files f.file = some g) (hb : g.openSeg = some b) (hv : tget s.stager.bufs b = some v)
    (hc : v.state = .opened codec) :
    s.encoded f g st w r = ((s.modStream g.stream (fun x => { x with account := (mark st.account w.cls w.seq).1 })).setBuf b
      { v with body := v.body ++ encodeRec codec r, state := .opened (codec.after r (encodeRec codec r).length) }).modStream
        g.stream (fun st => { st with training := st.training.observe (codec.summary.count + 1) (codec.startZ r) r }) := by
  unfold State.encoded
  dsimp only
  rw [hb, Option.isNone_some, if_neg Bool.false_ne_true,
    appendRecord_eq (s := s.modStream g.stream _) hg hb hv hc r, count_after]

/-- What the taking of a record leaves, whose feed then moves on to its next place. -/
structure State.recordTaken (s : State) (c : ChainRef) (f : Feed) (w : WaitRec) (g : FileEntry) (st : Stream) (r : Rec)
    (t : State) : Prop where
  files : t.files = tmod (s.encoded f g st w r).files f.file (fun g => g.take .accepted w.duration w.units w.changed)
  streams : t.streams = (s.encoded f g st w r).streams
  stager : t.stager = (s.encoded f g st w r).stager
  feed : t.feed c = some { f.take .accepted w.changed with next := f.next + 1 }
  state : (t.chain c).state = .running
  frame : s.sameBut [.files, .streams, .stager, .ports] t

theorem recordTaken_takeAndMove {c : ChainRef} {f : Feed} {w : WaitRec} {g : FileEntry} {st : Stream} {r : Rec}
    {before : Feed} (hf : s.feed c = some before) (next : f.next + 1 < f.places)
    (hg : tget s.files f.file = some g) (hst : tget s.streams g.stream = some st) (hr : w.archive = some r)
    (hd : (mark st.account w.cls w.seq).2 = []) (low : s.journal.low = decide (s.freePlaces < lowMark)) :
    s.recordTaken c f w g st r (s.takeAndMove c f w) := by
  unfold State.takeAndMove
  rw [takeMarked_of_low hg hst hr hd low]
  have encoding := encoded_frame s f g st w r
  have feed : (s.encoded f g st w r).feed c = some before := (feed_of_ports (encoding.ports (by decide)) c).trans hf
  have counted : ((s.encoded f g st w r).countTaking c f .accepted w.duration w.units w.changed).feed c
      = some (f.take .accepted w.changed) := by
    unfold State.countTaking
    rw [feed_setJob_of_feed (s := State.modFile _ _ _) (g := before) feed, if_pos rfl]
  have move := moveFeed_of_lt_frame (next := f.next + 1) counted next
  refine ⟨?_, ?_, ?_, moveFeed_of_lt_feed counted next, moveFeed_of_lt_state counted next, ?_⟩
  · rw [move.files (by decide)]; rfl
  · rw [move.streams (by decide)]; rfl
  · rw [move.stager (by decide)]; rfl
  · exact sameBut_then (sameBut_then (m := [.files, .streams, .stager, .ports]) encoding
      (countTaking_frame _ c f .accepted w.duration w.units w.changed) (by decide) (by decide)) move (by decide) (by decide)

/-! ## The checks a record passes (R34) -/

/-- A record that meets no fault is accepted as it stands, and raises no flag. -/
theorem checkRecord_of_sound {i : CheckInput} {raw : RawRec} {cls : SeqClass} (source : raw.source = i.source)
    (digits : badDigits raw = false) (range : badRange raw = false) (skew : skewed i.clock raw = false)
    (hc : classify i.account raw.seq = some cls) (fresh : expired i.clock i.days raw = false) (sticky : BitVec 9) :
    checkRecord i sticky raw = ⟨sticky, raw, false, .accept cls⟩ := by
  simp [checkRecord, checkDigits, checkRange, checkSkew, checkSequence, checkExpired, source, digits, range, skew, hc, fresh]

/-! ## A record place (R9) -/

/-- A place that reaches its feed is read. -/
theorem recordPlace_eq {c : ChainRef} {f : Feed} {g : FileEntry} {st : Stream} (hf : s.feed c = some f)
    (hl : f.laneHeld = true) (hw : f.waiting = none) (hg : tget s.files f.file = some g)
    (hst : tget s.streams f.stream = some st) (bytes : List Byte) : s.recordPlace c bytes = s.readPlace c f g st bytes := by
  unfold State.recordPlace
  rw [hf]
  dsimp only
  rw [if_pos ⟨hl, hw⟩, hg, hst]

theorem byteAt_zero (bytes : Vector Byte 64) : byteAt bytes.toList 0 = bytes[0] := by
  unfold byteAt
  simp [List.getD]

/-- A data place goes to Record Check. -/
theorem readPlace_of_data {bytes : List Byte} (h : byteAt bytes 0 = 0xD1) (c : ChainRef) (f : Feed) (g : FileEntry)
    (st : Stream) : s.readPlace c f g st bytes
      = s.checkedRecord c f g st (rawRecord bytes) (checkRecord (s.checkInput st) st.sticky (rawRecord bytes)) := by
  unfold State.readPlace
  rw [if_pos h]

/-- A record with nothing to wait for is taken at once. -/
theorem takeOrWait_of_ready {w : WaitRec} (hp : w.places = 0) (hb : w.needsBuf = false) (c : ChainRef) (f : Feed) :
    s.takeOrWait c f w = s.takeAndMove c f w := by
  unfold State.takeOrWait
  rw [hp, hb]
  rfl

theorem openCodec_eq {g : FileEntry} {b : Nat} {v : Staging} {codec : Codec} (hb : g.openSeg = some b)
    (hv : tget s.stager.bufs b = some v) (hc : v.state = .opened codec) : s.openCodec g = some codec := by
  unfold State.openCodec
  rw [hb, Option.bind_some, hv]
  dsimp only
  rw [hc]

/-- A record that fits the open segment needs no buffer. -/
theorem fitTest_of_fits {g : FileEntry} {codec : Codec} {r : Rec} (ho : s.openCodec g = some codec)
    (hf : fits codec r = true) (k : Nat) : s.fitTest k g r = (s, false) := by
  unfold State.fitTest
  rw [ho]
  exact if_pos hf

end Sys2Proof.Machine

open Sys2Proof Sys2Proof.Machine

/-- Settles O11: the record passes its checks, fits, and is taken at once. -/
theorem acceptedRecordIsTakenWhole : Obligations.AcceptedRecordIsTakenWhole := by
  unfold Obligations.AcceptedRecordIsTakenWhole
  intro s port chain bytes f g st b v codec cls raw marked bits hf lane idle next hg own hst hb hv hc kind source digits range
    skew new fresh fit drops low
  refine ⟨s.recordPlace ⟨port, chain⟩ bytes.toList, rfl, ?_⟩
  let u := s.modStream f.stream (fun x => { x with sticky := st.sticky })
  let w : WaitRec := { seq := raw.seq, duration := raw.duration, units := raw.units, cls, archive := some (archived raw),
                       changed := false, needsBuf := false, places := marked.2.length }
  have stream : tget u.streams g.stream = some st := by
    rw [own]
    exact (tget_tmod _ _ _ _).trans ((if_pos rfl).trans (by rw [hst]; rfl))
  have taken : s.recordPlace ⟨port, chain⟩ bytes.toList = u.takeAndMove ⟨port, chain⟩ f w := by
    rw [recordPlace_eq hf lane idle hg hst, readPlace_of_data ((byteAt_zero bytes).trans kind),
      checkRecord_of_sound source digits range skew new fresh]
    unfold State.checkedRecord
    dsimp only
    rw [fitTest_of_fits (openCodec_eq (s := s.modStream _ _) hb hv hc) fit]
    exact takeOrWait_of_ready (by rw [show (mark st.account cls raw.seq).2 = [] from drops]; rfl) rfl _ _
  have spec : u.recordTaken ⟨port, chain⟩ f w g st (archived raw) (u.takeAndMove ⟨port, chain⟩ f w) :=
    recordTaken_takeAndMove (before := f) hf next hg stream rfl drops low
  obtain ⟨files, streams, stager, feed, -, frame⟩ := spec
  rw [encoded_of_open (s := u) hg hb hv hc] at files streams stager
  rw [taken]
  refine ⟨?_, ?_, ?_, ?_, ?_, ?_, ?_, ?_⟩
  · rw [files, tget_tmod, if_pos rfl]
    exact congrArg (Option.map _) hg
  · rw [files]
    exact sameAway_tmod _ _ _
  · rw [streams, ← own, tget_modStream, if_pos rfl]
    show ((tget (u.modStream g.stream _).streams g.stream).map _) = _
    rw [tget_modStream, if_pos rfl, stream, Option.map_some, Option.map_some, observe_eq]
    rfl
  · rw [streams]
    intro j hj
    rw [← own] at hj
    rw [tget_modStream, if_neg hj]
    show tget (State.modStream u g.stream _).streams j = _
    rw [tget_modStream, if_neg hj]
    exact (tget_tmod _ _ _ _).trans (if_neg (by rw [← own]; exact hj))
  · rw [stager]
    exact tget_tput_self _ _ _
  · rw [stager]
    exact sameAway_tput _ _ _
  · rw [feed, feed_take_accepted, ← idle]
  · exact sameBut_then (modStream_frame s _ _) frame (by decide) (by decide)

end

section
/-!
SUPPORT. A staging buffer given to a feed that waits: the opening of a segment, and the feeds passed over.
-/

namespace Sys2Proof.Machine

variable {s t : State}

/-! ## The opening of a segment (R48, R71) -/

/-- A buffer in which a segment has just opened. -/
def Staging.fresh (g : FileEntry) (start : Nat) (widths : Three) : Staging :=
  { stream := g.stream, fileNo := g.fileNo, body := [], state := .opened (Codec.fresh start widths) }

theorem openSegment_eq {k b : Nat} {g : FileEntry} {st : Stream} (hg : tget s.files k = some g)
    (hb : lowestFree s.stager.bufs 48 = some b) (hst : tget s.streams g.stream = some st) (start : Nat) :
    s.openSegment k start
      = ((s.modStream g.stream (fun x => { x with training := st.training.opened })).setBuf b
          (Staging.fresh g start st.training.opened.widths)).modFile k (fun g => { g with openSeg := some b }) := by
  unfold State.openSegment
  rw [hg, hb]
  dsimp only
  rw [hst]
  rfl

/-- The first record of a segment differs from the segment's base time by nothing. -/
theorem startZ_fresh (r : Rec) (widths : Three) : (Codec.fresh r.start widths).startZ r = 0 := by
  unfold Codec.startZ
  have base : (Codec.fresh r.start widths).previousStart = r.start := rfl
  rw [base, Int.sub_self]
  rfl

/-- The state in which a segment has opened for a file whose stream's account is already marked. -/
def State.segmentOpened (s : State) (k b start : Nat) (g : FileEntry) (st : Stream) (a : Account) : State :=
  (((s.modStream g.stream (fun x => { x with account := a })).modStream g.stream
    (fun x => { x with training := st.training.opened })).setBuf b
      (Staging.fresh g start st.training.opened.widths)).modFile k (fun g => { g with openSeg := some b })

theorem encoded_of_none {f : Feed} {g : FileEntry} {st : Stream} {w : WaitRec} {r : Rec} {b : Nat}
    (hg : tget s.files f.file = some g) (hb : g.openSeg = none) (hst : tget s.streams g.stream = some st)
    (free : lowestFree s.stager.bufs 48 = some b) :
    s.encoded f g st w r
      = (s.segmentOpened f.file b r.start g st (mark st.account w.cls w.seq).1).appendRecord f.file r := by
  have stream : tget (s.modStream g.stream (fun x => { x with account := (mark st.account w.cls w.seq).1 })).streams g.stream
      = some { st with account := (mark st.account w.cls w.seq).1 } := by
    rw [tget_modStream, if_pos rfl, hst]
    rfl
  unfold State.encoded
  dsimp only
  rw [hb, Option.isNone_none, if_pos rfl, openSegment_eq (s := s.modStream g.stream _) hg free stream]
  rfl

theorem segmentOpened_files {k : Nat} {g : FileEntry} (hg : tget s.files k = some g) (b start : Nat) (st : Stream)
    (a : Account) : tget (s.segmentOpened k b start g st a).files k = some { g with openSeg := some b } :=
  (tget_modFile _ k k _).trans ((if_pos rfl).trans (congrArg (Option.map _) hg))

theorem segmentOpened_stream {g : FileEntry} {st : Stream} (hst : tget s.streams g.stream = some st) (k b start : Nat)
    (a : Account) (j : Nat) : tget (s.segmentOpened k b start g st a).streams j
      = if j = g.stream then some { st with account := a, training := st.training.opened } else tget s.streams j := by
  show tget (tmod (tmod s.streams g.stream _) g.stream _) j = _
  rw [tget_tmod, tget_tmod, tget_tmod, if_pos rfl, hst]
  split
  · rfl
  · rfl

/-- A record whose file has no open segment opens one in the lowest-numbered FREE buffer and is encoded into it. -/
theorem encoded_of_none_parts {f : Feed} {g : FileEntry} {st : Stream} {w : WaitRec} {r : Rec} {b : Nat}
    (hg : tget s.files f.file = some g) (hb : g.openSeg = none) (hst : tget s.streams g.stream = some st)
    (free : lowestFree s.stager.bufs 48 = some b) :
    let training := st.training.opened
    let codec := Codec.fresh r.start training.widths
    let bits := encodeRec codec r
    (∀ j, tget (s.encoded f g st w r).streams j = if j = g.stream
        then some { st with account := (mark st.account w.cls w.seq).1, training := training.observe 1 0 r }
        else tget s.streams j)
      ∧ tget (s.encoded f g st w r).stager.bufs b
        = some { stream := g.stream, fileNo := g.fileNo, body := bits, state := .opened (codec.after r bits.length) }
      ∧ sameAway b s.stager.bufs (s.encoded f g st w r).stager.bufs
      ∧ (s.encoded f g st w r).stager.wait = s.stager.wait
      ∧ tget (s.encoded f g st w r).files f.file = some { g with openSeg := some b } := by
  intro training codec bits
  generalize ha : (mark st.account w.cls w.seq).1 = a
  have file := segmentOpened_files hg b r.start st a
  have streams := segmentOpened_stream hst f.file b r.start a
  have bufs : (s.segmentOpened f.file b r.start g st a).stager
      = { s.stager with bufs := tput s.stager.bufs b (Staging.fresh g r.start training.widths) } := rfl
  have buf : tget (s.segmentOpened f.file b r.start g st a).stager.bufs b = some (Staging.fresh g r.start training.widths) := by
    rw [bufs]
    exact tget_tput_self _ _ _
  rw [encoded_of_none hg hb hst free, ha, appendRecord_eq file rfl buf rfl r]
  refine ⟨fun j => ?_, ?_, fun j hj => ?_, rfl, file⟩
  · rw [tget_modStream]
    show (if j = g.stream then (tget (s.segmentOpened f.file b r.start g st a).streams g.stream).map _
      else tget (s.segmentOpened f.file b r.start g st a).streams j) = _
    rw [streams, streams, if_pos rfl, startZ_fresh]
    split
    · rfl
    · rfl
  · exact tget_tput_self _ _ _
  · refine (tget_tput_of_ne hj _ _).trans ?_
    rw [bufs]
    exact tget_tput_of_ne hj _ _

/-! ## Feeds passed over (R71) -/

/-- A feed whose record already waits for journal places is passed over without a change. -/
theorem passOver_of_awaits {c : ChainRef} (h : s.journal.awaitsPlaces c = true) : s.passOver c = s := by
  unfold State.passOver
  split
  · exact if_pos h
  · rfl

/-- The first feed that can take its record takes the buffer, where those before it already wait for places. -/
theorem giveTo_append {c : ChainRef} (before rest : List ChainRef)
    (h : ∀ d ∈ before, s.feedAble d = false ∧ s.journal.awaitsPlaces d = true) (hc : s.feedAble c = true) :
    State.giveTo (before ++ c :: rest) s = s.takeWaiting c := by
  induction before with
  | nil => exact if_pos hc
  | cons d before ih =>
    obtain ⟨unable, awaits⟩ := h d List.mem_cons_self
    rw [List.cons_append, State.giveTo, if_neg (by rw [unable]; exact Bool.false_ne_true), passOver_of_awaits awaits]
    exact ih (fun e he => h e (List.mem_cons_of_mem _ he))

theorem feedAble_of_no_places {c : ChainRef} {f : Feed} {w : WaitRec} (hf : s.feed c = some f) (hw : f.waiting = some w)
    (hp : w.places = 0) : s.feedAble c = true := by
  unfold State.feedAble
  rw [hf]
  dsimp only
  rw [hw]
  simp [hp]

/-- A record that wants journal places, has none reserved and can be given none, cannot be taken. -/
theorem not_feedAble_of_full {c : ChainRef} {f : Feed} {w : WaitRec} (hf : s.feed c = some f) (hw : f.waiting = some w)
    (hp : w.places ≠ 0) (ha : s.journal.awaitsPlaces c = false) (hn : s.canAppend w.places = false) :
    s.feedAble c = false := by
  unfold State.feedAble
  rw [hf]
  dsimp only
  rw [hw]
  dsimp only
  rw [hn, decide_eq_false hp]
  unfold Journal.awaitsPlaces at ha
  split
  · rename_i d n _ hj
    rw [hj, List.any_cons, Bool.or_eq_false_iff] at ha
    rw [show decide (d = c) = false from ha.1]
    rfl
  · rfl

/-- A record with nothing reserved for it is taken in the buffer, and its feed leaves the buffer wait list. -/
theorem takeWaiting_eq {c : ChainRef} {f : Feed} {w : WaitRec} (hf : s.feed c = some f) (hw : f.waiting = some w)
    (hr : s.headReserved c = false) :
    s.takeWaiting c
      = (s.setStager { s.stager with wait := s.stager.wait.filter (fun d => decide (d ≠ c)) }).takeAndMove c f w := by
  unfold State.takeWaiting
  rw [hf]
  dsimp only
  rw [hw]
  exact if_neg (fun e => Bool.false_ne_true (hr.symm.trans e))

end Sys2Proof.Machine

open Sys2Proof Sys2Proof.Machine

/-- Settles O15: the buffer goes past the feeds that wait for places to the first that can take it; a feed that wants places
joins those that wait for them. -/
theorem givenBufferTakesTheWaitingRecord : Obligations.GivenBufferTakesTheWaitingRecord := by
  unfold Obligations.GivenBufferTakesTheWaitingRecord
  refine ⟨fun s before rest c f w r g st b few wait passed hf hw hr places drops unreserved low next hg hb hst free => ?_,
    fun s c f w few wait hf hw places awaits full => ⟨s.giveBuffer, rfl, ?_⟩⟩
  · intro t0 codec bits
    refine ⟨s.giveBuffer, rfl, ?_⟩
    have given : s.giveBuffer
        = (s.setStager { s.stager with wait := s.stager.wait.filter (fun d => decide (d ≠ c)) }).takeAndMove c f w := by
      unfold State.giveBuffer
      rw [if_pos few, wait, giveTo_append before rest passed (feedAble_of_no_places hf hw places),
        takeWaiting_eq hf hw unreserved, wait]
    rw [given]
    generalize hu : s.setStager { s.stager with wait := s.stager.wait.filter (fun d => decide (d ≠ c)) } = u
    have left : s.sameBut [.stager] u := hu ▸ setStager_frame s _
    have bufs : u.stager.bufs = s.stager.bufs := by rw [← hu]; rfl
    have waits : u.stager.wait = s.stager.wait.filter (fun d => decide (d ≠ c)) := by rw [← hu]; rfl
    have hg' : tget u.files f.file = some g := by rw [left.files (by decide)]; exact hg
    have hst' : tget u.streams g.stream = some st := by rw [left.streams (by decide)]; exact hst
    have low' : u.journal.low = decide (u.freePlaces < lowMark) := by
      rw [freePlaces_of_same (left.journal (by decide)) (left.settings (by decide)), left.journal (by decide)]
      exact low
    obtain ⟨files, streams, stager, feed, state, frame⟩ := recordTaken_takeAndMove (w := w)
      ((feed_of_ports (left.ports (by decide)) c).trans hf) next hg' hst' hr drops low'
    obtain ⟨eStreams, eBuf, eBufs, eWait, eFile⟩ :=
      encoded_of_none_parts (w := w) (r := r) hg' hb hst' (by rw [bufs]; exact free)
    refine ⟨?_, ?_, ?_, 
      ⟨FileEntry.take { g with openSeg := some b } .accepted w.duration w.units w.changed, ?_, rfl, rfl, rfl, rfl⟩, ?_, ?_,
      ⟨_, feed, rfl, rfl, rfl⟩, state, sameBut_then left frame (by decide) (by decide)⟩
    · rw [stager]
      exact eBuf
    · rw [stager, ← bufs]
      exact eBufs
    · rw [stager, eWait, waits]
    · rw [files, tget_tmod, if_pos rfl, eFile]
      rfl
    · rw [streams, eStreams, if_pos rfl, observe_eq]
      rfl
    · intro j hj
      rw [streams, eStreams, if_neg hj, left.streams (by decide)]
  · have given : s.giveBuffer = s.joinAppend (.record c w.places) := by
      unfold State.giveBuffer
      rw [if_pos few, wait, State.giveTo, not_feedAble_of_full hf hw places awaits full]
      unfold State.passOver
      rw [hf, Option.bind_some, hw]
      dsimp only
      rw [awaits]
      rfl
    rw [given]
    refine ⟨(joinAppend_wait s _).1, joinAppend_frame s _, fun d => ?_⟩
    unfold State.joinAppend
    rw [decideLow_chain, chain_of_ports ((reserveWait_frame _).ports (by decide))]
    rfl

end

section
/-!
SUPPORT. How a feed ends: what it leaves, what it completes with, and the places that end it.
-/

namespace Sys2Proof.Machine

variable {s t : State}

/-! ## The end of a feed (R13) -/

/-- A feed that leaves its lane and its lists leaves every chain. -/
theorem leaveFeed_chain (s : State) (c d : ChainRef) : (s.leaveFeed c).chain d = s.chain d := by
  unfold State.leaveFeed State.leaveAppend
  dsimp only
  split
  · rfl
  · rw [decideLow_chain, chain_of_ports ((reserveWait_frame _).ports (by decide))]
    rfl

theorem leaveFeed_state (s : State) (c : ChainRef) (q : PortId) : ((s.leaveFeed c).port q).state = (s.port q).state := by
  unfold State.leaveFeed State.leaveAppend
  dsimp only
  split
  · rfl
  · rw [decideLow_state, port_of_ports ((reserveWait_frame _).ports (by decide))]
    rfl

theorem posts_leaveFeed (s : State) (c : ChainRef) : s.posts (s.leaveFeed c) := posts_leaveAppend _ c

theorem feedCompletion_leaveFeed (s : State) (c : ChainRef) (f : Feed) (st : Status) (b : Bool) :
    (s.leaveFeed c).feedCompletion f st b = s.feedCompletion f st b := by
  unfold State.feedCompletion State.feedFileState
  rw [(leaveFeed_frame s c).files (by decide)]

section
variable {c : ChainRef} {d : Desc} {f : Feed}

theorem endFeed_eq (hd : (s.chain c).desc = some d) (hj : d.job = some (.feed f)) (st : Status) (b : Bool) :
    s.endFeed c st b = (s.leaveFeed c).complete c (s.feedCompletion f st b) := by
  unfold State.endFeed
  rw [feed_of_desc hd hj]
  dsimp only
  rw [feedCompletion_leaveFeed]

/-- A feed that ends reports its counts in its completion. -/
theorem endFeed_completion (hd : (s.chain c).desc = some d) (hj : d.job = some (.feed f)) (st : Status) (b : Bool) :
    .completion c.port (d.addr + 32) (s.feedCompletion f st b) ∈ (s.endFeed c st b).out := by
  rw [endFeed_eq hd hj]
  exact mem_out_complete (by rw [leaveFeed_chain]; exact hd) _

theorem endFeed_job (hd : (s.chain c).desc = some d) (hj : d.job = some (.feed f)) (st : Status) (b : Bool) :
    (s.endFeed c st b).job c = none := by
  rw [endFeed_eq hd hj]
  exact complete_job_none (by rw [leaveFeed_chain]; exact hd) _

end

/-- On a port that does not drain the end of a feed leaves the files. -/
theorem endFeed_undrained_frame {c : ChainRef} (h : (s.port c.port).state ≠ .draining) (st : Status) (b : Bool) :
    s.sameBut [.arbiter, .stager, .journal, .scanner, .ports, .out] (s.endFeed c st b) := by
  unfold State.endFeed
  split
  · exact sameBut_then (leaveFeed_frame s c) (complete_undrained_frame _ (by rw [leaveFeed_state]; exact h)) (by decide)
      (by decide)
  · exact sameBut_refl _ s

/-- The completion of a feed whose file stands in the table. -/
theorem feedCompletion_of_file {f : Feed} {g : FileEntry} (hf : f.fileGone = false) (hg : tget s.files f.file = some g)
    (st : Status) (b : Bool) : s.feedCompletion f st b =
      { status := st, flags := { Flags.none with trailerTaken := b }, mismatch := false, stateAfter := some (.file g.state),
        countDone := f.accepted + f.duplicates + f.dropped,
        results := .feed f.accepted f.duplicates f.dropped f.clamped f.skipped f.beyond } := by
  unfold State.feedCompletion State.feedFileState
  rw [hf, hg]
  rfl

/-! ## Unmasked faults (R34) -/

section
variable {i : CheckInput} {k : FaultKind} {sticky : BitVec 9} {raw : RawRec}

/-- A result that halts where its kind is not masked. -/
theorem unmasked_of_halt {j : FaultKind} {other : CheckEnd} (ho : other ≠ .halt k)
    (h : (if masked i.mask j then other else .halt j) = .halt k) : masked i.mask k = false := by
  split at h
  · exact absurd h ho
  · rename_i hm
    obtain rfl := CheckEnd.halt.inj h
    exact Bool.eq_false_iff.mpr hm

/-- The same where a masked kind goes on to the next check. -/
theorem unmasked_of_default {j : FaultKind} {goesOn halts : Checked} (hn : goesOn.result = .halt k → masked i.mask k = false)
    (hc : halts.result = .halt j) (h : (if masked i.mask j then goesOn else halts).result = .halt k) :
    masked i.mask k = false := by
  split at h
  · exact hn h
  · rename_i hm
    obtain rfl := CheckEnd.halt.inj (hc.symm.trans h)
    exact Bool.eq_false_iff.mpr hm

theorem checkExpired_halt {changed : Bool} {cls : SeqClass}
    (h : (checkExpired i sticky raw changed cls).result = .halt k) : masked i.mask k = false := by
  unfold checkExpired at h
  split at h
  · exact unmasked_of_halt CheckEnd.noConfusion h
  · cases h

theorem checkSequence_halt {changed : Bool} (h : (checkSequence i sticky raw changed).result = .halt k) :
    masked i.mask k = false := by
  unfold checkSequence at h
  split at h
  · exact checkExpired_halt h
  · exact unmasked_of_halt CheckEnd.noConfusion h

theorem checkSkew_halt {changed : Bool} (h : (checkSkew i sticky raw changed).result = .halt k) :
    masked i.mask k = false := by
  unfold checkSkew at h
  split at h
  · exact unmasked_of_default checkSequence_halt rfl h
  · exact checkSequence_halt h

theorem checkRange_halt {changed : Bool} (h : (checkRange i sticky raw changed).result = .halt k) :
    masked i.mask k = false := by
  unfold checkRange at h
  split at h
  · exact unmasked_of_default checkSkew_halt rfl h
  · exact checkSkew_halt h

theorem checkDigits_halt (h : (checkDigits i sticky raw).result = .halt k) : masked i.mask k = false := by
  unfold checkDigits at h
  split at h
  · exact unmasked_of_default checkRange_halt rfl h
  · exact checkRange_halt h

/-- A check halts a file only with a kind that is not masked. -/
theorem checkRecord_halt (h : (checkRecord i sticky raw).result = .halt k) : masked i.mask k = false := by
  unfold checkRecord at h
  split at h
  · exact unmasked_of_halt CheckEnd.noConfusion h
  · exact checkDigits_halt h

end

/-! ## The halt of a file at a place (R14, R35) -/

/-- The state in which the feed of a file that halts at a place ends. -/
def State.halted (s : State) (f : Feed) (g : FileEntry) (kind : FaultKind) (record : Option (Seq × Nat))
    (found : Option Nat) : State :=
  let stream := s.modStream g.stream (fun st => { st with lastFault := some (faultAt kind g.fileNo f.next record found) })
  let file := stream.modFile f.file (fun g => { g with state := .halted, haltCause := some .fault })
  file.notice g.owner .fileHalted (.file (file.sourceOf g.stream) g.fileNo)

theorem haltAt_eq {f : Feed} {g : FileEntry} (hg : tget s.files f.file = some g) (c : ChainRef) (kind : FaultKind)
    (record : Option (Seq × Nat)) (found : Option Nat) :
    s.haltAt c f kind record found = (s.halted f g kind record found).endFeed c .haltedFault false := by
  unfold State.haltAt
  rw [hg]
  rfl

section
variable (s) (f : Feed) (g : FileEntry) (kind : FaultKind) (record : Option (Seq × Nat)) (found : Option Nat)

theorem halted_frame : s.sameBut [.streams, .files, .ports, .out] (s.halted f g kind record found) :=
  sameBut_then (sameBut_then (m := [.streams, .files]) (modStream_frame s _ _) (modFile_frame _ _ _) (by decide) (by decide))
    (notice_frame _ _ _ _) (by decide) (by decide)

theorem halted_files : (s.halted f g kind record found).files
    = tmod s.files f.file (fun g => { g with state := .halted, haltCause := some .fault }) := by
  unfold State.halted
  dsimp only
  rw [(notice_frame _ _ _ _).files (by decide)]
  rfl

theorem halted_streams : (s.halted f g kind record found).streams
    = tmod s.streams g.stream (fun st => { st with lastFault := some (faultAt kind g.fileNo f.next record found) }) := by
  unfold State.halted
  dsimp only
  rw [(notice_frame _ _ _ _).streams (by decide)]
  rfl

theorem halted_chain (c : ChainRef) : (s.halted f g kind record found).chain c = s.chain c := chain_notice _ _ _ _ _

theorem halted_state (q : PortId) : ((s.halted f g kind record found).port q).state = (s.port q).state :=
  state_notice _ _ _ _ _

end

/-! ## Other kinds of places (R9, R12) -/

/-- A fill place passes over the rest of its block. -/
theorem readPlace_of_fill {bytes : List Byte} {st : Stream} (h : byteAt bytes 0 = st.fill) (hd : st.fill ≠ 0xD1)
    (ht : st.fill ≠ 0xE7) (c : ChainRef) (f : Feed) (g : FileEntry) :
    s.readPlace c f g st bytes = s.moveFeed c (nextBlock f.next) := by
  unfold State.readPlace
  dsimp only
  rw [if_neg (by rw [h]; exact hd), if_neg (by rw [h]; exact ht), if_pos h]

/-- A trailer of the file's own number is accepted. -/
theorem readPlace_of_trailer {bytes : List Byte} {g : FileEntry} (h : byteAt bytes 0 = 0xE7)
    (hn : (trailerAt bytes).fileNo = g.fileNo) (c : ChainRef) (f : Feed) (st : Stream) :
    s.readPlace c f g st bytes = s.acceptTrailer c f (trailerAt bytes) := by
  unfold State.readPlace
  dsimp only
  rw [if_neg (by rw [h]; decide), if_pos h]
  unfold State.trailerPlace
  exact if_pos hn

end Sys2Proof.Machine

open Sys2Proof Sys2Proof.Machine

/-- Settles O12: only an unmasked kind halts, and what ends the feed there leaves the halted file and its segment. -/
theorem unmaskedFaultHaltsAtTheRecord : Obligations.UnmaskedFaultHaltsAtTheRecord := by
  unfold Obligations.UnmaskedFaultHaltsAtTheRecord
  intro s port chain bytes f g st d kind c raw checked opened hd hj lane here idle hg own hst data halts
  refine ⟨s.recordPlace c bytes.toList, rfl, checkRecord_halt halts, ?_⟩
  let u := s.modStream f.stream (fun x => { x with sticky := checked.sticky })
  let h := u.halted f g kind (some (raw.seq, raw.start)) none
  have run : s.recordPlace c bytes.toList = h.endFeed c .haltedFault false := by
    rw [recordPlace_eq (feed_of_desc hd hj) lane idle hg hst, readPlace_of_data ((byteAt_zero bytes).trans data)]
    unfold State.checkedRecord
    dsimp only
    rw [show (checkRecord (s.checkInput st) st.sticky (rawRecord bytes.toList)).result = .halt kind from halts]
    exact haltAt_eq (s := u) hg c kind _ none
  have chain : (h.chain c).desc = some d := (congrArg Chain.desc (halted_chain u f g kind _ none c)).trans hd
  have undrained : (h.port c.port).state ≠ .draining := by
    rw [show (h.port c.port).state = (u.port c.port).state from halted_state u f g kind _ none c.port,
      show (u.port c.port).state = .opened from opened]
    exact PortState.noConfusion
  have ending := endFeed_undrained_frame undrained .haltedFault false
  have files : h.files = tmod s.files f.file (fun g => { g with state := .halted, haltCause := some .fault }) :=
    halted_files u f g kind _ none
  have streams : h.streams = tmod u.streams g.stream _ := halted_streams u f g kind _ none
  have file : tget h.files f.file = some { g with state := .halted, haltCause := some .fault } := by
    rw [files, tget_tmod, if_pos rfl, hg]
    rfl
  rw [run]
  refine ⟨?_, ?_, ?_, ?_, ?_, endFeed_job chain hj _ _, ?_⟩
  · rw [ending.files (by decide)]
    exact file
  · rw [ending.files (by decide), files]
    exact sameAway_tmod _ _ _
  · rw [ending.streams (by decide), streams, own, tget_tmod, if_pos rfl, tget_modStream, if_pos rfl, hst]
    rfl
  · intro j hj
    rw [ending.streams (by decide), streams, own, tget_tmod, if_neg hj, tget_modStream, if_neg hj]
  · rw [(endFeed_bufs h c _ _).1, (halted_frame u f g kind _ none).stager (by decide)]
    rfl
  · have posted := endFeed_completion chain hj .haltedFault false
    rw [feedCompletion_of_file here file] at posted
    exact posted

/-- Settles O13: a fill place moves the feed on; a trailer hands the open segment to sealing, and with a segment in flight
the file is not handed over yet. -/
theorem fillIsPassedAndTheTrailerCloses : Obligations.FillIsPassedAndTheTrailerCloses := by
  unfold Obligations.FillIsPassedAndTheTrailerCloses
  intro s port chain bytes f g st d c hd hj lane idle hg own hst
  have feed := feed_of_desc hd hj
  have read := recordPlace_eq feed lane idle hg hst bytes.toList
  refine ⟨fun fill data trailer room => ⟨s.recordPlace c bytes.toList, rfl, ?_⟩,
    fun kind number here b v codec seg hv hc => ?_⟩
  · rw [read, readPlace_of_fill ((byteAt_zero bytes).trans fill) data trailer]
    refine ⟨moveFeed_of_lt_feed feed room, fun q hq => ?_, moveFeed_of_lt_frame feed room⟩
    rw [moveFeed_of_lt (next := nextBlock f.next) feed room, port_setChainState_of_ne _ _ _ hq, port_setJob_of_ne _ _ _ hq]
  · intro beyond
    refine ⟨s.recordPlace c bytes.toList, rfl, ?_⟩
    rw [read, readPlace_of_trailer ((byteAt_zero bytes).trans kind) number]
    let g' : FileEntry := { g with
      trailer := some (trailerAt bytes.toList), closingCause := some .trailer, state := .closing
      beyond := g.beyond + beyond }
    let f' : Feed := { f with beyond := f.beyond + beyond }
    generalize hu : s.modFile f.file (fun g => { g with
      trailer := some (trailerAt bytes.toList), closingCause := some .trailer, state := .closing
      beyond := g.beyond + beyond }) = u
    have closing : tget u.files f.file = some g' := by
      rw [← hu, tget_modFile, if_pos rfl, hg]
      rfl
    have base : s.sameBut [.files] u := hu ▸ modFile_frame s _ _
    have handed := handedOff_handOff (st := st) (codec := codec) closing seg (by rw [base.stager (by decide)]; exact hv)
      (by rw [base.streams (by decide), show g'.stream = f.stream from own]; exact hst) hc
    generalize hw : u.handOff f.file = w at handed
    obtain ⟨files, bufs, -, settings, ⟨training, stream, trained⟩, streams, -, frame⟩ := handed
    have desc : (((w.setJob c (.feed f')).chain c).desc) = some { d with job := some (.feed f') } := by
      unfold State.setJob
      rw [chain_modChain, if_pos rfl, chain_of_ports (frame.ports (by decide)), chain_of_ports (base.ports (by decide)), hd]
      rfl
    have file := (files f.file).trans (if_pos rfl)
    have shut := endFeed_files (w.setJob c (.feed f')) c .done true file FileState.noConfusion FileState.noConfusion
    have run : s.acceptTrailer c f (trailerAt bytes.toList) = (w.setJob c (.feed f')).endFeed c .done true := by
      rw [← handOver_of_not_ready shut (.inr (Nat.succ_ne_zero _)), ← hw, ← hu]
      rfl
    rw [run]
    have ending := endFeed_frame (w.setJob c (.feed f')) c .done true
    refine ⟨shut, ?_, ?_, ⟨training, ?_, trained⟩, ?_, ?_⟩
    · rw [(endFeed_bufs _ c _ _).1]
      show tget w.stager.bufs b = _
      rw [bufs, base.settings (by decide), tget_tput_self]
    · rw [ending.settings (by decide)]
      exact settings.trans (by rw [base.settings (by decide)])
    · rw [ending.streams (by decide), ← own]
      exact stream
    · rw [ending.streams (by decide), ← own, ← base.streams (by decide)]
      exact streams
    · have posted := endFeed_completion desc rfl .done true
      rw [feedCompletion_of_file (s := w.setJob c (.feed f')) (f := f') here file] at posted
      exact posted

end

section
/-!
SUPPORT. Reads that are not answered: a fetch that ends its chain, and a feed that ends with its lane given back.
-/

namespace Sys2Proof.Machine

variable {s t : State}

/-- A feed's completion in full, whether its file still stands in the table or not. -/
theorem feedCompletion_eq (s : State) (f : Feed) (st : Status) (b : Bool) : s.feedCompletion f st b =
    { status := st, flags := { Flags.none with trailerTaken := b }, mismatch := false,
      stateAfter := if f.fileGone then none else (tget s.files f.file).map (fun g => .file g.state),
      countDone := f.accepted + f.duplicates + f.dropped,
      results := .feed f.accepted f.duplicates f.dropped f.clamped f.skipped f.beyond } := by
  have after : (s.feedFileState f).map StateAfter.file
      = if f.fileGone then none else (tget s.files f.file).map (fun g => .file g.state) := by
    unfold State.feedFileState
    cases f.fileGone with
    | true => rfl
    | false => cases tget s.files f.file <;> rfl
  unfold State.feedCompletion
  rw [after]

/-- What a feed gives back at the arbiter when it ends. -/
theorem endFeed_arbiter {c : ChainRef} {f : Feed} (hf : s.feed c = some f) (st : Status) (b : Bool) :
    (s.endFeed c st b).arbiter = ((s.freeLane (.chain c)).leaveArbiter c).arbiter := by
  unfold State.endFeed
  rw [hf]
  dsimp only
  rw [(complete_frame _ c _).arbiter (by decide)]
  unfold State.leaveFeed
  dsimp only
  rw [(leaveAppend_frame _ c).arbiter (by decide)]
  rfl

theorem freeLane_lane (s : State) (r : JobRef) (l : LaneNo) :
    (s.freeLane r).arbiter.lanes[l.val] = if s.arbiter.lanes[l.val] = some r then none else s.arbiter.lanes[l.val] := by
  unfold State.freeLane
  simp

/-- A fetch that fails ends its chain with a notice. -/
theorem fetchFails_eq {c : ChainRef} (h : s.fetching c = true) (hp : (s.port c.port).state ≠ .draining) :
    s.fetchFails c = (s.modChain c (fun k => { k with state := .idle, desc := none })).notice c.port .fetchTimeout
      (.chain c.chain (s.chain c).next) := by
  unfold State.fetchFails
  rw [if_pos h, idleChain_of_not_draining hp]

/-- The slot write of a CHAIN notice. -/
theorem noticePosts_fetchTimeout {q r : Port} (a : At) (hq : q.area = r.area) (hn : q.chainNotices = r.chainNotices)
    (addr time : Nat) : noticePosts q a.port .fetchTimeout (.chain a.chain addr) time
      = chainNotice r a .fetchTimeout addr time := by
  unfold noticePosts chainNotice
  rw [hq]
  cases r.area with
  | none => rfl
  | some area =>
    show (if area.chain = true then _ else _) = _
    dsimp only
    rw [← hn]
    rfl

end Sys2Proof.Machine

open Sys2Proof Sys2Proof.Machine

/-- Settles O49: a chain that fetches ends with a notice alone; a feed that holds a lane ends with its completion. -/
theorem unansweredReadEndsTheChain : Obligations.UnansweredReadEndsTheChain := by
  unfold Obligations.UnansweredReadEndsTheChain
  intro s a c opened
  have undrained : (s.port c.port).state ≠ .draining := fun e => PortState.noConfusion (opened.symm.trans e)
  refine ⟨fun fetching => ⟨s.fetchFails c, rfl, ?_, ?_, ?_, ?_⟩,
    fun d f hd hj lane => ⟨s.bufferReadFails c, rfl, ?_, ?_⟩⟩
  · exact congrArg Host.Outcome.next (if_pos fetching)
  · rw [fetchFails_eq fetching undrained, chain_notice, chain_modChain, if_pos rfl, ← desc_of_fetching fetching]
  · rw [fetchFails_eq fetching undrained, notice_out]
    refine congrArg (s.out ++ ·) ?_
    refine noticePosts_fetchTimeout a ?_ ?_ _ _
    · rw [port_modChain, if_pos rfl]
      rfl
    · rw [port_modChain, if_pos rfl]
      rfl
  · rw [fetchFails_eq fetching undrained]
    exact sameBut_then (modChain_frame s c _) (notice_frame _ _ _ _) (by decide) (by decide)
  · have busy : ¬ s.fetching c = true := fun e => by
      rw [desc_of_fetching e] at hd
      cases hd
    exact congrArg Host.Outcome.next (if_neg busy)
  · have ended : s.bufferReadFails c = s.endFeed c .fetchTimeout false := by
      unfold State.bufferReadFails
      rw [job_of_desc hd, hj]
      exact if_pos lane
    have frame := endFeed_undrained_frame undrained .fetchTimeout false
    have posted := endFeed_completion hd hj .fetchTimeout false
    rw [feedCompletion_eq] at posted
    rw [ended]
    refine ⟨?_, endFeed_job hd hj _ _, fun l => ?_, posted, frame.files (by decide), frame.streams (by decide),
      (endFeed_bufs s c _ _).1⟩
    · rw [endFeed_eq hd hj]
      obtain ⟨-, -, -, idle⟩ := complete_chain (s := s.leaveFeed c) (by rw [leaveFeed_chain]; exact hd)
        (s.feedCompletion f .fetchTimeout false)
      exact idle (.inr rfl)
    · rw [endFeed_arbiter (feed_of_desc hd hj)]
      show (s.freeLane (.chain c)).arbiter.lanes[l.val] ≠ _
      rw [freeLane_lane]
      split
      · exact fun e => by cases e
      · rename_i e; exact e

end

section
/-!
SUPPORT. The Service Arbiter: which job the next grant goes to, what the grant charges, and how the job granted goes on.
-/

namespace Sys2Proof.Machine

variable {s t : State}

/-! ## The next grant (R165) -/

/-- One port in the search for the next grant. -/
def State.better (s : State) (best : Option ChainRef) (p : PortId) : Option ChainRef :=
  match s.candidate p, best with
  | some c, some b => if (s.port p).tag < (s.port b.port).tag then some c else some b
  | some c, none => some c
  | none, b => b

/-- The best of the ports seen: the least tag, the lower number where tags are equal. -/
def State.leads (s : State) (seen : List PortId) : Option ChainRef → Prop
  | none => ∀ q ∈ seen, s.candidate q = none
  | some b => ∀ q ∈ seen, ∀ d, s.candidate q = some d →
      (s.port b.port).tag ≤ (s.port q).tag ∧ ((s.port q).tag = (s.port b.port).tag → b.port.val ≤ q.val)

/-- A port's candidate is one of its own chains, waits in its list, and may be granted. -/
theorem candidate_spec {p : PortId} {c : ChainRef} (h : s.candidate p = some c) :
    c.port = p ∧ s.grantable c = true := by
  unfold State.candidate at h
  obtain ⟨n, hn, rfl⟩ := Option.map_eq_some_iff.mp h
  exact ⟨rfl, by simpa using List.find?_some hn⟩

theorem leads_better {seen : List PortId} {best : Option ChainRef} {p : PortId} (h : s.leads seen best)
    (above : ∀ b, best = some b → b.port.val < p.val) : s.leads (p :: seen) (s.better best p) := by
  unfold State.better
  cases hp : s.candidate p with
  | none =>
    cases best with
    | none =>
      intro q hq
      rcases List.mem_cons.mp hq with rfl | hq
      · exact hp
      · exact h q hq
    | some b =>
      intro q hq d hd
      rcases List.mem_cons.mp hq with rfl | hq
      · rw [hp] at hd; cases hd
      · exact h q hq d hd
  | some c =>
    obtain ⟨own, -⟩ := candidate_spec hp
    subst own
    cases best with
    | none =>
      intro q hq d hd
      rcases List.mem_cons.mp hq with rfl | hq
      · exact ⟨Nat.le_refl _, fun _ => Nat.le_refl _⟩
      · rw [h q hq] at hd; cases hd
    | some b =>
      dsimp only
      split
      · rename_i less
        intro q hq d hd
        rcases List.mem_cons.mp hq with rfl | hq
        · exact ⟨Nat.le_refl _, fun _ => Nat.le_refl _⟩
        · obtain ⟨least, -⟩ := h q hq d hd
          exact ⟨by omega, fun e => by omega⟩
      · rename_i notLess
        intro q hq d hd
        rcases List.mem_cons.mp hq with rfl | hq
        · exact ⟨by omega, fun _ => Nat.le_of_lt (above b rfl)⟩
        · exact h q hq d hd

theorem better_port {best : Option ChainRef} {p : PortId} {n : Nat} (hp : p.val < n)
    (h : ∀ b, best = some b → b.port.val < n) (c : ChainRef) (hc : s.better best p = some c) : c.port.val < n := by
  unfold State.better at hc
  cases hq : s.candidate p with
  | none => rw [hq] at hc; exact h c hc
  | some d =>
    obtain ⟨own, -⟩ := candidate_spec hq
    rw [hq] at hc
    cases best with
    | none => obtain rfl := Option.some.inj hc; rw [own]; exact hp
    | some b =>
      dsimp only at hc
      split at hc
      · obtain rfl := Option.some.inj hc; rw [own]; exact hp
      · obtain rfl := Option.some.inj hc; exact h _ rfl

theorem nextGrant_leads (s : State) : s.leads [3, 2, 1, 0] s.nextGrant := by
  have nobody : s.leads [] none := fun _ h => by cases h
  have lead0 := leads_better (p := 0) nobody (fun _ e => by cases e)
  have port0 := better_port (s := s) (p := 0) (n := 1) (by decide) (best := none) (fun _ e => by cases e)
  have lead1 := leads_better (p := 1) lead0 port0
  have port1 := better_port (s := s) (p := 1) (n := 2) (by decide) (fun b e => Nat.lt_succ_of_lt (port0 b e))
  have lead2 := leads_better (p := 2) lead1 port1
  have port2 := better_port (s := s) (p := 2) (n := 3) (by decide) (fun b e => Nat.lt_succ_of_lt (port1 b e))
  exact leads_better (p := 3) lead2 port2

theorem mem_ports (q : PortId) : q ∈ ([3, 2, 1, 0] : List PortId) := by
  revert q; decide

/-- The next grant goes to the least tag, and to the lower number where tags are equal. -/
theorem nextGrant_least {c : ChainRef} (h : s.nextGrant = some c) (q : PortId) (d : ChainRef)
    (hd : s.candidate q = some d) :
    (s.port c.port).tag ≤ (s.port q).tag ∧ ((s.port q).tag = (s.port c.port).tag → c.port.val ≤ q.val) := by
  have leads := nextGrant_leads s
  rw [h] at leads
  exact leads q (mem_ports q) d hd

/-- No feed may be granted while another of its source holds a lane. -/
theorem grantable_feed {d e : ChainRef} {f g : Feed} (h : s.grantable d = true) (hd : s.feed d = some f)
    (he : s.feed e = some g) (hg : g.laneHeld = true) : g.source ≠ f.source := by
  unfold State.grantable at h
  rw [feed_eq_some_iff.mp hd] at h
  have one := List.all_eq_true.mp h e (mem_allChains e)
  rw [he] at one
  intro same
  simp [hg, same] at one

/-! ## What a grant charges -/

theorem freeLane_eq {l : LaneNo} (free : s.arbiter.lanes[l.val] = none)
    (lowest : ∀ k : LaneNo, k.val < l.val → s.arbiter.lanes[k.val] ≠ none) : s.arbiter.freeLane = some l := by
  unfold Arbiter.freeLane four
  match l with
  | 0 => simp_all [List.find?]
  | 1 => have := lowest 0 (by decide); simp_all [List.find?]
  | 2 => have := lowest 0 (by decide); have := lowest 1 (by decide); simp_all [List.find?]
  | 3 => have := lowest 0 (by decide); have := lowest 1 (by decide); have := lowest 2 (by decide); simp_all [List.find?]

/-- A charged port's tag, where no tag has to be lowered. -/
theorem charge_of_lt {p : PortId} (h : (s.port p).tag < 2 ^ 46) (cost : Nat) :
    s.charge p cost = (s.modPort p (fun q => { q with tag := q.tag + cost * q.interval })).setArbiter
      { s.arbiter with g := (s.port p).tag } := by
  unfold State.charge
  exact if_neg (Nat.not_le.mpr h)

/-- The state in which the job granted a lane goes on. -/
def State.laneGiven (s : State) (c : ChainRef) (l : LaneNo) : State :=
  ((s.charge c.port (s.cost c)).leaveArbiter c).holdLane l (.chain c)

section
variable {c : ChainRef} {l : LaneNo}

theorem grantLane_eq (hl : s.arbiter.freeLane = some l) (hc : s.nextGrant = some c) :
    s.grantLane = (s.laneGiven c l).granted c := by
  unfold State.grantLane
  rw [hl, hc]
  rfl

theorem laneGiven_arbiter (h : (s.port c.port).tag < 2 ^ 46) :
    (s.laneGiven c l).arbiter = { s.arbiter with
      lanes := vset s.arbiter.lanes l (some (.chain c)), g := (s.port c.port).tag,
      waiting := vset s.arbiter.waiting c.port
        (s.arbiter.waiting[c.port.val].filter (fun d => decide (d ≠ c.chain))) } := by
  unfold State.laneGiven
  rw [charge_of_lt h]
  rfl

theorem laneGiven_port (h : (s.port c.port).tag < 2 ^ 46) (l : LaneNo) (q : PortId) :
    (s.laneGiven c l).port q = if q = c.port
      then { s.port c.port with tag := (s.port c.port).tag + s.cost c * (s.port c.port).interval } else s.port q := by
  unfold State.laneGiven
  rw [charge_of_lt h]
  exact port_modPort s c.port q _

theorem laneGiven_chain (h : (s.port c.port).tag < 2 ^ 46) (l : LaneNo) (d : ChainRef) :
    (s.laneGiven c l).chain d = s.chain d := by
  unfold State.laneGiven
  rw [charge_of_lt h]
  exact chain_modPort_of_chains s c.port (fun q => { q with tag := q.tag + s.cost c * q.interval }) rfl d

theorem laneGiven_frame (h : (s.port c.port).tag < 2 ^ 46) (l : LaneNo) :
    s.sameBut [.ports, .arbiter] (s.laneGiven c l) := by
  unfold State.laneGiven
  rw [charge_of_lt h]
  exact sameBut_then (m := [.ports, .arbiter]) (sameBut_then (m := [.ports, .arbiter])
    (sameBut_then (m := [.ports, .arbiter]) (modPort_frame s _ _) (setArbiter_frame _ _) (by decide) (by decide))
    (leaveArbiter_frame _ c) (by decide) (by decide)) (setArbiter_frame _ _) (by decide) (by decide)

end

/-! ## The job granted a lane -/

theorem tag_modChain (s : State) (c : ChainRef) (f : Chain → Chain) (q : PortId) :
    ((s.modChain c f).port q).tag = (s.port q).tag := by
  rw [port_modChain]
  split
  · rename_i e; subst e; rfl
  · rfl

theorem tag_notice (s : State) (p : PortId) (k : NoticeKind) (o : NoticeObject) (q : PortId) :
    ((s.notice p k o).port q).tag = (s.port q).tag := by
  rw [port_notice]
  split
  · rename_i e; subst e; cases NoticeKind.cls k <;> rfl
  · rfl

theorem tag_idleChain (s : State) (c : ChainRef) (q : PortId) : ((s.idleChain c).port q).tag = (s.port q).tag := by
  unfold State.idleChain State.settleDrain
  rw [← tag_modChain s c (fun h => { h with state := .idle, desc := none }) q]
  split
  · show (State.port (State.modPort _ _ _) q).tag = _
    rw [port_modPort]
    split
    · rename_i e; subst e; rfl
    · rfl
  · rfl

/-- A completion leaves every port's tag. -/
theorem tag_complete (s : State) (c : ChainRef) (w : Completion) (q : PortId) :
    ((s.complete c w).port q).tag = (s.port q).tag := by
  unfold State.complete
  split
  · rfl
  · rename_i d _
    dsimp only
    have noticed : ((if d.notify then (s.emit (.completion c.port (d.addr + 32) w)).notice c.port .descriptorDone
        (.chain c.chain d.addr) else s.emit (.completion c.port (d.addr + 32) w)).port q).tag = (s.port q).tag := by
      split
      · exact tag_notice _ _ _ _ _
      · rfl
    generalize (if d.notify then (s.emit (.completion c.port (d.addr + 32) w)).notice c.port .descriptorDone
      (.chain c.chain d.addr) else s.emit (.completion c.port (d.addr + 32) w)) = u at noticed ⊢
    have told : ∀ {v : State}, (v.port q).tag = (s.port q).tag → ((if w.status = .fetchTimeout then
        v.notice c.port .fetchTimeout (.chain c.chain d.addr) else v).port q).tag = (s.port q).tag := fun {v} hv => by
      split
      · exact (tag_notice _ _ _ _ _).trans hv
      · exact hv
    refine told ?_
    split
    · exact (tag_notice _ _ _ _ _).trans ((tag_idleChain _ _ _).trans noticed)
    · split
      · exact (tag_idleChain _ _ _).trans noticed
      · exact (tag_modChain _ _ _ _).trans noticed

theorem tag_decideLow (s : State) (q : PortId) : (s.decideLow.port q).tag = (s.port q).tag := by
  rcases decideLow_port s q with h | h
  · rw [h]
  · rw [h]; rfl

theorem tag_endFeed (s : State) (c : ChainRef) (st : Status) (b : Bool) (q : PortId) :
    ((s.endFeed c st b).port q).tag = (s.port q).tag := by
  have left : ((s.leaveFeed c).port q).tag = (s.port q).tag := by
    unfold State.leaveFeed State.leaveAppend
    dsimp only
    split
    · rfl
    · rw [tag_decideLow, port_of_ports ((reserveWait_frame _).ports (by decide))]
      rfl
  unfold State.endFeed
  split
  · exact (tag_complete _ _ _ _).trans left
  · rfl

/-- A feed whose file is OPEN and its port's own holds the lane. -/
theorem feedGranted_of_open {c : ChainRef} {f : Feed} {g : FileEntry} (here : f.fileGone = false)
    (hg : tget s.files f.file = some g) (opened : g.state = .opened) (own : g.owner = c.port) :
    s.feedGranted c f = (s.setJob c (.feed { f with laneHeld := true })).setChainState c .running := by
  unfold State.feedGranted
  rw [here, hg]
  simp [opened, own]

/-- A feed whose file is gone, not OPEN or another port's is refused. -/
theorem feedGranted_of_refused {c : ChainRef} {f : Feed}
    (h : f.fileGone = true ∨ ∀ g, tget s.files f.file = some g → g.state ≠ .opened ∨ g.owner ≠ c.port) :
    s.feedGranted c f = s.endFeed c .refusedState false := by
  unfold State.feedGranted
  refine if_neg ?_
  rcases h with gone | other
  · rw [gone]
    exact fun e => by simp at e
  · intro e
    simp only [Bool.and_eq_true] at e
    obtain ⟨-, e⟩ := e
    cases hg : tget s.files f.file with
    | none => rw [hg] at e; cases e
    | some g =>
      rw [hg] at e
      simp only [Bool.and_eq_true, decide_eq_true_eq] at e
      exact (other g hg).elim (fun n => n e.1) (fun n => n e.2)

theorem cost_of_feed {c : ChainRef} {f : Feed} (h : s.job c = some (.feed f)) : s.cost c = max 1 f.places := by
  unfold State.cost
  rw [h]

/-- A job on a segment that waits for a lane costs the segment's records. -/
theorem cost_of_segJob {c : ChainRef} {g : SegJob} {h : SegHeader} {body : List Bool} (hg : s.segJob (.chain c) = some g)
    (hp : g.phase = .waitLane h body) : s.cost c = max 1 h.seg.count := by
  obtain ⟨j, hj, hs⟩ := Option.bind_eq_some_iff.mp (show (s.job c).bind Job.seg = some g from hg)
  unfold State.cost
  rw [hj]
  cases j with
  | feed f => cases hs
  | _ => dsimp only; rw [hs]; dsimp only; rw [hp]

theorem granted_of_segJob {c : ChainRef} {g : SegJob} (hg : s.segJob (.chain c) = some g) :
    s.granted c = s.decodeGranted (.chain c) := by
  obtain ⟨j, hj, hs⟩ := Option.bind_eq_some_iff.mp (show (s.job c).bind Job.seg = some g from hg)
  unfold State.granted
  rw [hj]
  cases j with
  | feed f => cases hs
  | _ => rfl

/-- A decode begins where the widths are in range and the body holds a bit. -/
theorem decodeStart0_more {h : SegHeader} {body : List Bool} (hw : widthsInRange h.widths = true)
    (hb : body.take h.seg.bits ≠ []) :
    decodeStart0 h body = .more { index := 0, rest := body.take h.seg.bits, codec := Codec.fresh h.base h.widths } := by
  unfold decodeStart0 decodeBetween
  rw [if_pos hw]
  dsimp only
  rw [if_neg (fun e => hb (List.isEmpty_iff.mp e))]

theorem seg_withSeg {j : Job} {g : SegJob} (h : j.seg = some g) (g' : SegJob) : (j.withSeg g').seg = some g' := by
  cases j with
  | retrieval r => rfl
  | verify v => rfl
  | _ => cases h

theorem job_setJob_of_job {c : ChainRef} {j : Job} (h : s.job c = some j) (j' : Job) : (s.setJob c j').job c = some j' := by
  obtain ⟨d, hd, -⟩ := Option.bind_eq_some_iff.mp (show (s.chain c).desc.bind Desc.job = some j from h)
  rw [job_setJob, if_pos rfl, hd]
  rfl

theorem state_setJob (s : State) (c : ChainRef) (j : Job) (d : ChainRef) :
    ((s.setJob c j).chain d).state = (s.chain d).state := by
  unfold State.setJob
  rw [chain_modChain]
  split
  · rename_i e; rw [e]
  · rfl

/-- The state in which a decode on a chain begins. -/
theorem decodeGranted_chain {c : ChainRef} {g : SegJob} {h : SegHeader} {body : List Bool} {d : Decode} {j : Job}
    (hj : s.job c = some j) (hg : j.seg = some g) (hp : g.phase = .waitLane h body) (hd : decodeStart0 h body = .more d) :
    s.decodeGranted (.chain c)
      = (s.setChainState c .running).setJob c (j.withSeg { g with phase := .decoding h d }) := by
  have seg : ∀ u : State, u.job c = some j → u.segJob (.chain c) = some g := fun u hu => by
    show (u.job c).bind Job.seg = some g
    rw [hu]
    exact hg
  have running : (s.setChainState c .running).job c = some j := (job_setChainState s c c .running).trans hj
  unfold State.decodeGranted
  rw [seg s hj]
  dsimp only
  rw [hp]
  dsimp only
  rw [hd]
  show (s.setChainState c .running).setPhase (.chain c) (.decoding h d) = _
  unfold State.setPhase
  rw [seg _ running]
  dsimp only
  unfold State.setSegJob
  dsimp only
  rw [running]

theorem decodeGranted_scrub {g : SegJob} {h : SegHeader} {body : List Bool} {d : Decode}
    (hg : s.audit.scrub = some g) (hp : g.phase = .waitLane h body) (hd : decodeStart0 h body = .more d) :
    s.decodeGranted .scrub = s.setAudit { s.audit with scrub := some { g with phase := .decoding h d } } := by
  unfold State.decodeGranted
  rw [show s.segJob .scrub = some g from hg]
  dsimp only
  rw [hp]
  dsimp only
  rw [hd]
  show s.setPhase .scrub (.decoding h d) = _
  unfold State.setPhase
  rw [show s.segJob .scrub = some g from hg]
  rfl

end Sys2Proof.Machine

open Sys2Proof Sys2Proof.Machine

/-- Settles O14: the search for the least tag, and each kind of job that a lane is granted to. -/
theorem laneGoesToTheLeastTag : Obligations.LaneGoesToTheLeastTag := by
  unfold Obligations.LaneGoesToTheLeastTag
  intro s l begun free lowest
  have lane := freeLane_eq free lowest
  refine ⟨fun c next => ?_, fun none waits g h body hg hp widths bits => ⟨s.grantLane, rfl, ?_⟩⟩
  · intro port waiting charged
    refine ⟨fun q d hd => nextGrant_least next q d hd,
      fun q d f e g hd hf he hg => grantable_feed (candidate_spec hd).2 hf he hg,
      fun f g job here hg opened own low => ⟨s.grantLane, rfl, ?_⟩,
      fun f d hd hj low refused => ⟨s.grantLane, rfl, ?_⟩,
      fun g h body hg hp widths bits low => ⟨s.grantLane, rfl, ?_⟩⟩
    all_goals
      have chain := laneGiven_chain low l
      have given := laneGiven_port low l
      have arbiter := laneGiven_arbiter (l := l) low
      have frame := laneGiven_frame low l
      rw [grantLane_eq lane next]
    · have feed : (s.laneGiven c l).feed c = some f := feed_eq_some_iff.mpr ((job_of_chain (chain c)).trans job)
      rw [cost_of_feed job] at given
      generalize s.laneGiven c l = u at *
      have goes : u.granted c = (u.setJob c (.feed { f with laneHeld := true })).setChainState c .running := by
        unfold State.granted
        rw [feed_eq_some_iff.mp feed]
        exact feedGranted_of_open here (by rw [frame.files (by decide)]; exact hg) opened own
      rw [goes]
      refine ⟨arbiter, ?_, ?_, ?_, fun q hq => ?_, ?_⟩
      · show (State.port (State.setChainState _ c .running) c.port).tag = _
        unfold State.setChainState State.setJob
        rw [tag_modChain, tag_modChain, given, if_pos rfl]
      · rw [feed_setChainState, feed_setJob_of_feed feed, if_pos rfl]
      · unfold State.setChainState
        rw [chain_modChain, if_pos rfl]
      · rw [port_setChainState_of_ne _ _ _ hq, port_setJob_of_ne _ _ _ hq, given, if_neg hq]
      · exact sameBut_then frame (sameBut_trans (setJob_frame u _ _) (setChainState_frame _ _ _)) (by decide) (by decide)
    · have job : s.job c = some (.feed f) := (job_of_desc hd).trans hj
      rw [cost_of_feed job] at given
      generalize s.laneGiven c l = u at *
      have desc : (u.chain c).desc = some d := (congrArg Chain.desc (chain c)).trans hd
      have ends : u.granted c = u.endFeed c .refusedState false := by
        unfold State.granted
        rw [job_of_desc desc, hj]
        exact feedGranted_of_refused (by rw [frame.files (by decide)]; exact refused)
      have posted := endFeed_completion desc hj .refusedState false
      rw [feedCompletion_eq, frame.files (by decide)] at posted
      have after := endFeed_arbiter (feed_of_desc desc hj) .refusedState false
      rw [ends]
      refine ⟨posted, endFeed_job desc hj _ _, fun m => ?_, ?_, ?_, ?_, ?_, ?_⟩
      · rw [after]
        show (u.freeLane (.chain c)).arbiter.lanes[m.val] = _
        rw [freeLane_lane, arbiter]
        dsimp only
        by_cases e : m = l
        · subst e
          rw [vset_get_self, if_pos rfl, free, if_neg (fun e => by cases e)]
        · rw [vset_get_of_ne _ e]
      · rw [after]
        show u.arbiter.g = _
        rw [arbiter]
      · rw [after]
        show vmod u.arbiter.waiting c.port _ = _
        rw [arbiter]
        show vmod (vmod s.arbiter.waiting c.port _) c.port _ = _
        rw [vmod_vmod, List.filter_filter]
        simp only [Bool.and_self]
        rfl
      · show (State.port (State.endFeed _ _ _ _) c.port).tag = _
        rw [tag_endFeed, given, if_pos rfl]
      · rw [(endFeed_bufs u c _ _).1, frame.stager (by decide)]
      · exact sameBut_then frame (endFeed_frame u c _ _) (by decide) (by decide)
    · obtain ⟨j, hj, hs⟩ := Option.bind_eq_some_iff.mp (show (s.job c).bind Job.seg = some g from hg)
      rw [cost_of_segJob hg hp] at given
      generalize s.laneGiven c l = u at *
      have job : u.job c = some j := (job_of_chain (chain c)).trans hj
      have seg : u.segJob (.chain c) = some g := by
        show (u.job c).bind Job.seg = some g
        rw [job]
        exact hs
      rw [granted_of_segJob seg, decodeGranted_chain job hs hp (decodeStart0_more widths bits)]
      refine ⟨arbiter, ?_, ?_, ?_, fun q hq => ?_, ?_⟩
      · show (State.port (State.setJob _ c _) c.port).tag = _
        unfold State.setChainState State.setJob
        rw [tag_modChain, tag_modChain, given, if_pos rfl]
      · show (State.job _ c).bind Job.seg = _
        rw [job_setJob_of_job ((job_setChainState u c c .running).trans job)]
        exact seg_withSeg hs _
      · rw [state_setJob]
        unfold State.setChainState
        rw [chain_modChain, if_pos rfl]
      · rw [port_setJob_of_ne _ _ _ hq, port_setChainState_of_ne _ _ _ hq, given, if_neg hq]
      · exact sameBut_then frame (sameBut_trans (setChainState_frame u _ _) (setJob_frame _ _ _)) (by decide) (by decide)
  · have grant : s.grantLane
        = ((s.setArbiter { s.arbiter with scrubWaits := false }).holdLane l .scrub).decodeGranted .scrub := by
      unfold State.grantLane
      rw [lane, none]
      exact if_pos waits
    have begins := decodeGranted_scrub (s := (s.setArbiter { s.arbiter with scrubWaits := false }).holdLane l .scrub) hg hp
      (decodeStart0_more widths bits)
    rw [grant, begins]
    exact ⟨rfl, rfl, sameBut_then (sameBut_then (m := [.arbiter]) (setArbiter_frame s _) (setArbiter_frame _ _) (by decide)
      (by decide)) (setAudit_frame _ _) (by decide) (by decide)⟩

end

section
/-!
SUPPORT. The clock: what a policy commit and a day roll keep, an advance by a second, and CLOCK_SET.
-/

namespace Sys2Proof.Machine

variable {s t : State}

/-! ## What a commit keeps -/

/-- What every operation of a policy commit keeps: the clock but for the commit it waits for, the saved day, the entries that
wait to become durable, the chains, the states of the ports, and what has been posted. -/
structure State.rollKeeps (s t : State) : Prop where
  value : t.clock.value = s.clock.value
  state : t.clock.state = s.clock.state
  watchdog : t.clock.watchdog = s.clock.watchdog
  savedDay : t.settings.savedDay = s.settings.savedDay
  awaits : ∀ e, s.journal.awaits e → t.journal.awaits e
  chain : ∀ d, t.chain d = s.chain d
  ports : ∀ q, (t.port q).state = (s.port q).state
  posts : s.posts t

theorem rollKeeps_refl (s : State) : s.rollKeeps s :=
  ⟨rfl, rfl, rfl, rfl, fun _ h => h, fun _ => rfl, fun _ => rfl, posts_refl s⟩

theorem rollKeeps_trans {u : State} (h : s.rollKeeps t) (k : t.rollKeeps u) : s.rollKeeps u :=
  ⟨k.value.trans h.value, k.state.trans h.state, k.watchdog.trans h.watchdog, k.savedDay.trans h.savedDay,
    fun e he => k.awaits e (h.awaits e he), fun d => (k.chain d).trans (h.chain d), fun q => (k.ports q).trans (h.ports q),
    posts_trans h.posts k.posts⟩

/-- The page buffers and the pending list are all that an entry waits in. -/
theorem awaits_of_same {j k : Journal} (hb : k.bufs = j.bufs) (hp : k.pending = j.pending) {e : JEntry} (h : j.awaits e) :
    k.awaits e := by
  rw [awaits_iff] at h ⊢
  rw [hb, hp]
  exact h

/-- An operation outside the ports that leaves the clock, the settings and the journal's entries. -/
theorem rollKeeps_of_frame {l : List Part} (h : s.sameBut l t)
    (hl : Part.clock ∉ l ∧ Part.settings ∉ l ∧ Part.ports ∉ l ∧ Part.out ∉ l)
    (ha : ∀ e, s.journal.awaits e → t.journal.awaits e) : s.rollKeeps t := by
  obtain ⟨hc, hs, hp, ho⟩ := hl
  exact ⟨by rw [h.clock hc], by rw [h.clock hc], by rw [h.clock hc], by rw [h.settings hs], ha,
    chain_of_ports (h.ports hp), fun q => by rw [port_of_ports (h.ports hp)], posts_of_frame h ho⟩

theorem rollKeeps_appendRaw (s : State) (body : JBody) : s.rollKeeps (s.appendRaw body) :=
  rollKeeps_of_frame (appendRaw_frame s body) (by decide) (appendRaw_spec s body).2.1

theorem rollKeeps_decideLow (s : State) : s.rollKeeps s.decideLow := by
  have frame := decideLow_frame s
  refine ⟨by rw [frame.clock (by decide)], by rw [frame.clock (by decide)], by rw [frame.clock (by decide)],
    by rw [frame.settings (by decide)], fun e he => ?_, decideLow_chain s, decideLow_state s, posts_decideLow s⟩
  rw [decideLow_journal]
  exact awaits_of_same rfl rfl he

theorem rollKeeps_append (s : State) (body : JBody) : s.rollKeeps (s.append body) :=
  rollKeeps_trans (rollKeeps_appendRaw s body) (rollKeeps_decideLow _)

/-- An append takes the next serial and the clock value. -/
theorem append_spec (s : State) (body : JBody) :
    (s.append body).journal.next = s.journal.next + 1
      ∧ (s.append body).journal.awaits { serial := s.journal.next, time := s.clock.value, body } := by
  obtain ⟨⟨next, awaits⟩, -, -⟩ := appendRaw_spec s body
  rw [(appendRaw_frame s body).clock (by decide)] at awaits
  refine ⟨?_, (rollKeeps_decideLow _).awaits _ awaits⟩
  unfold State.append
  rw [decideLow_journal]
  exact next

theorem rollKeeps_noticeAll (s : State) (k : NoticeKind) (o : NoticeObject) : s.rollKeeps (s.noticeAll k o) := by
  have frame := noticeAll_frame s k o
  exact ⟨by rw [frame.clock (by decide)], by rw [frame.clock (by decide)], by rw [frame.clock (by decide)],
    by rw [frame.settings (by decide)], fun e he => by rw [frame.journal (by decide)]; exact he, chain_noticeAll s k o,
    fun q => state_noticeAll s q k o, posts_noticeAll s k o⟩

theorem rollKeeps_reserveWait (s : State) : s.rollKeeps s.reserveWait := by
  refine rollKeeps_of_frame (reserveWait_frame s) (by decide) fun e he => ?_
  unfold State.reserveWait
  split
  · exact he
  · exact awaits_of_same rfl rfl he

theorem rollKeeps_setWait (s : State) (w : List AppendReq) : s.rollKeeps (s.setJournal { s.journal with wait := w }) :=
  rollKeeps_of_frame (setJournal_frame s _) (by decide) fun _ he => awaits_of_same rfl rfl he

theorem rollKeeps_joinAppend (s : State) (r : AppendReq) : s.rollKeeps (s.joinAppend r) :=
  rollKeeps_trans (rollKeeps_trans (rollKeeps_setWait s _) (rollKeeps_reserveWait _)) (rollKeeps_decideLow _)

/-- The commit that a clock waits for may change. -/
theorem rollKeeps_setCommit (s : State) (pending : Bool) (days : Nat) :
    s.rollKeeps (s.setClock { s.clock with commitPending := pending, commitDays := days }) :=
  ⟨rfl, rfl, rfl, rfl, fun _ h => h, fun _ => rfl, fun _ => rfl, posts_refl s⟩

theorem rollKeeps_setRetention (s : State) (r : Retention) : s.rollKeeps (s.setRetention r) :=
  ⟨rfl, rfl, rfl, rfl, fun _ h => h, fun _ => rfl, fun _ => rfl, posts_refl s⟩

theorem rollKeeps_setFiles (s : State) (v : Table FileEntry) : s.rollKeeps (s.setFiles v) :=
  ⟨rfl, rfl, rfl, rfl, fun _ h => h, fun _ => rfl, fun _ => rfl, posts_refl s⟩

theorem rollKeeps_setRow (s : State) (i : Fin 8) (days : Nat) :
    s.rollKeeps (s.setSettings { s.settings with rows := vset s.settings.rows i days }) :=
  ⟨rfl, rfl, rfl, rfl, fun _ h => h, fun _ => rfl, fun _ => rfl, posts_refl s⟩

theorem rollKeeps_commitClass (s : State) (i : Fin 8) : s.rollKeeps (s.commitClass i) := by
  unfold State.commitClass
  split
  · exact rollKeeps_refl s
  · exact rollKeeps_trans (rollKeeps_setRow s i _) (rollKeeps_appendRaw _ _)
  · exact rollKeeps_appendRaw s _

theorem rollKeeps_foldl {α : Type} {f : State → α → State} (h : ∀ (s : State) a, s.rollKeeps (f s a)) (xs : List α)
    (s : State) : s.rollKeeps (xs.foldl f s) := by
  induction xs generalizing s with
  | nil => exact rollKeeps_refl s
  | cons x xs ih => exact rollKeeps_trans (h s x) (ih (f s x))

theorem rollKeeps_commitPolicy (s : State) (days : Nat) : s.rollKeeps (s.commitPolicy days) := by
  unfold State.commitPolicy
  dsimp only
  refine rollKeeps_trans ?_ (rollKeeps_of_frame (signalScanner_frame _ days) (by decide)
    (fun e he => by rw [(signalScanner_frame _ days).journal (by decide)]; exact he))
  refine rollKeeps_trans ?_ (rollKeeps_decideLow _)
  refine rollKeeps_trans ?_ (rollKeeps_setCommit _ false 0)
  exact rollKeeps_trans (rollKeeps_foldl rollKeeps_commitClass classes s) (rollKeeps_setRetention _ _)

theorem rollKeeps_refreshCommit (s : State) : s.rollKeeps s.refreshCommit := by
  unfold State.refreshCommit
  split
  · exact rollKeeps_trans (rollKeeps_trans (rollKeeps_setWait s _) (rollKeeps_reserveWait _)) (rollKeeps_decideLow _)
  · exact rollKeeps_refl s

theorem rollKeeps_askCommit (s : State) (days : Nat) : s.rollKeeps (s.askCommit days) := by
  unfold State.askCommit
  dsimp only
  split
  · exact rollKeeps_trans (rollKeeps_setCommit s s.clock.commitPending _) (rollKeeps_refreshCommit _)
  · split
    · exact rollKeeps_commitPolicy s days
    · exact rollKeeps_trans (rollKeeps_setCommit s true days) (rollKeeps_joinAppend _ _)

/-- What a day roll keeps, beside the saved day, which is today (R101). -/
theorem dayRoll_keeps (s : State) (days : Nat) :
    (s.setSettings { s.settings with savedDay := s.today }).rollKeeps (s.dayRoll days) := by
  unfold State.dayRoll
  exact rollKeeps_trans (rollKeeps_noticeAll _ _ _) (rollKeeps_askCommit _ days)

theorem dayRoll_files (s : State) (days : Nat) : (s.dayRoll days).files = s.files := by
  unfold State.dayRoll
  dsimp only
  rw [(askCommit_frame _ days).files (by decide), (noticeAll_frame _ _ _).files (by decide)]
  rfl

/-! ## Deadlines (R16) -/

/-- A file's entry some seconds on. -/
def FileEntry.shortened (n : Nat) (f : FileEntry) : FileEntry :=
  if f.deadlineRuns then { f with deadline := f.deadline - n } else f

theorem shortenDeadlines_files (s : State) (n k : Nat) :
    tget (s.shortenDeadlines n).files k = (tget s.files k).map (FileEntry.shortened n) :=
  tget_map s.files (FileEntry.shortened n) k

theorem shortened_shortened (f : FileEntry) (m n : Nat) : (f.shortened m).shortened n = f.shortened (m + n) := by
  unfold FileEntry.shortened
  by_cases h : f.deadlineRuns = true
  · rw [if_pos h, if_pos h, if_pos (show FileEntry.deadlineRuns { f with deadline := f.deadline - m } = true from h),
      Nat.sub_sub]
  · rw [if_neg h, if_neg h, if_neg h]

/-! ## An advance by a second (R100) -/

/-- The clock a second on, the deadlines that run a second shorter. -/
def State.secondOn (s : State) : State := (s.setClock { s.clock with value := s.clock.value + 1 }).shortenDeadlines 1

theorem secondOn_frame (s : State) : s.sameBut [.clock, .files] s.secondOn :=
  sameBut_then (setClock_frame s _) (setFiles_frame _ _) (by decide) (by decide)

theorem secondOn_files (s : State) (k : Nat) : tget s.secondOn.files k = (tget s.files k).map (FileEntry.shortened 1) :=
  shortenDeadlines_files _ 1 k

/-- The clock stands at its last value. -/
theorem advanceClock_of_last (h : s.clock.value = 2 ^ 32 - 1) : s.advanceClock = s := by
  unfold State.advanceClock
  exact if_pos (Nat.le_of_eq h.symm)

/-- An advance within a day. -/
theorem advanceClock_within_day (h : s.clock.value < 2 ^ 32 - 1) (hd : (s.clock.value + 1) % 86400 ≠ 0) :
    s.advanceClock = s.secondOn := by
  unfold State.advanceClock
  rw [if_neg (show ¬ max32 ≤ s.clock.value from Nat.not_le.mpr h)]
  exact if_neg hd

/-- An advance onto a new day. -/
theorem advanceClock_onto_day (h : s.clock.value < 2 ^ 32 - 1) (hd : (s.clock.value + 1) % 86400 = 0) :
    s.advanceClock = s.secondOn.dayRoll 1 := by
  unfold State.advanceClock
  rw [if_neg (show ¬ max32 ≤ s.clock.value from Nat.not_le.mpr h)]
  exact if_pos hd

theorem dividerSecond_of_running (ready : s.power = .ready) (h : s.clock.state = .internal ∨ s.clock.state = .holdover) :
    s.dividerSecond = s.advanceClock := by
  unfold State.dividerSecond
  rw [if_neg (not_not_intro ready)]
  rcases h with h | h
  · rw [h]
  · rw [h]

end Sys2Proof.Machine

open Sys2Proof Sys2Proof.Machine

/-- Settles O30: the source of each advance, and what an advance carries. -/
theorem clockAdvancesByItsSource : Obligations.ClockAdvancesByItsSource := by
  unfold Obligations.ClockAdvancesByItsSource
  intro s ready v shortened
  refine ⟨fun running short => ⟨s.advanceClock, ?_, ?_⟩, fun running last => ?_,
    fun following short within => ⟨s.pulse, rfl, ?_⟩, fun holdover => ⟨s.pulse, rfl, ?_⟩,
    fun following due short first second => ⟨s.watchdogExpires, rfl, ?_⟩⟩
  · exact congrArg Host.Outcome.next (dividerSecond_of_running ready running)
  · by_cases day : (v + 1) % 86400 = 0
    · rw [advanceClock_onto_day short day]
      have roll := dayRoll_keeps s.secondOn 1
      exact ⟨roll.value, roll.state, fun k => by rw [dayRoll_files, secondOn_files]; rfl, fun e => absurd day e,
        fun _ => roll.savedDay⟩
    · rw [advanceClock_within_day short day]
      exact ⟨rfl, rfl, secondOn_files s, fun _ => secondOn_frame s, fun e => absurd e day⟩
  · exact congrArg Host.Outcome.next ((dividerSecond_of_running ready running).trans (advanceClock_of_last last))
  · have run : s.pulse = (s.setClock { s.clock with watchdog := 0 }).secondOn := by
      unfold State.pulse
      rw [if_neg (not_not_intro ready), following]
      exact advanceClock_within_day (s := s.setClock { s.clock with watchdog := 0 }) short within
    rw [run]
    exact ⟨rfl, secondOn_files _, sameBut_then (setClock_frame s _) (secondOn_frame _) (by decide) (by decide)⟩
  · have run : s.pulse = s.setClock { s.clock with state := .following, watchdog := 0 } := by
      unfold State.pulse
      rw [if_neg (not_not_intro ready), holdover]
    rw [run]
    exact ⟨rfl, setClock_frame s _⟩
  · let u := s.setClock { s.clock with state := .holdover }
    have run : s.watchdogExpires = u.secondOn.secondOn.noticeAll .holdover .none := by
      have once : u.advanceClock = u.secondOn :=
        advanceClock_within_day (s := u) (Nat.lt_of_lt_of_le short (by decide)) first
      have twice : u.secondOn.advanceClock = u.secondOn.secondOn :=
        advanceClock_within_day (s := u.secondOn) (show v + 1 < 2 ^ 32 - 1 by omega) second
      unfold State.watchdogExpires
      rw [if_pos ⟨ready, following, due⟩]
      show u.advanceClock.advanceClock.noticeAll .holdover .none = _
      rw [once, twice]
    have told := noticeAll_frame u.secondOn.secondOn .holdover .none
    have on : s.sameBut [.clock, .files] u.secondOn.secondOn :=
      sameBut_then (setClock_frame s _) (sameBut_trans (secondOn_frame u) (secondOn_frame _)) (by decide) (by decide)
    rw [run]
    refine ⟨?_, fun k => ?_, fun p => ?_, sameBut_then on told (by decide) (by decide)⟩
    · rw [told.clock (by decide)]
      rfl
    · rw [told.files (by decide), secondOn_files, secondOn_files, Option.map_map]
      exact congrArg (fun g => (tget s.files k).map g) (funext fun f => shortened_shortened f 1 1)
    · rw [noticeAll_port]
      show ((u.secondOn.secondOn.port p).archiveNotices + 1) % 2 ^ 32 = _
      rw [port_of_ports (on.ports (by decide))]

end

section

namespace Sys2Proof.Machine

variable {s t : State}

/-! ## CLOCK_SET (R102) -/

/-- The clock moved forward, with its entry and the deadlines that run shorter. -/
def State.clockMoved (s : State) (p : PortId) (value applied : Nat) : State :=
  ((s.setClock { s.clock with value := applied }).append
    (.clockSet s.clock.value value applied (decide (applied ≠ value)) p)).shortenDeadlines (applied - s.clock.value)

theorem clockMoved_frame (s : State) (p : PortId) (value applied : Nat) :
    s.sameBut [.clock, .files, .journal, .store, .scanner, .ports, .out] (s.clockMoved p value applied) :=
  sameBut_then (sameBut_then (m := [.clock, .journal, .store, .scanner, .ports, .out]) (setClock_frame s _)
    (append_frame _ _) (by decide) (by decide)) (setFiles_frame _ _) (by decide) (by decide)

theorem clockMoved_files (s : State) (p : PortId) (value applied k : Nat) :
    tget (s.clockMoved p value applied).files k
      = (tget s.files k).map (FileEntry.shortened (applied - s.clock.value)) := by
  unfold State.clockMoved
  rw [shortenDeadlines_files, (append_frame _ _).files (by decide)]
  rfl

/-- What the move of the clock leaves of the clock and of the Journal. -/
theorem clockMoved_keeps (s : State) (p : PortId) (value applied : Nat) :
    (s.setClock { s.clock with value := applied }).rollKeeps (s.clockMoved p value applied)
      ∧ (s.clockMoved p value applied).journal.next = s.journal.next + 1
      ∧ (s.clockMoved p value applied).journal.awaits
          { serial := s.journal.next, time := applied,
            body := .clockSet s.clock.value value applied (decide (applied ≠ value)) p } := by
  unfold State.clockMoved
  generalize hu : s.setClock { s.clock with value := applied } = u
  have stands : u.clock.value = applied := by rw [← hu]; rfl
  have journal : u.journal = s.journal := by rw [← hu]; rfl
  obtain ⟨next, awaits⟩ := append_spec u (.clockSet s.clock.value value applied (decide (applied ≠ value)) p)
  rw [journal] at next
  rw [journal, stands] at awaits
  have kept := rollKeeps_append u (.clockSet s.clock.value value applied (decide (applied ≠ value)) p)
  generalize u.append _ = w at next awaits kept ⊢
  exact ⟨rollKeeps_trans kept (rollKeeps_setFiles _ _), next, awaits⟩

/-- The completion of a CLOCK_SET that is taken. -/
def clockCompletion (value applied : Nat) : Completion :=
  { Completion.doneWith (.clock applied) with flags := { Flags.none with clamped := decide (applied ≠ value) } }

theorem moveClock_eq (s : State) (a : At) (value : Nat) :
    s.moveClock a value =
      (if dayOf (appliedValue s.clock.value value) - dayOf s.clock.value = 0
        then s.clockMoved a.port value (appliedValue s.clock.value value)
        else (s.clockMoved a.port value (appliedValue s.clock.value value)).dayRoll
          (dayOf (appliedValue s.clock.value value) - dayOf s.clock.value)).complete (refOf a)
            (clockCompletion value (appliedValue s.clock.value value)) := rfl

/-- What a move of the clock and the day roll it may carry leave, before the completion. -/
structure State.clockStands (s : State) (a : At) (wanted applied : Nat) (t : State) : Prop where
  value : t.clock.value = applied
  state : t.clock.state = s.clock.state
  watchdog : t.clock.watchdog = s.clock.watchdog
  files : ∀ k, tget t.files k = (tget s.files k).map (FileEntry.shortened (applied - s.clock.value))
  awaits : t.journal.awaits
    { serial := s.journal.next, time := applied,
      body := .clockSet s.clock.value wanted applied (decide (applied ≠ wanted)) a.port }
  chain : ∀ d, t.chain d = s.chain d
  ports : ∀ q, (t.port q).state = (s.port q).state
  savedDay : dayOf applied - dayOf s.clock.value ≠ 0 → t.settings.savedDay = dayOf applied
  sameDay : dayOf applied - dayOf s.clock.value = 0 → t.journal.next = s.journal.next + 1
    ∧ s.sameBut [.clock, .files, .journal, .store, .scanner, .ports, .out] t

theorem clockStands_clockMoved (s : State) (a : At) (value applied : Nat) :
    s.clockStands a value applied (if dayOf applied - dayOf s.clock.value = 0 then s.clockMoved a.port value applied
      else (s.clockMoved a.port value applied).dayRoll (dayOf applied - dayOf s.clock.value)) := by
  obtain ⟨moved, next, awaits⟩ := clockMoved_keeps s a.port value applied
  have files := clockMoved_files s a.port value applied
  have frame := clockMoved_frame s a.port value applied
  generalize s.clockMoved a.port value applied = u at *
  by_cases same : dayOf applied - dayOf s.clock.value = 0
  · rw [if_pos same]
    exact ⟨moved.value, moved.state, moved.watchdog, files, awaits, moved.chain, moved.ports, fun e => absurd same e,
      fun _ => ⟨next, frame⟩⟩
  · rw [if_neg same]
    have roll := dayRoll_keeps u (dayOf applied - dayOf s.clock.value)
    refine ⟨roll.value.trans moved.value, roll.state.trans moved.state, roll.watchdog.trans moved.watchdog, fun k => ?_,
      roll.awaits _ awaits, fun d => (roll.chain d).trans (moved.chain d), fun q => (roll.ports q).trans (moved.ports q),
      fun _ => ?_, fun e => absurd e same⟩
    · rw [dayRoll_files, files]
    · refine roll.savedDay.trans ?_
      show dayOf u.clock.value = _
      rw [moved.value]
      rfl

end Sys2Proof.Machine

open Sys2Proof Sys2Proof.Machine

/-- Settles O31: the refusals in their order, and otherwise the move, its day roll and its completion. -/
theorem clockSetMovesForward : Obligations.ClockSetMovesForward := by
  unfold Obligations.ClockSetMovesForward
  intro s a value h bounded before applied
  have held := holding_frame s a
  have clock : (s.holding a).clock = s.clock := held.clock (by decide)
  have places : (s.holding a).freePlaces = s.freePlaces :=
    freePlaces_of_same (held.journal (by decide)) (held.settings (by decide))
  have sameDay : before ≤ value → (dayOf applied - dayOf before = 0 ↔ applied / 86400 = before / 86400) := fun upper => by
    have forward : before ≤ applied := le_min upper (le_min (Nat.le_add_right _ _) (Nat.le_pred_of_lt bounded))
    have days : before / 86400 ≤ applied / 86400 := Nat.div_le_div_right forward
    show applied / 86400 - before / 86400 = 0 ↔ _
    omega
  have run : clockSet a value s = (s.holding a).setClockValue a value := by
    unfold clockSet
    rw [descriptor_of_arrives h]
  refine ⟨_, rfl, fun lower => ?_, fun upper full => ?_, fun upper room => ?_⟩
  · rw [run]
    unfold State.setClockValue
    rw [if_pos (by rw [clock]; exact lower)]
    exact refuse_refusedWith h _
  · rw [run]
    unfold State.setClockValue
    rw [if_neg (by rw [clock]; exact Nat.not_lt.mpr upper), if_pos (by rw [places]; exact full)]
    exact refuse_refusedWith h _
  · have stands := clockStands_clockMoved (s.holding a) a value applied
    have moved : clockSet a value s = (s.holding a).moveClock a value := by
      rw [run]
      unfold State.setClockValue
      rw [if_neg (by rw [clock]; exact Nat.not_lt.mpr upper), if_neg (by rw [places]; exact room)]
    have clamped : appliedValue (s.holding a).clock.value value = applied := by rw [clock]; rfl
    rw [moved, moveClock_eq, clamped]
    generalize (if dayOf applied - dayOf (s.holding a).clock.value = 0 then _ else _ : State) = u at stands ⊢
    obtain ⟨hvalue, hstate, hwatchdog, hfiles, hawaits, hchain, hports, hsaved, hsame⟩ := stands
    rw [clock] at hstate hwatchdog hfiles hawaits hsaved hsame
    have desc := (congrArg Chain.desc (hchain (refOf a))).trans (desc_holding s a)
    have undrained : (u.port (refOf a).port).state ≠ .draining := by
      rw [hports, state_holding]
      exact fun e => PortState.noConfusion (h.opened.symm.trans e)
    have frame := complete_undrained_frame (clockCompletion value applied) undrained
    refine ⟨?_, ?_, ?_, fun k => ?_, ?_, mem_out_complete desc _, fun roll => ?_, fun same => ?_⟩
    · rw [frame.clock (by decide)]; exact hvalue
    · rw [frame.clock (by decide)]; exact hstate
    · rw [frame.clock (by decide)]; exact hwatchdog
    · rw [frame.files (by decide), hfiles, held.files (by decide)]
      rfl
    · rw [frame.journal (by decide)]
      exact hawaits
    · rw [frame.settings (by decide)]
      exact hsaved fun e => roll ((sameDay upper).mp e)
    · obtain ⟨next, whole⟩ := hsame ((sameDay upper).mpr same)
      refine ⟨?_, sameBut_then (sameBut_then (m := [.clock, .files, .journal, .store, .scanner, .ports, .out]) held whole
        (by decide) (by decide)) frame (by decide) (by decide)⟩
      rw [frame.journal (by decide), next, held.journal (by decide)]

end

section
/-!
SUPPORT. Link events: what a port reset's stops leave of the chains, and the port after it.
-/

namespace Sys2Proof.Machine

variable {s t : State}

/-! ## What a stop keeps -/

/-- What every operation of a port reset keeps: the chains' next addresses, the chains at rest, the states of the ports, G and
the staging buffers. -/
structure State.stopKeeps (s t : State) : Prop where
  next : ∀ d, (t.chain d).next = (s.chain d).next
  rest : ∀ d, (s.chain d).state = .idle → (s.chain d).desc = none → t.chain d = s.chain d
  ports : ∀ q, (t.port q).state = (s.port q).state
  g : t.arbiter.g = s.arbiter.g
  bufs : t.stager.bufs = s.stager.bufs

theorem stopKeeps_refl (s : State) : s.stopKeeps s := ⟨fun _ => rfl, fun _ _ _ => rfl, fun _ => rfl, rfl, rfl⟩

theorem stopKeeps_trans {u : State} (h : s.stopKeeps t) (k : t.stopKeeps u) : s.stopKeeps u := by
  refine ⟨fun d => (k.next d).trans (h.next d), fun d hi hd => ?_, fun q => (k.ports q).trans (h.ports q), k.g.trans h.g,
    k.bufs.trans h.bufs⟩
  have kept := h.rest d hi hd
  rw [k.rest d (by rw [kept]; exact hi) (by rw [kept]; exact hd), kept]

/-- What leaves every chain and the ports' states, the arbiter and the staging buffers. -/
theorem stopKeeps_of_chains (hc : ∀ d, t.chain d = s.chain d) (hp : ∀ q, (t.port q).state = (s.port q).state)
    (hg : t.arbiter.g = s.arbiter.g) (hb : t.stager.bufs = s.stager.bufs) : s.stopKeeps t :=
  ⟨fun d => by rw [hc], fun d _ _ => hc d, hp, hg, hb⟩

theorem stopKeeps_of_frame {l : List Part} (h : s.sameBut l t)
    (hl : Part.ports ∉ l ∧ Part.arbiter ∉ l ∧ Part.stager ∉ l) : s.stopKeeps t := by
  obtain ⟨hp, ha, hs⟩ := hl
  exact stopKeeps_of_chains (chain_of_ports (h.ports hp)) (fun q => by rw [port_of_ports (h.ports hp)])
    (by rw [h.arbiter ha]) (by rw [h.stager hs])

theorem stopKeeps_decideLow (s : State) : s.stopKeeps s.decideLow :=
  stopKeeps_of_chains (decideLow_chain s) (decideLow_state s) (by rw [(decideLow_frame s).arbiter (by decide)])
    (by rw [(decideLow_frame s).stager (by decide)])

/-- A job set on a chain without a descriptor is set nowhere. -/
theorem stopKeeps_setJob (s : State) (c : ChainRef) (j : Job) : s.stopKeeps (s.setJob c j) := by
  unfold State.setJob
  refine ⟨fun d => ?_, fun d _ hd => ?_, fun q => state_modChain s c _ q, rfl, rfl⟩
  · rw [chain_modChain]
    split
    · rename_i e; rw [e]
    · rfl
  · rw [chain_modChain]
    split
    · rename_i e
      subst e
      rw [hd]
      dsimp only [Option.map_none]
      rw [← hd]
    · rfl

theorem stopKeeps_setPhase (s : State) (c : ChainRef) (ph : SegPhase) : s.stopKeeps (s.setPhase (.chain c) ph) := by
  unfold State.setPhase
  split
  · unfold State.setSegJob
    dsimp only
    split
    · exact stopKeeps_setJob s c _
    · exact stopKeeps_refl s
  · exact stopKeeps_refl s

theorem stopKeeps_modEntry (s : State) (x : Nat) (f : Entry → Entry) : s.stopKeeps (s.modEntry x f) :=
  stopKeeps_of_frame (modEntry_frame s x f) (by decide)

theorem stopKeeps_retire (s : State) (x : Nat) (v : SegFields) : s.stopKeeps (s.retire x v) := by
  unfold State.retire
  dsimp only
  refine stopKeeps_trans ?_ (stopKeeps_decideLow _)
  refine stopKeeps_trans ?_ (stopKeeps_of_frame (setScanner_frame _ _) (by decide))
  exact stopKeeps_trans (stopKeeps_of_frame (appendRaw_frame s _) (by decide)) (stopKeeps_modEntry _ _ _)

theorem stopKeeps_retest (s : State) (x : Nat) : s.stopKeeps (s.retest x) := by
  unfold State.retest
  split
  · split
    · split
      · split
        · exact stopKeeps_refl s
        · exact stopKeeps_retire s x _
      · exact stopKeeps_modEntry s x _
    · exact stopKeeps_refl s
  · exact stopKeeps_refl s

theorem stopKeeps_releasePin (s : State) (x : Nat) : s.stopKeeps (s.releasePin x) := by
  unfold State.releasePin
  split
  · exact stopKeeps_trans (stopKeeps_modEntry s x _) (stopKeeps_setPhase _ _ _)
  · exact stopKeeps_trans (stopKeeps_modEntry s x _) (stopKeeps_retest _ _)

theorem stopKeeps_freeLane (s : State) (r : JobRef) : s.stopKeeps (s.freeLane r) :=
  stopKeeps_of_chains (fun _ => rfl) (fun _ => rfl) rfl rfl

theorem stopKeeps_leaveArbiter (s : State) (c : ChainRef) : s.stopKeeps (s.leaveArbiter c) :=
  stopKeeps_of_chains (fun _ => rfl) (fun _ => rfl) rfl rfl

theorem stopKeeps_leaveStore (s : State) (r : JobRef) : s.stopKeeps (s.leaveStore r) :=
  stopKeeps_of_frame (leaveStore_frame s r) (by decide)

theorem stopKeeps_dropSeg (s : State) (c : ChainRef) : s.stopKeeps (s.dropSeg (.chain c)) := by
  unfold State.dropSeg
  split
  · dsimp only
    have left : s.stopKeeps (((s.freeLane (.chain c)).leaveStore (.chain c)).leaveArbiter c) :=
      stopKeeps_trans (stopKeeps_trans (stopKeeps_freeLane s _) (stopKeeps_leaveStore _ _)) (stopKeeps_leaveArbiter _ c)
    split
    · exact stopKeeps_trans left (stopKeeps_modEntry _ _ _)
    · exact stopKeeps_trans (stopKeeps_trans left (stopKeeps_modEntry _ _ _)) (stopKeeps_releasePin _ _)
  · exact stopKeeps_refl s

theorem stopKeeps_leaveFeed (s : State) (c : ChainRef) : s.stopKeeps (s.leaveFeed c) := by
  refine stopKeeps_of_chains (leaveFeed_chain s c) (leaveFeed_state s c) ?_ (leaveFeed_bufs s c).1
  unfold State.leaveFeed
  dsimp only
  rw [(leaveAppend_frame _ c).arbiter (by decide)]
  rfl

/-! ## The stop of a chain (R163) -/

/-- A chain as a port reset leaves it. -/
def Chain.stopped (h : Chain) : Chain := { h with state := .idle, desc := none }

/-- What a chain's job leaves before the chain stops. -/
def State.jobLeft (s : State) (c : ChainRef) : State :=
  match s.job c with
  | some (.feed _) => s.leaveFeed c
  | some (.retrieval _) => s.dropSeg (.chain c)
  | some (.verify _) => s.dropSeg (.chain c)
  | some (.journalRead _) => s.leaveStore (.chain c)
  | some (.catalogueRead _) => s
  | none => s

theorem resetJob_eq (s : State) (c : ChainRef) : s.resetJob c = (s.jobLeft c).modChain c Chain.stopped := rfl

theorem stopKeeps_jobLeft (s : State) (c : ChainRef) : s.stopKeeps (s.jobLeft c) := by
  unfold State.jobLeft
  split
  · exact stopKeeps_leaveFeed s c
  · exact stopKeeps_dropSeg s c
  · exact stopKeeps_dropSeg s c
  · exact stopKeeps_leaveStore s _
  · exact stopKeeps_refl s
  · exact stopKeeps_refl s

theorem stopKeeps_stopChain (s : State) (c : ChainRef) : s.stopKeeps (s.modChain c Chain.stopped) := by
  refine ⟨fun d => ?_, fun d hi hd => ?_, fun q => state_modChain s c _ q, rfl, rfl⟩
  · rw [chain_modChain]
    split
    · rename_i e; rw [e]; rfl
    · rfl
  · rw [chain_modChain]
    split
    · rename_i e
      subst e
      unfold Chain.stopped
      rw [← hi, ← hd]
    · rfl

theorem stopKeeps_resetJob (s : State) (c : ChainRef) : s.stopKeeps (s.resetJob c) := by
  rw [resetJob_eq]
  exact stopKeeps_trans (stopKeeps_jobLeft s c) (stopKeeps_stopChain _ c)

theorem resetJob_chain (s : State) (c : ChainRef) : (s.resetJob c).chain c = (s.chain c).stopped := by
  rw [resetJob_eq, chain_modChain, if_pos rfl]
  unfold Chain.stopped
  rw [(stopKeeps_jobLeft s c).next]

/-- The stops of some of a port's chains: what they keep, and each chain stopped. -/
theorem foldl_resetJob (p : PortId) (l : List ChainNo) (s : State) :
    s.stopKeeps (l.foldl (fun s c => s.resetJob ⟨p, c⟩) s)
      ∧ ∀ c ∈ l, (l.foldl (fun s c => s.resetJob ⟨p, c⟩) s).chain ⟨p, c⟩ = (s.chain ⟨p, c⟩).stopped := by
  induction l generalizing s with
  | nil => exact ⟨stopKeeps_refl s, fun _ h => by cases h⟩
  | cons c l ih =>
    obtain ⟨keeps, stops⟩ := ih (s.resetJob ⟨p, c⟩)
    have first := stopKeeps_resetJob s ⟨p, c⟩
    have here := resetJob_chain s ⟨p, c⟩
    refine ⟨stopKeeps_trans first keeps, fun d hd => ?_⟩
    rw [List.foldl_cons]
    rcases List.mem_cons.mp hd with rfl | hd
    · rw [keeps.rest _ (by rw [here]; rfl) (by rw [here]; rfl), here]
    · rw [stops d hd]
      unfold Chain.stopped
      rw [first.next]

/-- A chain's stop leaves the streams, the files, the settings, the clock and the policy rows. -/
theorem resetJob_quiet_frame (s : State) (c : ChainRef) : s.sameBut (.stager :: segParts) (s.resetJob c) := by
  have left : s.sameBut (.stager :: segParts) (s.jobLeft c) := by
    unfold State.jobLeft
    split
    · exact sameBut_mono (leaveFeed_frame s c) (by decide)
    · exact sameBut_mono (dropSeg_frame s _) (by decide)
    · exact sameBut_mono (dropSeg_frame s _) (by decide)
    · exact sameBut_mono (leaveStore_frame s _) (by decide)
    · exact sameBut_refl _ s
    · exact sameBut_refl _ s
  exact sameBut_then left (modChain_frame _ c _) (by decide) (by decide)

/-! ## The port reset (R163) -/

/-- A port as it stands after a port reset. -/
def Port.wasReset (q : Port) (inReset : Bool) (g : Nat) : Port :=
  { state := .down, inReset, cell0 := ⟨0, 0, 0⟩, cell1 := 0, lastResult := .taken, cellCount := 0,
    chains := q.chains.map (fun c => { c with state := .idle, desc := none }), area := none, chainNotices := 0,
    intakeNotices := 0, archiveNotices := 0, active := Projection.everything, pendingProj := Projection.everything,
    interval := 16, tag := g }

/-- A port that is DOWN with its chains stopped stands reset once its context is cleared. -/
theorem afterReset_eq {q r : Port} (hs : q.state = .down) (hc : q.chains = r.chains.map Chain.stopped) (g : Nat)
    (b : Bool) : { q.afterReset g with inReset := b } = r.wasReset b g := by
  unfold Port.afterReset Port.wasReset
  rw [hs, hc]
  rfl

/-- What a port reset leaves of the part. -/
structure State.isReset (s : State) (p : PortId) (inReset : Bool) (t : State) : Prop where
  port : t.port p = (s.port p).wasReset inReset s.arbiter.g
  files : ∀ k, tget t.files k = (tget s.files k).map (orphanFile p)
  streams : t.streams = s.streams
  bufs : t.stager.bufs = s.stager.bufs
  settings : t.settings = s.settings
  clock : t.clock = s.clock
  retention : t.retention = s.retention

/-- The state of a port reset in which the port is DOWN and its chains have stopped. -/
def State.chainsStopped (s : State) (p : PortId) : State :=
  four.foldl (fun s c => s.resetJob ⟨p, c⟩) (s.modPort p (fun q => { q with state := .down }))

theorem portReset_eq (s : State) (p : PortId) :
    s.portReset p = ((s.chainsStopped p).modPort p (fun q => q.afterReset (s.chainsStopped p).arbiter.g)).orphanFiles p := by
  unfold State.portReset
  dsimp only
  rw [← State.chainsStopped]

theorem chainsStopped_keeps (s : State) (p : PortId) :
    (s.modPort p (fun q => { q with state := .down })).stopKeeps (s.chainsStopped p) :=
  (foldl_resetJob p four _).1

theorem chainsStopped_frame (s : State) (p : PortId) : s.sameBut (.stager :: segParts) (s.chainsStopped p) := by
  unfold State.chainsStopped
  exact sameBut_trans (sameBut_mono (modPort_frame s p _) (by decide))
    (sameBut_foldl (fun s c => resetJob_quiet_frame s ⟨p, c⟩) four _)

theorem chainsStopped_state (s : State) (p : PortId) : ((s.chainsStopped p).port p).state = .down := by
  rw [(chainsStopped_keeps s p).ports, port_modPort, if_pos rfl]

theorem chainsStopped_chains (s : State) (p : PortId) :
    ((s.chainsStopped p).port p).chains = (s.port p).chains.map Chain.stopped := by
  ext1 i hi
  have stopped := (foldl_resetJob p four (s.modPort p (fun q => { q with state := .down }))).2 ⟨i, hi⟩ (mem_four _)
  rw [chain_modPort_of_chains s p (fun q => { q with state := .down }) rfl] at stopped
  rw [Vector.getElem_map]
  exact stopped

theorem isReset_portReset (s : State) (p : PortId) (b : Bool) :
    s.isReset p b ((s.portReset p).modPort p (fun q => { q with inReset := b })) := by
  have keeps := chainsStopped_keeps s p
  have frame := chainsStopped_frame s p
  have state := chainsStopped_state s p
  have chains := chainsStopped_chains s p
  rw [portReset_eq]
  generalize s.chainsStopped p = u at *
  refine ⟨?_, fun k => ?_, frame.streams (by decide), keeps.bufs, frame.settings (by decide), frame.clock (by decide),
    frame.retention (by decide)⟩
  · have reset : ((u.modPort p (fun q => q.afterReset u.arbiter.g)).orphanFiles p).port p
        = (u.port p).afterReset u.arbiter.g := (port_modPort u p p _).trans (if_pos rfl)
    rw [port_modPort, if_pos rfl, reset, keeps.g]
    exact afterReset_eq state chains _ b
  · show tget (u.files.map _) k = _
    rw [tget_map, frame.files (by decide)]

end Sys2Proof.Machine

open Sys2Proof Sys2Proof.Machine

/-- Settles O50: both resets are one port reset that leaves the port DOWN, in a function-level reset or not. -/
theorem linkEventsOpenAndResetThePort : Obligations.LinkEventsOpenAndResetThePort := by
  unfold Obligations.LinkEventsOpenAndResetThePort
  intro s p powered reset
  have resets : ∀ b, reset b ((s.portReset p).modPort p (fun q => { q with inReset := b })) := fun b => by
    obtain ⟨port, files, streams, bufs, settings, clock, retention⟩ := isReset_portReset s p b
    exact ⟨port, files, streams, bufs, settings, clock, retention⟩
  refine ⟨fun down free => ⟨s.modPort p (fun q => { q with state := .opened }), ?_, rfl, modPort_frame s _ _⟩,
    ⟨_, ?_, resets false⟩, fun up => ⟨_, ?_, resets true⟩,
    fun held => ⟨s.modPort p (fun q => { q with state := .opened, inReset := false }), ?_, rfl, modPort_frame s _ _⟩⟩
  · exact congrArg Host.Outcome.next (if_pos ⟨powered, down, by rw [free]; exact Bool.false_ne_true⟩)
  · exact congrArg Host.Outcome.next (if_neg powered)
  · exact congrArg Host.Outcome.next (if_neg (fun e => e.elim powered up))
  · exact congrArg Host.Outcome.next (if_pos held)

end

section
/-!
SUPPORT. The gap list: its order by the distance behind E, and what the operations on it leave of that order.
-/

namespace Sys2Proof.Machine

/-! ## Distances modulo 2^32 -/

theorem toNat_behind_add {e n : Seq} {m : Nat} (h : (e - n).toNat + m < 2 ^ 32) :
    (e + BitVec.ofNat 32 m - n).toNat = (e - n).toNat + m := by
  bv_omega

theorem toNat_ahead_of_add {e n : Seq} {m : Nat} (h : m + (n - (e + BitVec.ofNat 32 m)).toNat < 2 ^ 32) :
    (n - e).toNat = m + (n - (e + BitVec.ofNat 32 m)).toNat := by
  bv_omega

theorem toNat_offset_behind {e : Seq} {i k : Nat} (hi : i ≤ k) (hk : k < 2 ^ 32) :
    (e + BitVec.ofNat 32 k - (e + BitVec.ofNat 32 i)).toNat = k - i := by
  bv_omega

theorem add_ofNat_add (e : Seq) (i j : Nat) :
    e + BitVec.ofNat 32 i + BitVec.ofNat 32 j = e + BitVec.ofNat 32 (i + j) := by
  rw [BitVec.add_assoc, ← BitVec.ofNat_add]

/-! ## The order of the gap list -/

/-- A gap lies behind E, no farther than a bound, and runs toward E (R31). -/
structure Gap.liesBehind (e : Seq) (bound : Nat) (g : Gap) : Prop where
  last : 1 ≤ (e - g.last).toNat
  upward : (e - g.last).toNat ≤ (e - g.first).toNat
  first : (e - g.first).toNat ≤ bound

/-- A gap lies farther behind E than another, with a number between (R31). -/
def Gap.precedes (e : Seq) (g h : Gap) : Prop := (e - h.first).toNat + 1 < (e - g.last).toNat

/-- A gap list in its order, all of it within a bound behind E (R31). -/
structure inOrder (e : Seq) (bound : Nat) (gaps : List Gap) : Prop where
  behind : ∀ g ∈ gaps, g.liesBehind e bound
  apart : gaps.Pairwise (Gap.precedes e)

/-- Some gap of a list holds a number. -/
def gapsHold (gaps : List Gap) (n : Seq) : Prop := ∃ g ∈ gaps, g.holds n = true

variable {e n m : Seq} {bound : Nat} {g : Gap} {gaps : List Gap}

theorem inOrder_nil : inOrder e bound [] := ⟨by simp, .nil⟩

theorem inOrder_cons : inOrder e bound (g :: gaps)
    ↔ g.liesBehind e bound ∧ (∀ h ∈ gaps, g.precedes e h) ∧ inOrder e bound gaps := by
  constructor
  · rintro ⟨behind, apart⟩
    obtain ⟨first, rest⟩ := List.pairwise_cons.mp apart
    exact ⟨behind g (by simp), first, fun h hh => behind h (by simp [hh]), rest⟩
  · rintro ⟨bounds, first, behind, apart⟩
    exact ⟨List.forall_mem_cons.mpr ⟨bounds, behind⟩, List.pairwise_cons.mpr ⟨first, apart⟩⟩

theorem inOrder_append {more : List Gap} : inOrder e bound (gaps ++ more)
    ↔ inOrder e bound gaps ∧ inOrder e bound more ∧ ∀ g ∈ gaps, ∀ h ∈ more, g.precedes e h := by
  constructor
  · rintro ⟨behind, apart⟩
    obtain ⟨old, new, between⟩ := List.pairwise_append.mp apart
    exact ⟨⟨fun g hg => behind g (by simp [hg]), old⟩, ⟨fun g hg => behind g (by simp [hg]), new⟩, between⟩
  · rintro ⟨⟨oldBehind, old⟩, ⟨newBehind, new⟩, between⟩
    exact ⟨fun g hg => (List.mem_append.mp hg).elim (oldBehind g) (newBehind g), List.pairwise_append.mpr ⟨old, new, between⟩⟩

theorem inOrder.sublist {kept : List Gap} (h : inOrder e bound gaps) (sub : kept.Sublist gaps) : inOrder e bound kept :=
  ⟨fun g hg => h.behind g (sub.subset hg), h.apart.sublist sub⟩

theorem inOrder.within {smaller : Nat} (h : inOrder e bound gaps) (hb : ∀ g ∈ gaps, (e - g.first).toNat ≤ smaller) :
    inOrder e smaller gaps :=
  ⟨fun g hg => { h.behind g hg with first := hb g hg }, h.apart⟩

theorem inOrder.mono {larger : Nat} (h : inOrder e bound gaps) (hb : bound ≤ larger) : inOrder e larger gaps :=
  h.within fun g hg => (h.behind g hg).first.trans hb

/-- Gaps follow one another as soon as each follows the one before it. -/
theorem Account.gapsOrdered_iff (a : Account) : ∀ gaps, a.gapsOrdered gaps ↔ inOrder a.e (2 ^ 30) gaps
  | [] => by simp [Account.gapsOrdered, inOrder_nil]
  | [g] => by
    simp only [Account.gapsOrdered, Account.behind, inOrder_cons, inOrder_nil, List.head?_nil]
    constructor
    · rintro ⟨last, upward, first, -⟩
      exact ⟨⟨last, upward, first⟩, by simp, trivial⟩
    · rintro ⟨⟨last, upward, first⟩, -⟩
      exact ⟨last, upward, first, by simp, trivial⟩
  | g :: h :: t => by
    have ih := a.gapsOrdered_iff (h :: t)
    rw [Account.gapsOrdered, ih, inOrder_cons (gaps := h :: t)]
    simp only [Account.behind, List.head?_cons, Option.mem_some_iff, forall_eq']
    constructor
    · rintro ⟨last, upward, first, next, order⟩
      refine ⟨⟨last, upward, first⟩, List.forall_mem_cons.mpr ⟨next, fun k hk => ?_⟩, order⟩
      obtain ⟨bounds, nearer, -⟩ := inOrder_cons.mp order
      have hnear : (a.e - k.first).toNat + 1 < (a.e - h.last).toNat := nearer k hk
      have := bounds.upward
      show (a.e - k.first).toNat + 1 < (a.e - g.last).toNat
      omega
    · rintro ⟨⟨last, upward, first⟩, follow, order⟩
      exact ⟨last, upward, first, follow h (by simp), order⟩

/-- E moves forward: every gap is that much farther behind it, in the same order. -/
theorem inOrder.moved {k : Nat} (h : inOrder e bound gaps) (hk : bound + k < 2 ^ 32) :
    inOrder (e + BitVec.ofNat 32 k) (bound + k) gaps := by
  have farther : ∀ g ∈ gaps, (e + BitVec.ofNat 32 k - g.first).toNat = (e - g.first).toNat + k
      ∧ (e + BitVec.ofNat 32 k - g.last).toNat = (e - g.last).toNat + k := fun g hg => by
    obtain ⟨last, upward, first⟩ := h.behind g hg
    exact ⟨toNat_behind_add (by omega), toNat_behind_add (by omega)⟩
  refine ⟨fun g hg => ?_, h.apart.imp_of_mem fun {g j} hg hj near => ?_⟩
  · obtain ⟨last, upward, first⟩ := h.behind g hg
    obtain ⟨eFirst, eLast⟩ := farther g hg
    exact ⟨by omega, by omega, by omega⟩
  · unfold Gap.precedes at near ⊢
    rw [(farther j hj).1, (farther g hg).2]
    omega

theorem Gap.holds_iff (g : Gap) (n : Seq) : g.holds n = true ↔ (n - g.first).toNat ≤ (g.last - g.first).toNat := by
  simp [Gap.holds]

/-- A gap behind E holds the numbers that lie as far behind as its ends, or between them. -/
theorem Gap.liesBehind.holds_iff (h : g.liesBehind e bound) (n : Seq) :
    g.holds n = true ↔ (e - g.last).toNat ≤ (e - n).toNat ∧ (e - n).toNat ≤ (e - g.first).toNat := by
  obtain ⟨last, upward, first⟩ := h
  rw [Gap.holds_iff]
  bv_omega

theorem gapsHold.behind (h : gapsHold gaps n) (order : inOrder e bound gaps) :
    1 ≤ (e - n).toNat ∧ (e - n).toNat ≤ bound := by
  obtain ⟨g, hg, held⟩ := h
  have bounds := order.behind g hg
  obtain ⟨far, near⟩ := (bounds.holds_iff n).mp held
  exact ⟨bounds.last.trans far, near.trans bounds.first⟩

theorem gapsHold.mono {kept : List Gap} (h : gapsHold kept n) (sub : kept ⊆ gaps) : gapsHold gaps n :=
  h.imp fun _ ⟨hg, held⟩ => ⟨sub hg, held⟩

/-! ## The ageing test (R28) and the limit of 32 (R27) -/

theorem ageGaps_suffix (e : Seq) : ∀ gaps, (ageGaps e gaps).1 <:+ gaps
  | [] => List.suffix_rfl
  | g :: t => by
    unfold ageGaps
    split
    · exact (ageGaps_suffix e t).trans (List.suffix_cons g t)
    · exact List.suffix_rfl

/-- What the ageing test leaves lies within 2^30 behind E: it stops at the first gap that does, and the later are nearer. -/
theorem ageGaps_within (h : inOrder e bound gaps) : ∀ g ∈ (ageGaps e gaps).1, (e - g.first).toNat ≤ 2 ^ 30 := by
  induction gaps with
  | nil => simp [ageGaps]
  | cons g t ih =>
    obtain ⟨bounds, nearer, rest⟩ := inOrder_cons.mp h
    unfold ageGaps
    split
    · exact ih rest
    · rename_i young
      refine List.forall_mem_cons.mpr ⟨Nat.not_lt.mp young, fun k hk => ?_⟩
      have near : (e - k.first).toNat + 1 < (e - g.last).toNat := nearer k hk
      have := bounds.upward
      omega

theorem inOrder_ageGaps (h : inOrder e bound gaps) : inOrder e (min bound (2 ^ 30)) (ageGaps e gaps).1 := by
  have kept := h.sublist (ageGaps_suffix e gaps).sublist
  exact kept.within fun g hg => Nat.le_min.mpr ⟨(kept.behind g hg).first, ageGaps_within h g hg⟩

theorem trimGaps_suffix (gaps : List Gap) : (trimGaps gaps).1 <:+ gaps := by
  unfold trimGaps
  split
  · split
    · exact List.suffix_cons _ _
    · exact List.suffix_rfl
  · exact List.suffix_rfl

theorem trimGaps_length (h : gaps.length ≤ 33) : (trimGaps gaps).1.length ≤ 32 := by
  unfold trimGaps
  split
  · split
    · simp only [List.length_cons] at h
      exact Nat.le_of_succ_le_succ h
    · exact Nat.zero_le _
  · rename_i short
    exact Nat.not_lt.mp short

theorem appendGaps_suffix : ∀ runs gaps : List Gap, (appendGaps gaps runs).1 <:+ gaps ++ runs
  | [], gaps => by simp [appendGaps]
  | r :: t, gaps => by
    have whole : (trimGaps (gaps ++ [r])).1 ++ t <:+ gaps ++ [r] ++ t := by
      obtain ⟨dropped, split⟩ := trimGaps_suffix (gaps ++ [r])
      exact ⟨dropped, by rw [← List.append_assoc, split]⟩
    rw [List.append_cons]
    exact (appendGaps_suffix t _).trans whole

theorem appendGaps_length : ∀ runs gaps : List Gap, gaps.length ≤ 32 → (appendGaps gaps runs).1.length ≤ 32
  | [], _, h => h
  | r :: t, gaps, h => appendGaps_length t _ (trimGaps_length (by simp; omega))

/-! ## The runs of a shift (R25) -/

/-- Runs of clear positions below `k`, none before `low`, each separated from the next. -/
structure clearBelow (w : BitVec 256) (k low : Nat) (runs : List (Nat × Nat)) : Prop where
  bounds : ∀ r ∈ runs, low ≤ r.1 ∧ r.1 ≤ r.2 ∧ r.2 < k
  clear : ∀ r ∈ runs, ∀ i, r.1 ≤ i → i ≤ r.2 → w.getLsbD i = false
  apart : runs.Pairwise (fun r q => r.2 + 1 < q.1)

theorem clearBelow.later {w : BitVec 256} {k low earlier : Nat} {runs : List (Nat × Nat)} (h : clearBelow w k low runs)
    (hl : earlier ≤ low) : clearBelow w k earlier runs :=
  { h with bounds := fun r hr => ⟨hl.trans (h.bounds r hr).1, (h.bounds r hr).2⟩ }

theorem clearBelow_single {w : BitVec 256} {k lo hi : Nat} (hr : lo ≤ hi) (hk : hi < k)
    (clear : ∀ i, lo ≤ i → i ≤ hi → w.getLsbD i = false) : clearBelow w k lo [(lo, hi)] :=
  ⟨by simp [hr, hk], by simpa using clear, List.pairwise_singleton ..⟩

theorem clearBelow.cons {w : BitVec 256} {k lo hi : Nat} {runs : List (Nat × Nat)} (h : clearBelow w k (hi + 2) runs)
    (hr : lo ≤ hi) (hk : hi < k) (clear : ∀ i, lo ≤ i → i ≤ hi → w.getLsbD i = false) :
    clearBelow w k lo ((lo, hi) :: runs) where
  bounds := List.forall_mem_cons.mpr ⟨⟨Nat.le_refl _, hr, hk⟩, fun r hrs => by
    obtain ⟨low, rest⟩ := h.bounds r hrs
    exact ⟨by omega, rest⟩⟩
  clear := List.forall_mem_cons.mpr ⟨clear, h.clear⟩
  apart := List.pairwise_cons.mpr ⟨fun r hrs => (h.bounds r hrs).1, h.apart⟩

/-- The scan from position `i` finds clear, separated runs, given that the run begun was clear up to `i`. -/
theorem clearBelow_runsFrom (w : BitVec 256) (k n i : Nat) (start : Option Nat) (hi : i + n = min k 256)
    (begun : ∀ lo ∈ start, lo < i ∧ ∀ j, lo ≤ j → j < i → w.getLsbD j = false) :
    clearBelow w k (start.getD i) (runsFrom w k n i start) := by
  induction n generalizing i start with
  | zero =>
    have beyond : ∀ j, 256 ≤ j → w.getLsbD j = false := fun j hj => BitVec.getLsbD_of_ge w j hj
    cases start with
    | some lo =>
      obtain ⟨below, clear⟩ := begun lo rfl
      refine clearBelow_single (lo := lo) (by omega) (by omega) fun j hl hj => ?_
      by_cases inside : j < i
      · exact clear j hl inside
      · exact beyond j (by omega)
    | none =>
      unfold runsFrom
      split
      · exact (clearBelow_single (by omega) (by omega) fun j hj _ => beyond j hj).later (by simp; omega)
      · exact ⟨by simp, by simp, .nil⟩
  | succ n ih =>
    unfold runsFrom
    split
    · have rest := ih (i + 1) none (by omega) (by simp)
      cases start with
      | some lo =>
        obtain ⟨below, clear⟩ := begun lo rfl
        exact clearBelow.cons (lo := lo) (rest.later (by simp; omega)) (by omega) (by omega) fun j hl hj => clear j hl (by omega)
      | none => exact rest.later (by simp)
    · rename_i here
      refine ih (i + 1) (some (start.getD i)) (by omega) fun lo hlo => ?_
      obtain rfl := Option.mem_some_iff.mp hlo
      have isClear : w.getLsbD i = false := by simpa using here
      cases start with
      | some lo =>
        obtain ⟨below, clear⟩ := begun lo rfl
        refine ⟨by simp; omega, fun j hl hj => ?_⟩
        by_cases inside : j < i
        · exact clear j hl inside
        · rwa [show j = i by omega]
      | none => exact ⟨by simp, fun j hl hj => by rwa [show j = i by simp at hl; omega]⟩

theorem clearBelow_clearRuns (w : BitVec 256) (k : Nat) : clearBelow w k 0 (clearRuns w k) :=
  clearBelow_runsFrom w k (min k 256) 0 none (by omega) (by simp)

/-- The runs of a shift by `k`, as gaps, lie in order behind the E that the shift leaves. -/
theorem inOrder_runs {w : BitVec 256} {k : Nat} {runs : List (Nat × Nat)} (h : clearBelow w k 0 runs) (hk : k < 2 ^ 32) :
    inOrder (e + BitVec.ofNat 32 k) k (runs.map (runGap e)) := by
  have far : ∀ i, i < k → (e + BitVec.ofNat 32 k - (e + BitVec.ofNat 32 i)).toNat = k - i := fun i hi =>
    toNat_offset_behind (Nat.le_of_lt hi) hk
  constructor
  · intro g hg
    obtain ⟨r, hr, rfl⟩ := List.mem_map.mp hg
    obtain ⟨-, upward, below⟩ := h.bounds r hr
    have first := far r.1 (by omega)
    have last := far r.2 below
    exact ⟨by simp only [runGap]; omega, by simp only [runGap]; omega, by simp only [runGap]; omega⟩
  · refine List.pairwise_map.mpr (h.apart.imp_of_mem fun {r q} hr hq separate => ?_)
    obtain ⟨-, -, below⟩ := h.bounds r hr
    obtain ⟨-, upward, below'⟩ := h.bounds q hq
    show (_ - (runGap e q).first).toNat + 1 < (_ - (runGap e r).last).toNat
    simp only [runGap]
    rw [far q.1 (by omega), far r.2 below]
    omega

/-- A number that a run of the shift holds left the window clear. -/
theorem clear_of_runs_hold {w : BitVec 256} {k : Nat} {runs : List (Nat × Nat)} (h : clearBelow w k 0 runs)
    (hk : k < 2 ^ 32) (held : gapsHold (runs.map (runGap e)) n) : (n - e).toNat < k ∧ w.getLsbD (n - e).toNat = false := by
  obtain ⟨g, hg, hn⟩ := held
  obtain ⟨r, hr, rfl⟩ := List.mem_map.mp hg
  obtain ⟨-, upward, below⟩ := h.bounds r hr
  have between : r.1 ≤ (n - e).toNat ∧ (n - e).toNat ≤ r.2 := by
    rw [Gap.holds_iff] at hn
    simp only [runGap] at hn
    bv_omega
  exact ⟨by omega, h.clear r hr _ between.1 between.2⟩

/-! ## The gap list after a shift (R25) -/

/-- The gap list after a shift, before R27 limits it: its newest gap reaches on into the first run where they meet. -/
def joinRuns (gaps runs : List Gap) : List Gap :=
  match gaps.getLast?, runs with
  | some newest, r :: t =>
    if r.first = newest.last + 1 then gaps.dropLast ++ [{ newest with last := r.last }] ++ t else gaps ++ runs
  | _, _ => gaps ++ runs

theorem joinRuns_nil_left (runs : List Gap) : joinRuns [] runs = runs := rfl

theorem joinRuns_nil_right (gaps : List Gap) : joinRuns gaps [] = gaps := by
  unfold joinRuns
  split <;> simp_all

theorem joinRuns_snoc_cons (old : List Gap) (newest r : Gap) (t : List Gap) : joinRuns (old ++ [newest]) (r :: t)
    = if r.first = newest.last + 1 then old ++ { newest with last := r.last } :: t else old ++ newest :: r :: t := by
  simp [joinRuns]

theorem addRuns_nil_left (runs : List Gap) : addRuns [] runs = appendGaps [] runs := rfl

theorem addRuns_nil_right (gaps : List Gap) : addRuns gaps [] = appendGaps gaps [] := by
  unfold addRuns
  split <;> simp_all

theorem addRuns_snoc_cons (old : List Gap) (newest r : Gap) (t : List Gap) : addRuns (old ++ [newest]) (r :: t)
    = if r.first = newest.last + 1 then appendGaps (old ++ [{ newest with last := r.last }]) t
      else appendGaps (old ++ [newest]) (r :: t) := by
  simp [addRuns]

theorem addRuns_suffix (gaps runs : List Gap) : (addRuns gaps runs).1 <:+ joinRuns gaps runs := by
  cases gaps using List.reverseRecOn with
  | nil =>
    rw [addRuns_nil_left, joinRuns_nil_left]
    exact appendGaps_suffix runs []
  | append_singleton old newest =>
  cases runs with
  | nil =>
    rw [addRuns_nil_right, joinRuns_nil_right]
    exact List.suffix_rfl
  | cons r t =>
  rw [addRuns_snoc_cons, joinRuns_snoc_cons]
  split
  · exact List.append_cons old _ t ▸ appendGaps_suffix t _
  · exact List.append_cons old newest (r :: t) ▸ appendGaps_suffix (r :: t) _

theorem addRuns_length (h : gaps.length ≤ 32) (runs : List Gap) : (addRuns gaps runs).1.length ≤ 32 := by
  cases gaps using List.reverseRecOn with
  | nil =>
    rw [addRuns_nil_left]
    exact appendGaps_length runs [] h
  | append_singleton old newest =>
  cases runs with
  | nil => rwa [addRuns_nil_right]
  | cons r t =>
  rw [addRuns_snoc_cons]
  split
  · exact appendGaps_length _ _ (by simpa using h)
  · exact appendGaps_length _ _ h

/-- Runs nearer to E than every gap join them in order: only the first run can touch a gap, the newest, and then they
merge. -/
theorem inOrder_joinRuns {runs : List Gap} (old : inOrder e bound gaps) (new : inOrder e bound runs)
    (nearer : ∀ g ∈ gaps, ∀ r ∈ runs, (e - r.first).toNat < (e - g.last).toNat) :
    inOrder e bound (joinRuns gaps runs) := by
  cases gaps using List.reverseRecOn with
  | nil => rwa [joinRuns_nil_left]
  | append_singleton older newest =>
  cases runs with
  | nil => rwa [joinRuns_nil_right]
  | cons r t =>
  obtain ⟨olderOrder, newestOrder, before⟩ := inOrder_append.mp old
  obtain ⟨newestBehind, -, -⟩ := inOrder_cons.mp newestOrder
  obtain ⟨rBehind, afterR, rest⟩ := inOrder_cons.mp new
  have meet : (e - r.first).toNat < (e - newest.last).toNat := nearer newest (by simp) r (by simp)
  have up := newestBehind.upward
  have upR := rBehind.upward
  have beforeAll : ∀ g ∈ older, ∀ q ∈ r :: t, g.precedes e q := fun g hg q hq => by
    have first : (e - newest.first).toNat + 1 < (e - g.last).toNat := before g hg newest (by simp)
    have second := nearer newest (by simp) q hq
    show (e - q.first).toNat + 1 < (e - g.last).toNat
    omega
  rw [joinRuns_snoc_cons]
  split
  · have merged : ({ newest with last := r.last } : Gap).liesBehind e bound :=
      ⟨rBehind.last, by show (e - r.last).toNat ≤ (e - newest.first).toNat; omega, newestBehind.first⟩
    refine inOrder_append.mpr ⟨olderOrder, inOrder_cons.mpr ⟨merged, afterR, rest⟩, fun g hg => ?_⟩
    exact List.forall_mem_cons.mpr ⟨before g hg newest (by simp), fun q hq => beforeAll g hg q (by simp [hq])⟩
  · rename_i apart
    have beforeR : newest.precedes e r := by
      show (e - r.first).toNat + 1 < (e - newest.last).toNat
      bv_omega
    refine inOrder_append.mpr ⟨olderOrder, inOrder_cons.mpr ⟨newestBehind, ?_, new⟩, fun g hg => ?_⟩
    · refine List.forall_mem_cons.mpr ⟨beforeR, fun q hq => ?_⟩
      have later : (e - q.first).toNat + 1 < (e - r.last).toNat := afterR q hq
      show (e - q.first).toNat + 1 < (e - newest.last).toNat
      omega
    · exact List.forall_mem_cons.mpr ⟨before g hg newest (by simp), beforeAll g hg⟩

theorem gapsHold_append {more : List Gap} : gapsHold (gaps ++ more) n ↔ gapsHold gaps n ∨ gapsHold more n := by
  simp [gapsHold, or_and_right, exists_or]

theorem gapsHold_cons : gapsHold (g :: gaps) n ↔ g.holds n = true ∨ gapsHold gaps n := by
  simp [gapsHold]

/-- A merge holds the numbers of the gap and of the run, and no other. -/
theorem gapsHold_joinRuns {runs : List Gap} (old : inOrder e bound gaps) (new : inOrder e bound runs)
    (nearer : ∀ g ∈ gaps, ∀ r ∈ runs, (e - r.first).toNat < (e - g.last).toNat)
    (held : gapsHold (joinRuns gaps runs) n) : gapsHold gaps n ∨ gapsHold runs n := by
  cases gaps using List.reverseRecOn with
  | nil =>
    rw [joinRuns_nil_left] at held
    exact .inr held
  | append_singleton older newest =>
  cases runs with
  | nil => rw [joinRuns_nil_right] at held; exact .inl held
  | cons r t =>
  have newestBehind := old.behind newest (by simp)
  have rBehind := new.behind r (by simp)
  have order := inOrder_joinRuns old new nearer
  rw [joinRuns_snoc_cons] at held order
  split at held
  · rename_i touch
    rw [if_pos touch] at order
    have merged := order.behind { newest with last := r.last } (by simp)
    have parts : ({ newest with last := r.last } : Gap).holds n = true → newest.holds n = true ∨ r.holds n = true := by
      rw [merged.holds_iff, newestBehind.holds_iff, rBehind.holds_iff]
      have last := newestBehind.last
      have step : (e - newest.last).toNat = (e - r.first).toNat + 1 := by rw [touch]; bv_omega
      rintro ⟨far, near⟩
      dsimp only at far near
      omega
    rw [gapsHold_append, gapsHold_cons] at held ⊢
    rw [gapsHold_cons]
    have split := held.imp_right (Or.imp_left parts)
    tauto
  · rw [gapsHold_append, gapsHold_cons] at held
    rw [gapsHold_append, gapsHold_cons]
    tauto

/-! ## A number cut from its gap (R26) -/

theorem toNat_behind_succ (h : 1 ≤ (e - n).toNat) : (e - (n + 1)).toNat + 1 = (e - n).toNat := by
  bv_omega

theorem toNat_behind_pred (h : (e - n).toNat + 1 < 2 ^ 32) : (e - (n - 1)).toNat = (e - n).toNat + 1 := by
  bv_omega

theorem behind_inj : (e - m).toNat = (e - n).toNat ↔ m = n := by
  constructor
  · intro h
    bv_omega
  · rintro rfl
    rfl

/-- A gap is a piece of another without a number: it lies in its place and misses the number. -/
structure Gap.pieceOf (e : Seq) (g : Gap) (n : Seq) (p : Gap) : Prop where
  last : (e - g.last).toNat ≤ (e - p.last).toNat
  upward : (e - p.last).toNat ≤ (e - p.first).toNat
  first : (e - p.first).toNat ≤ (e - g.first).toNat
  misses : (e - n).toNat < (e - p.last).toNat ∨ (e - p.first).toNat < (e - n).toNat

theorem Gap.pieceOf.liesBehind {p : Gap} (piece : g.pieceOf e n p) (bounds : g.liesBehind e bound) : p.liesBehind e bound :=
  ⟨bounds.last.trans piece.last, piece.upward, piece.first.trans bounds.first⟩

theorem Gap.pieceOf.holds {p : Gap} (piece : g.pieceOf e n p) (bounds : g.liesBehind e bound) (held : p.holds m = true) :
    g.holds m = true ∧ m ≠ n := by
  obtain ⟨far, near⟩ := ((piece.liesBehind bounds).holds_iff m).mp held
  refine ⟨(bounds.holds_iff m).mpr ⟨piece.last.trans far, near.trans piece.first⟩, ?_⟩
  rintro rfl
  have := piece.misses
  omega

/-- The part of a gap farther behind E than a number in it. -/
def Gap.older (g : Gap) (n : Seq) : List Gap := if n = g.first then [] else [⟨g.first, n - 1⟩]

/-- The part of a gap nearer to E than a number in it. -/
def Gap.newer (g : Gap) (n : Seq) : List Gap := if n = g.last then [] else [⟨n + 1, g.last⟩]

theorem cutGap_eq (held : g.holds n = true) : cutGap g n = g.older n ++ g.newer n := by
  rw [Gap.holds_iff] at held
  unfold cutGap Gap.older Gap.newer
  by_cases one : g.first = g.last
  · have : n = g.last := by bv_omega
    simp [one, this]
  · by_cases atFirst : n = g.first
    · simp [atFirst, one]
    · by_cases atLast : n = g.last
      · simp [atLast, Ne.symm one, one]
      · simp [one, atFirst, atLast]

theorem older_pieceOf (bounds : g.liesBehind e bound) (held : g.holds n = true) :
    ∀ p ∈ g.older n, g.pieceOf e n p ∧ (e - n).toNat + 1 = (e - p.last).toNat := by
  obtain ⟨far, near⟩ := (bounds.holds_iff n).mp held
  have first := bounds.first
  intro p hp
  unfold Gap.older at hp
  split at hp
  · cases hp
  · rename_i inside
    obtain rfl := List.mem_singleton.mp hp
    have away : (e - n).toNat ≠ (e - g.first).toNat := fun h => inside (behind_inj.mp h)
    have last := toNat_behind_pred (e := e) (n := n) (by omega)
    exact ⟨⟨by dsimp only; omega, by dsimp only; omega, Nat.le_refl _, .inl (by dsimp only; omega)⟩, last.symm⟩

theorem newer_pieceOf (bounds : g.liesBehind e bound) (held : g.holds n = true) :
    ∀ p ∈ g.newer n, g.pieceOf e n p ∧ (e - p.first).toNat + 1 = (e - n).toNat := by
  obtain ⟨far, near⟩ := (bounds.holds_iff n).mp held
  have last := bounds.last
  intro p hp
  unfold Gap.newer at hp
  split at hp
  · cases hp
  · rename_i inside
    obtain rfl := List.mem_singleton.mp hp
    have away : (e - n).toNat ≠ (e - g.last).toNat := fun h => inside (behind_inj.mp h)
    have first := toNat_behind_succ (e := e) (n := n) (by omega)
    exact ⟨⟨Nat.le_refl _, by dsimp only; omega, by dsimp only; omega, .inr (by dsimp only; omega)⟩, first⟩

theorem cutGap_pieceOf (bounds : g.liesBehind e bound) (held : g.holds n = true) :
    ∀ p ∈ cutGap g n, g.pieceOf e n p := by
  rw [cutGap_eq held]
  intro p hp
  rcases List.mem_append.mp hp with old | new
  · exact (older_pieceOf bounds held p old).1
  · exact (newer_pieceOf bounds held p new).1

theorem inOrder_cutGap (bounds : g.liesBehind e bound) (held : g.holds n = true) :
    inOrder e bound (cutGap g n) := by
  refine ⟨fun p hp => (cutGap_pieceOf bounds held p hp).liesBehind bounds, ?_⟩
  rw [cutGap_eq held]
  refine List.pairwise_append.mpr ⟨?_, ?_, fun p hp q hq => ?_⟩
  · unfold Gap.older
    split <;> simp
  · unfold Gap.newer
    split <;> simp
  · have last := (older_pieceOf bounds held p hp).2
    have first := (newer_pieceOf bounds held q hq).2
    show (e - q.first).toNat + 1 < (e - p.last).toNat
    omega

theorem cutGap_length (g : Gap) (n : Seq) : (cutGap g n).length ≤ 2 := by
  unfold cutGap
  split_ifs <;> simp

theorem cutGaps_length (n : Seq) : ∀ gaps, (cutGaps n gaps).length ≤ gaps.length + 1
  | [] => by simp [cutGaps]
  | g :: t => by
    unfold cutGaps
    split
    · have := cutGap_length g n
      simp only [List.length_append, List.length_cons]
      omega
    · exact Nat.succ_le_succ (cutGaps_length n t)

/-- A cut puts no gap farther behind E than one that stood in the list. -/
theorem cutGaps_nearer (order : inOrder e bound gaps) :
    ∀ p ∈ cutGaps n gaps, ∃ g ∈ gaps, (e - p.first).toNat ≤ (e - g.first).toNat := by
  induction gaps with
  | nil => simp [cutGaps]
  | cons g t ih =>
    obtain ⟨bounds, -, rest⟩ := inOrder_cons.mp order
    intro p hp
    unfold cutGaps at hp
    split at hp
    · rename_i held
      rcases List.mem_append.mp hp with piece | later
      · exact ⟨g, by simp, (cutGap_pieceOf bounds held p piece).first⟩
      · exact ⟨p, by simp [later], Nat.le_refl _⟩
    · rcases List.mem_cons.mp hp with rfl | later
      · exact ⟨p, by simp, Nat.le_refl _⟩
      · obtain ⟨h, hh, near⟩ := ih rest p later
        exact ⟨h, by simp [hh], near⟩

theorem inOrder_cutGaps (order : inOrder e bound gaps) : inOrder e bound (cutGaps n gaps) := by
  induction gaps with
  | nil => exact order
  | cons g t ih =>
    obtain ⟨bounds, before, rest⟩ := inOrder_cons.mp order
    unfold cutGaps
    split
    · rename_i held
      refine inOrder_append.mpr ⟨inOrder_cutGap bounds held, rest, fun p hp h hh => ?_⟩
      have near : (e - h.first).toNat + 1 < (e - g.last).toNat := before h hh
      exact near.trans_le (cutGap_pieceOf bounds held p hp).last
    · refine inOrder_cons.mpr ⟨bounds, fun p hp => ?_, ih rest⟩
      obtain ⟨h, hh, nearer⟩ := cutGaps_nearer rest p hp
      have near : (e - h.first).toNat + 1 < (e - g.last).toNat := before h hh
      show (e - p.first).toNat + 1 < (e - g.last).toNat
      omega

/-- A cut takes its number out of the list and puts none in. -/
theorem gapsHold_cutGaps (order : inOrder e bound gaps) (held : gapsHold (cutGaps n gaps) m) :
    gapsHold gaps m ∧ m ≠ n := by
  induction gaps with
  | nil => simp [cutGaps, gapsHold] at held
  | cons g t ih =>
    obtain ⟨bounds, before, rest⟩ := inOrder_cons.mp order
    unfold cutGaps at held
    split at held
    · rename_i cut
      rcases gapsHold_append.mp held with ⟨p, hp, inPiece⟩ | ⟨h, hh, later⟩
      · obtain ⟨inGap, other⟩ := (cutGap_pieceOf bounds cut p hp).holds bounds inPiece
        exact ⟨gapsHold_cons.mpr (.inl inGap), other⟩
      · refine ⟨gapsHold_cons.mpr (.inr ⟨h, hh, later⟩), ?_⟩
        rintro rfl
        have near : (e - h.first).toNat + 1 < (e - g.last).toNat := before h hh
        have inG := (bounds.holds_iff m).mp cut
        have inH := ((rest.behind h hh).holds_iff m).mp later
        omega
    · rename_i uncut
      rcases gapsHold_cons.mp held with inGap | later
      · exact ⟨gapsHold_cons.mpr (.inl inGap), fun same => uncut (same ▸ inGap)⟩
      · obtain ⟨inRest, other⟩ := ih rest later
        exact ⟨gapsHold_cons.mpr (.inr inRest), other⟩

end Sys2Proof.Machine
end

section
/-!
SUPPORT. What a marking does: E and the advance total move on together, the gap list stays in order, and no number that the
account had taken or given up is open again.
-/

namespace Sys2Proof.Machine

/-! ## The sequence test (R22) -/

/-- A number at or ahead of E is open: within the advance limit, and not set in the window. -/
def Account.opensAhead (a : Account) (n : Seq) : Prop :=
  a.advance + (n - a.e).toNat < 2 ^ 32 ∧ a.window.getLsbD (n - a.e).toNat = false

/-- A number the account could still accept: open ahead of E, or in a gap. -/
def Account.opens (a : Account) (n : Seq) : Prop := a.opensAhead n ∨ gapsHold a.gaps n

theorem any_holds_iff (gaps : List Gap) (n : Seq) : gaps.any (·.holds n) = true ↔ gapsHold gaps n := by
  simp [gapsHold]

variable {a : Account} {n : Seq}

theorem classify_near (h : (n - a.e).toNat ≤ 255) : classify a n
    = if 2 ^ 32 ≤ a.advance + (n - a.e).toNat ∨ a.window.getLsbD (n - a.e).toNat = true then none
      else some .inWindow := by
  unfold classify
  dsimp only
  rw [if_pos h]
  by_cases limit : 2 ^ 32 ≤ a.advance + (n - a.e).toNat
  · rw [if_pos limit, if_pos (.inl limit)]
  · by_cases set : a.window.getLsbD (n - a.e).toNat = true
    · rw [if_neg limit, if_pos set, if_pos (.inr set)]
    · rw [if_neg limit, if_neg set, if_neg fun refused => refused.elim limit set]

theorem classify_ahead (far : 256 ≤ (n - a.e).toNat) (ahead : (n - a.e).toNat < 2 ^ 31) :
    classify a n = if 2 ^ 32 ≤ a.advance + (n - a.e).toNat then none else some .farAhead := by
  unfold classify
  dsimp only
  rw [if_neg (by omega), if_pos ahead]

theorem classify_behind [Decidable (gapsHold a.gaps n)] (h : 2 ^ 31 ≤ (n - a.e).toNat) :
    classify a n = if gapsHold a.gaps n then some .lateFill else none := by
  unfold classify
  dsimp only
  rw [if_neg (by omega), if_neg (by omega)]
  simp only [any_holds_iff]

/-- What each class of the sequence test says of the number (R22). -/
theorem classify_spec {c : SeqClass} (h : classify a n = some c) :
    match c with
    | .inWindow => (n - a.e).toNat ≤ 255 ∧ a.opensAhead n
    | .farAhead => 256 ≤ (n - a.e).toNat ∧ (n - a.e).toNat < 2 ^ 31 ∧ a.opensAhead n
    | .lateFill => 2 ^ 31 ≤ (n - a.e).toNat ∧ gapsHold a.gaps n := by
  classical
  by_cases near : (n - a.e).toNat ≤ 255
  · rw [classify_near near] at h
    split at h
    · cases h
    · rename_i isOpen
      cases h
      exact ⟨near, Nat.not_le.mp fun limit => isOpen (.inl limit), Bool.eq_false_iff.mpr fun set => isOpen (.inr set)⟩
  · by_cases ahead : (n - a.e).toNat < 2 ^ 31
    · rw [classify_ahead (by omega) ahead] at h
      split at h
      · cases h
      · rename_i limit
        cases h
        exact ⟨by omega, ahead, Nat.not_le.mp limit, BitVec.getLsbD_of_ge _ _ (by omega)⟩
    · rw [classify_behind (Nat.not_lt.mp ahead)] at h
      split at h
      · rename_i held
        cases h
        exact ⟨Nat.not_lt.mp ahead, held⟩
      · cases h

/-- Only an open number is accepted. -/
theorem opens_of_classify {c : SeqClass} (h : classify a n = some c) : a.opens n := by
  have spec := classify_spec h
  cases c with
  | inWindow => exact .inl spec.2
  | farAhead => exact .inl spec.2.2
  | lateFill => exact .inr spec.2

/-- The offsets of a gap's numbers run from its first to its last. -/
theorem gapsHold_iff_offset (gaps : List Gap) (n : Seq) : gapsHold gaps n
    ↔ ∃ g ∈ gaps, ∃ i, i ≤ (g.last - g.first).toNat ∧ n = g.first + BitVec.ofNat 32 i := by
  refine exists_congr fun g => and_congr_right fun _ => ?_
  rw [Gap.holds_iff]
  constructor
  · exact fun held => ⟨(n - g.first).toNat, held, by bv_omega⟩
  · rintro ⟨i, within, rfl⟩
    have offset : (g.first + BitVec.ofNat 32 i - g.first).toNat = i := by bv_omega
    rwa [offset]

theorem checkSequence_of_none {inp : CheckInput} {r : RawRec} (h : classify inp.account r.seq = none) (sticky : BitVec 9)
    (changed : Bool) : (checkSequence inp sticky r changed).result
      = if masked inp.mask .duplicate then .duplicate else .halt .duplicate := by
  unfold checkSequence
  rw [h]

theorem checkSequence_of_some {inp : CheckInput} {r : RawRec} {c : SeqClass} (h : classify inp.account r.seq = some c)
    (sticky : BitVec 9) (changed : Bool) : checkSequence inp sticky r changed = checkExpired inp sticky r changed c := by
  unfold checkSequence
  rw [h]

/-! ## The window's advance (R24, step 2) -/

/-- An account whose window has advanced by `k`. -/
def Account.advanced (a : Account) (k : Nat) : Account :=
  { a with window := a.window >>> k, e := a.e + BitVec.ofNat 32 k, advance := a.advance + k }

theorem advanced_zero (a : Account) : a.advanced 0 = a := by
  simp [Account.advanced]

theorem advanced_advanced (a : Account) (j k : Nat) : (a.advanced j).advanced k = a.advanced (j + k) := by
  simp only [Account.advanced, add_ofNat_add, BitVec.shiftRight_add, Nat.add_assoc]

theorem advanceWindow_succ (k : Nat) (a : Account) :
    advanceWindow (k + 1) a = if a.window.getLsbD 0 then advanceWindow k (a.advanced 1) else a := rfl

theorem advanceWindow_eq (k : Nat) (a : Account) : ∃ j ≤ k, advanceWindow k a = a.advanced j := by
  induction k generalizing a with
  | zero => exact ⟨0, Nat.le_refl _, (advanced_zero a).symm⟩
  | succ k ih =>
    rw [advanceWindow_succ]
    split
    · obtain ⟨j, hj, eq⟩ := ih (a.advanced 1)
      exact ⟨1 + j, by omega, by rw [eq, advanced_advanced]⟩
    · exact ⟨0, Nat.zero_le _, (advanced_zero a).symm⟩

theorem advanceWindow_gaps (k : Nat) (a : Account) : (advanceWindow k a).gaps = a.gaps := by
  obtain ⟨j, -, eq⟩ := advanceWindow_eq k a
  rw [eq, Account.advanced]

/-- The advance ends with position 0 clear, when it may take as many steps as the window has set positions from 0. -/
theorem advanceWindow_clear (k : Nat) (a : Account) (h : ∀ i, k ≤ i → a.window.getLsbD i = false) :
    (advanceWindow k a).window.getLsbD 0 = false := by
  induction k generalizing a with
  | zero => exact h 0 (Nat.le_refl _)
  | succ k ih =>
    rw [advanceWindow_succ]
    split
    · refine ih (a.advanced 1) fun i hi => ?_
      rw [Account.advanced, BitVec.getLsbD_ushiftRight]
      exact h (1 + i) (by omega)
    · rename_i clear
      simpa using clear

/-! ## The marking (R23 to R28) -/

variable {b : Account} {m : Seq} {bound k p : Nat} {drops : List Drop}

theorem finishMark_e (before : Seq) (a : Account) (drops : List Drop) : (finishMark before a drops).1.e = a.e := rfl

theorem finishMark_advance (before : Seq) (a : Account) (drops : List Drop) :
    (finishMark before a drops).1.advance = a.advance := rfl

theorem finishMark_window (before : Seq) (a : Account) (drops : List Drop) :
    (finishMark before a drops).1.window = a.window := rfl

theorem finishMark_gaps (before : Seq) (a : Account) (drops : List Drop) :
    (finishMark before a drops).1.gaps = if a.e = before then a.gaps else (ageGaps a.e a.gaps).1 := by
  unfold finishMark
  split <;> rfl

theorem finishMark_suffix (before : Seq) (a : Account) (drops : List Drop) :
    (finishMark before a drops).1.gaps <:+ a.gaps := by
  rw [finishMark_gaps]
  split
  · exact List.suffix_rfl
  · exact ageGaps_suffix _ _

/-- The end of a marking keeps the gaps within 2^30 behind E, where they were so before if E stands still. -/
theorem inOrder_finishMark {before : Seq} (order : inOrder a.e bound a.gaps) (still : a.e = before → bound ≤ 2 ^ 30) :
    inOrder a.e (min bound (2 ^ 30)) (finishMark before a drops).1.gaps := by
  rw [finishMark_gaps]
  split
  · rename_i same
    rwa [Nat.min_eq_left (still same)]
  · exact inOrder_ageGaps order

theorem gapsHold_of_finish {before : Seq}
    (held : gapsHold (finishMark before (advanceWindow 256 b) drops).1.gaps m) : gapsHold b.gaps m := by
  rw [← advanceWindow_gaps 256 b]
  exact held.mono (finishMark_suffix _ _ _).subset

/-- What a marking leaves of an account whose gaps lay within a bound: E and the advance total have moved on together, by
`k`, and the account is lawful, with its gaps within the bound moved on too. -/
structure Account.marked (a : Account) (bound k : Nat) (b : Account) : Prop where
  advance : b.advance = a.advance + k
  clear : b.window.getLsbD 0 = false
  short : b.gaps.length ≤ 32
  order : inOrder b.e (min (bound + k) (2 ^ 30)) b.gaps

theorem Account.marked.lawful (h : a.marked bound k b) : b.lawful :=
  ⟨h.clear, h.short, (b.gapsOrdered_iff b.gaps).mpr (h.order.mono (Nat.min_le_right _ _))⟩

/-- An account whose window has moved on by `k` and has taken a number at position `p` (R24, step 1; R25, step 3). -/
structure Account.takes (a : Account) (n : Seq) (k p : Nat) (b : Account) : Prop where
  e : b.e = a.e + BitVec.ofNat 32 k
  advance : b.advance = a.advance + k
  window : b.window = a.window >>> k ||| 1#256 <<< p
  distance : (n - a.e).toNat = k + p
  inside : p ≤ 255

/-- The account of a window that advanced after a taking, as a marking ends it. -/
theorem Account.takes.finish (h : a.takes n k p b) (drops : List Drop) : ∃ j ≤ 256,
    (finishMark a.e (advanceWindow 256 b) drops).1.e = a.e + BitVec.ofNat 32 (k + j)
      ∧ (finishMark a.e (advanceWindow 256 b) drops).1.advance = a.advance + (k + j)
      ∧ (finishMark a.e (advanceWindow 256 b) drops).1.window = (a.window >>> k ||| 1#256 <<< p) >>> j
      ∧ advanceWindow 256 b = b.advanced j := by
  obtain ⟨j, hj, eq⟩ := advanceWindow_eq 256 b
  refine ⟨j, hj, ?_, ?_, ?_, eq⟩
  · rw [finishMark_e, eq, Account.advanced, h.e, add_ofNat_add]
  · rw [finishMark_advance, eq, Account.advanced, h.advance, Nat.add_assoc]
  · rw [finishMark_window, eq, Account.advanced, h.window]

theorem Account.takes.marked (h : a.takes n k p b) (hk : k < 2 ^ 31) (hb : bound ≤ 2 ^ 30) (short : b.gaps.length ≤ 32)
    (order : inOrder b.e (bound + k) b.gaps) (drops : List Drop) :
    ∃ j, a.marked bound j (finishMark a.e (advanceWindow 256 b) drops).1 := by
  obtain ⟨j, hj, moved, advance, -, eq⟩ := h.finish drops
  refine ⟨k + j, advance, ?_, ?_, ?_⟩
  · exact advanceWindow_clear 256 b fun i hi => BitVec.getLsbD_of_ge _ _ hi
  · refine (finishMark_suffix _ _ _).length_le.trans ?_
    rwa [advanceWindow_gaps]
  · rw [finishMark_e] at moved ⊢
    rw [← Nat.add_assoc]
    refine inOrder_finishMark ?_ fun same => ?_
    · rw [eq]
      exact order.moved (by omega)
    · rw [moved] at same
      have : k + j = 0 := by bv_omega
      omega

/-- After a taking and its advance, no number is open ahead of E that was not open before, nor the number taken. -/
theorem Account.takes.opensAhead (h : a.takes n k p b)
    (opened : (finishMark a.e (advanceWindow 256 b) drops).1.opensAhead m) : a.opensAhead m ∧ m ≠ n := by
  obtain ⟨j, -, moved, advance, window, -⟩ := h.finish drops
  obtain ⟨limit, clear⟩ := opened
  rw [moved, advance] at limit
  rw [moved, window] at clear
  have distance : (m - a.e).toNat = k + j + (m - (a.e + BitVec.ofNat 32 (k + j))).toNat := toNat_ahead_of_add (by omega)
  generalize (m - (a.e + BitVec.ofNat 32 (k + j))).toNat = d at limit clear distance
  rw [BitVec.getLsbD_ushiftRight, BitVec.getLsbD_or, BitVec.getLsbD_ushiftRight, Bool.or_eq_false_iff, ← Nat.add_assoc,
    ← distance] at clear
  refine ⟨⟨by omega, clear.1⟩, ?_⟩
  rintro rfl
  have here : j + d = p := by have := h.distance; omega
  have set : (1#256 <<< p).getLsbD p = true := by
    have := h.inside
    simp [BitVec.getLsbD_shiftLeft]
    omega
  rw [here, set] at clear
  exact absurd clear.2 (by decide)

/-- The account of an IN_WINDOW record before its advance: its position is set (R24, step 1). -/
def Account.filled (a : Account) (n : Seq) : Account := { a with window := a.window ||| (1#256 <<< (n - a.e).toNat) }

theorem takes_of_inWindow (near : (n - a.e).toNat ≤ 255) : a.takes n 0 (n - a.e).toNat (a.filled n) :=
  ⟨by simp [Account.filled], rfl, by simp [Account.filled], (Nat.zero_add _).symm, near⟩

/-- The account of a FAR_AHEAD record before its advance: the window moved to end at the record (R25, steps 1 to 3). -/
def Account.shifted (a : Account) (k : Nat) : Account :=
  { a with e := a.e + BitVec.ofNat 32 k, advance := a.advance + k,
           gaps := (addRuns a.gaps ((clearRuns a.window k).map (runGap a.e))).1,
           window := (if k < 256 then a.window >>> k else 0) ||| (1#256 <<< 255) }

theorem takes_of_farAhead (far : 256 ≤ (n - a.e).toNat) :
    a.takes n ((n - a.e).toNat - 255) 255 (a.shifted ((n - a.e).toNat - 255)) := by
  refine ⟨rfl, rfl, ?_, by omega, Nat.le_refl _⟩
  unfold Account.shifted
  dsimp only
  split
  · rfl
  · rw [BitVec.ushiftRight_eq_zero (by omega)]
    rfl

/-- The gaps and the runs of a shift, both in order behind the E that the shift leaves, with every run nearer. -/
theorem shift_order (order : inOrder a.e bound a.gaps) (hk : bound + k < 2 ^ 32) :
    inOrder (a.e + BitVec.ofNat 32 k) (bound + k) a.gaps
      ∧ inOrder (a.e + BitVec.ofNat 32 k) (bound + k) ((clearRuns a.window k).map (runGap a.e))
      ∧ ∀ g ∈ a.gaps, ∀ r ∈ (clearRuns a.window k).map (runGap a.e),
          (a.e + BitVec.ofNat 32 k - r.first).toNat < (a.e + BitVec.ofNat 32 k - g.last).toNat := by
  have runs : inOrder (a.e + BitVec.ofNat 32 k) k ((clearRuns a.window k).map (runGap a.e)) :=
    inOrder_runs (clearBelow_clearRuns a.window k) (by omega)
  refine ⟨order.moved hk, runs.mono (Nat.le_add_left _ _), fun g hg r hr => ?_⟩
  have bounds := order.behind g hg
  have last := bounds.last
  have farther : (a.e + BitVec.ofNat 32 k - g.last).toNat = (a.e - g.last).toNat + k :=
    toNat_behind_add (by have := bounds.upward.trans bounds.first; omega)
  have near := (runs.behind r hr).first
  omega

theorem inOrder_shifted (order : inOrder a.e bound a.gaps) (hk : bound + k < 2 ^ 32) :
    inOrder (a.shifted k).e (bound + k) (a.shifted k).gaps := by
  obtain ⟨old, new, nearer⟩ := shift_order order hk
  exact (inOrder_joinRuns old new nearer).sublist (addRuns_suffix _ _).sublist

/-- A gap after a shift holds numbers that a gap held before, and numbers that left the window clear. -/
theorem gapsHold_shifted (order : inOrder a.e bound a.gaps) (hk : bound + k < 2 ^ 32) (held : gapsHold (a.shifted k).gaps m) :
    gapsHold a.gaps m ∨ (m - a.e).toNat < k ∧ a.window.getLsbD (m - a.e).toNat = false := by
  obtain ⟨old, new, nearer⟩ := shift_order order hk
  have joined : gapsHold (joinRuns a.gaps ((clearRuns a.window k).map (runGap a.e))) m :=
    held.mono (addRuns_suffix _ _).subset
  exact (gapsHold_joinRuns old new nearer joined).imp_right
    (clear_of_runs_hold (clearBelow_clearRuns a.window k) (by omega))

theorem mark_inWindow (a : Account) (n : Seq) :
    (mark a .inWindow n).1 = (finishMark a.e (advanceWindow 256 (a.filled n)) []).1 := rfl

theorem mark_farAhead (a : Account) (n : Seq) : (mark a .farAhead n).1
    = (finishMark a.e (advanceWindow 256 (a.shifted ((n - a.e).toNat - 255)))
        (addRuns a.gaps ((clearRuns a.window ((n - a.e).toNat - 255)).map (runGap a.e))).2).1 := rfl

theorem mark_lateFill (a : Account) (n : Seq) : (mark a .lateFill n).1
    = (finishMark a.e { a with gaps := (trimGaps (cutGaps n a.gaps)).1 } (trimGaps (cutGaps n a.gaps)).2).1 := rfl

/-- A marking moves E and the advance total on together and leaves a lawful account. -/
theorem marked_mark {c : SeqClass} (clear : a.window.getLsbD 0 = false) (short : a.gaps.length ≤ 32)
    (order : inOrder a.e bound a.gaps) (hb : bound ≤ 2 ^ 30) (h : classify a n = some c) :
    ∃ k, a.marked bound k (mark a c n).1 := by
  have spec := classify_spec h
  cases c with
  | inWindow =>
    rw [mark_inWindow]
    exact (takes_of_inWindow spec.1).marked (by decide) hb short order []
  | farAhead =>
    obtain ⟨far, near, -⟩ := spec
    rw [mark_farAhead]
    exact (takes_of_farAhead far).marked (by omega) hb (addRuns_length short _) (inOrder_shifted order (by omega)) _
  | lateFill =>
    rw [mark_lateFill]
    refine ⟨0, rfl, clear, ?_, ?_⟩
    · refine (finishMark_suffix _ _ _).length_le.trans (trimGaps_length ((cutGaps_length n a.gaps).trans ?_))
      omega
    · have cut : inOrder a.e bound (trimGaps (cutGaps n a.gaps)).1 :=
        (inOrder_cutGaps order).sublist (trimGaps_suffix _).sublist
      exact inOrder_finishMark (a := { a with gaps := (trimGaps (cutGaps n a.gaps)).1 }) cut fun _ => hb

/-- A number in a gap is in the half of the numbers behind E, and beyond the advance limit where the opening has passed it. -/
theorem gapsHold.distance (held : gapsHold a.gaps n) (order : inOrder a.e bound a.gaps) (hb : bound ≤ 2 ^ 30) :
    2 ^ 31 ≤ (n - a.e).toNat ∧ 2 ^ 32 ≤ bound + (n - a.e).toNat := by
  obtain ⟨behind, within⟩ := held.behind order
  constructor <;> bv_omega

/-- A marking opens no number, and closes its own (R30). -/
theorem opens_mark {c : SeqClass} (order : inOrder a.e bound a.gaps) (hb : bound ≤ 2 ^ 30) (hA : bound ≤ a.advance)
    (h : classify a n = some c) (opened : (mark a c n).1.opens m) : a.opens m ∧ m ≠ n := by
  have spec := classify_spec h
  have apart : gapsHold a.gaps m → (n - a.e).toNat < 2 ^ 31 → m ≠ n := fun held ahead => by
    rintro rfl
    have := (held.distance order hb).1
    omega
  cases c with
  | inWindow =>
    obtain ⟨near, -⟩ := spec
    rw [mark_inWindow] at opened
    rcases opened with ahead | held
    · exact ((takes_of_inWindow near).opensAhead ahead).imp_left .inl
    · have old : gapsHold a.gaps m := gapsHold_of_finish (b := a.filled n) held
      exact ⟨.inr old, apart old (by omega)⟩
  | farAhead =>
    obtain ⟨far, near, limit, -⟩ := spec
    rw [mark_farAhead] at opened
    rcases opened with ahead | held
    · exact ((takes_of_farAhead far).opensAhead ahead).imp_left .inl
    · rcases gapsHold_shifted order (by omega) (gapsHold_of_finish held) with old | ⟨below, clear⟩
      · exact ⟨.inr old, apart old near⟩
      · refine ⟨.inl ⟨by omega, clear⟩, ?_⟩
        rintro rfl
        omega
  | lateFill =>
    obtain ⟨-, late⟩ := spec
    rw [mark_lateFill] at opened
    rcases opened with ahead | held
    · refine ⟨.inl ahead, ?_⟩
      rintro rfl
      have limit : a.advance + (m - a.e).toNat < 2 ^ 32 := ahead.1
      have := (late.distance order hb).2
      omega
    · have cut : gapsHold (cutGaps n a.gaps) m :=
        held.mono ((finishMark_suffix _ _ _).trans (trimGaps_suffix _)).subset
      exact (gapsHold_cutGaps order cut).imp_left .inr

/-- A lawful account whose gaps were all left in its opening: none lies farther behind E than E has come. -/
structure Account.tracked (a : Account) : Prop where
  lawful : a.lawful
  order : inOrder a.e (min a.advance (2 ^ 30)) a.gaps

theorem lawful_fresh (first : Seq) : (Account.fresh first).lawful := ⟨BitVec.getLsbD_zero, by simp [Account.fresh], trivial⟩

theorem tracked_fresh (first : Seq) : (Account.fresh first).tracked := ⟨lawful_fresh first, inOrder_nil⟩

theorem tracked_mark {c : SeqClass} (t : a.tracked) (h : classify a n = some c) : (mark a c n).1.tracked := by
  obtain ⟨k, marked⟩ := marked_mark t.lawful.clear t.lawful.short t.order (Nat.min_le_right _ _) h
  refine ⟨marked.lawful, marked.order.mono ?_⟩
  rw [marked.advance]
  omega

/-- The numbers accepted from an account on were open in it, and each is accepted once. -/
theorem acceptedOf_opens_nodup (presented : List Seq) (a : Account) (t : a.tracked) :
    (∀ m ∈ a.acceptedOf presented, a.opens m) ∧ (a.acceptedOf presented).Nodup := by
  induction presented generalizing a with
  | nil => exact ⟨by simp [Account.acceptedOf], .nil⟩
  | cons n rest ih =>
    unfold Account.acceptedOf
    split
    · rename_i c cls
      obtain ⟨later, once⟩ := ih _ (tracked_mark t cls)
      have closed : ∀ m ∈ (mark a c n).1.acceptedOf rest, a.opens m ∧ m ≠ n := fun m hm =>
        opens_mark t.order (Nat.min_le_right _ _) (Nat.min_le_left _ _) cls (later m hm)
      exact ⟨List.forall_mem_cons.mpr ⟨opens_of_classify cls, fun m hm => (closed m hm).1⟩,
        List.nodup_cons.mpr ⟨fun again => (closed n again).2 rfl, once⟩⟩
    · exact ih a t

end Sys2Proof.Machine

open Sys2Proof Sys2Proof.Machine

/-- Settles O16: each class at its distances, and the outcome Record Check gives it. -/
theorem sequenceTestClassifies : Obligations.SequenceTestClassifies := by
  unfold Obligations.SequenceTestClassifies
  intro a n inp sticky r changed d inGap
  have distance : (n - a.e).toNat = d := by
    rw [BitVec.toNat_sub]
    omega
  have gaps : inGap ↔ gapsHold a.gaps n := (gapsHold_iff_offset a.gaps n).symm
  clear_value d inGap
  subst distance
  classical
  refine ⟨fun near refused => ?_, fun near limit clear => ?_, fun far ahead limit => ?_, fun far ahead limit => ?_,
    fun behind held => ?_, fun behind free => ?_, ?_⟩
  · rw [classify_near near, if_pos refused]
  · rw [classify_near near, if_neg fun refused => refused.elim (Nat.not_le.mpr limit) (Bool.eq_false_iff.mp clear)]
  · rw [classify_ahead far ahead, if_pos limit]
  · rw [classify_ahead far ahead, if_neg (Nat.not_le.mpr limit)]
  · rw [classify_behind behind, if_pos (gaps.mp held)]
  · rw [classify_behind behind, if_neg (free ∘ gaps.mpr)]
  · rintro rfl rfl
    exact ⟨fun refused => checkSequence_of_none refused sticky changed,
      fun _ passed => checkSequence_of_some passed sticky changed⟩

/-- Settles O17: a marking keeps the gap list in order within 2^30 behind E, by class. -/
theorem markingKeepsTheAccountLawful : Obligations.MarkingKeepsTheAccountLawful := by
  unfold Obligations.MarkingKeepsTheAccountLawful
  refine ⟨lawful_fresh, fun a n c lawful h => ?_⟩
  obtain ⟨k, marked⟩ :=
    marked_mark lawful.clear lawful.short ((a.gapsOrdered_iff a.gaps).mp lawful.ordered) (Nat.le_refl _) h
  exact marked.lawful

/-- Settles O18, by induction on the numbers presented: only open numbers are accepted, and a marking closes its own and
opens none. -/
theorem noNumberIsAcceptedTwice : Obligations.NoNumberIsAcceptedTwice := by
  unfold Obligations.NoNumberIsAcceptedTwice
  exact fun first presented => (acceptedOf_opens_nodup presented _ (tracked_fresh first)).2

end

section
/-!
SUPPORT. The reads of a stream: the places that a command writes into its buffer.
-/

namespace Sys2Proof.Machine

theorem writePlaces_frame (p : PortId) (addr : Nat) (places : List Place) (i : Nat) (s : State) :
    s.sameBut [.out] (s.writePlaces p addr i places) := by
  induction places generalizing i s with
  | nil => exact sameBut_refl _ _
  | cons place rest ih => exact sameBut_trans (emit_frame s _) (ih (i + 1) _)

theorem writePlaces_out (p : PortId) (addr : Nat) (places : List Place) (i : Nat) (s : State) :
    (s.writePlaces p addr i places).out = s.out ++ (places.zipIdx i).map (fun q => placeAt p addr q.2 q.1) := by
  induction places generalizing i s with
  | nil => exact (List.append_nil _).symm
  | cons place rest ih =>
    rw [State.writePlaces, ih, List.zipIdx_cons, List.map_cons, List.append_cons]
    rfl

theorem contextOf_holding (s : State) (a : At) (slot : Nat) (st : Stream) :
    (s.holding a).contextOf slot st = s.contextOf slot st := rfl

theorem le_countRead {n k : Nat} (h : n = 0 ∨ k ≤ n) (hk : k ≤ 4096) : k ≤ countRead n := by
  unfold countRead
  split <;> omega

section
variable {s : State} {a : At} {buf : Buf} {source slot : Nat} {st : Stream}

theorem snapshot_of_found (enough : 2 ≤ countRead buf.count) (found : s.findStream source = some (slot, st)) :
    s.snapshot a buf source
      = ((s.emit (.place a.port buf.addr (.context (s.contextOf slot st)))).modStream slot
          (fun st => { st with mask := fullMask })).complete (refOf a) (Completion.plain .done 2) := by
  unfold State.snapshot
  rw [if_neg (Nat.not_lt.mpr enough), found]

theorem readGaps_of_found (enough : 5 ≤ countRead buf.count) (found : s.findStream source = some (slot, st)) :
    s.readGaps a buf source
      = (s.writePlaces a.port buf.addr 0 (accountPlaces st)).complete (refOf a)
          { Completion.doneWith (.gapCount st.account.gaps.length) with countDone := (accountPlaces st).length } := by
  unfold State.readGaps
  rw [if_neg (Nat.not_lt.mpr enough), found]

end

/-- Gaps fill their places eight at a time, and only the last place may hold fewer (R32). -/
theorem gapPlaces_spec (n : Nat) (gaps : List Gap) (h : gaps.length ≤ 8 * n) :
    ∃ groups : List (List Gap), gapPlaces n gaps = groups.map Place.gaps ∧ groups.flatten = gaps
      ∧ (∀ g ∈ groups, g.length ≤ 8) ∧ (∀ g ∈ groups.dropLast, g.length = 8)
      ∧ groups.length = (gaps.length + 7) / 8 := by
  induction n generalizing gaps with
  | zero =>
    obtain rfl := List.length_eq_zero_iff.mp (Nat.le_zero.mp h)
    exact ⟨[], rfl, rfl, by simp, by simp, rfl⟩
  | succ n ih =>
    cases gaps with
    | nil => exact ⟨[], rfl, rfl, by simp, by simp, rfl⟩
    | cons first more =>
    generalize eq : first :: more = gaps at h
    have pos : 1 ≤ gaps.length := by simp [← eq]
    have unfolded : gapPlaces (n + 1) gaps = .gaps (gaps.take 8) :: gapPlaces n (gaps.drop 8) := by
      subst eq
      rfl
    obtain ⟨groups, places, whole, short, full, count⟩ := ih (gaps.drop 8) (by rw [List.length_drop]; omega)
    rw [List.length_drop] at count
    refine ⟨gaps.take 8 :: groups, ?_, ?_, ?_, ?_, ?_⟩
    · rw [unfolded, places, List.map_cons]
    · rw [List.flatten_cons, whole, List.take_append_drop]
    · exact List.forall_mem_cons.mpr ⟨List.length_take_le 8 gaps, short⟩
    · cases groups with
      | nil => simp
      | cons next later =>
        rw [List.dropLast_cons_cons]
        refine List.forall_mem_cons.mpr ⟨?_, full⟩
        rw [List.length_cons] at count
        rw [List.length_take]
        omega
    · rw [List.length_cons, count]
      omega

end Sys2Proof.Machine

open Sys2Proof Sys2Proof.Machine

/-- Settles O5: the place of the context record and the mask after it, and the account's places. -/
theorem streamReadsShowTheStream : Obligations.StreamReadsShowTheStream := by
  unfold Obligations.StreamReadsShowTheStream
  intro s a buf source slot st rising found fits
  refine ⟨fun h enough => ?_, fun h enough short => ?_⟩
  · refine ⟨_, rfl, ?_⟩
    unfold streamSnapshot
    rw [bufferDescriptor_of_arrives h fits, snapshot_of_found (le_countRead (by omega) (by decide))
      ((findStream_holding s a source).trans found), contextOf_holding]
    have written := emit_frame (s.holding a) (.place a.port buf.addr (.context (s.contextOf slot st)))
    have effect := sameBut_then (m := [.out, .streams]) written
      (modStream_frame _ slot (fun st => { st with mask := fullMask })) (by decide) (by decide)
    obtain ⟨ends, frame⟩ := complete_finishes (posted := [placeAt a.port buf.addr 0 (.context (s.contextOf slot st))])
      (w := Completion.plain .done 2) h (effect.ports (by decide)) rfl rfl
    have streams := written.streams (by decide)
    rw [(holding_frame s a).streams (by decide)] at streams
    rw [frame.streams (by decide), State.modStream, State.setStreams_streams, streams]
    refine ⟨?_, sameAway_tmod _ _ _, ends, ?_⟩
    · rw [tget_tmod, if_pos rfl, tget_of_findStream rising found]
      rfl
    · exact sameBut_then (sameBut_then (m := [.out, .streams, .ports]) (holding_frame s a) effect (by decide) (by decide)) frame
        (by decide) (by decide)
  · obtain ⟨groups, shown, whole, sizes, full, count⟩ := gapPlaces_spec 4 st.account.gaps short
    refine ⟨_, groups, rfl, whole, sizes, full, by omega, ?_⟩
    unfold gapRead
    rw [bufferDescriptor_of_arrives h fits, readGaps_of_found (le_countRead enough (by decide))
      ((findStream_holding s a source).trans found)]
    have written := writePlaces_frame a.port buf.addr (accountPlaces st) 0 (s.holding a)
    have listed : accountPlaces st = .account (accountShown st) :: groups.map Place.gaps := by rw [accountPlaces, shown]
    have number : (accountPlaces st).length = 1 + (st.account.gaps.length + 7) / 8 := by
      rw [listed, List.length_cons, List.length_map, count, Nat.add_comm]
    obtain ⟨ends, frame⟩ := complete_finishes
      (w := { Completion.doneWith (.gapCount st.account.gaps.length) with countDone := (accountPlaces st).length })
      h (written.ports (by decide)) (writePlaces_out a.port buf.addr (accountPlaces st) 0 (s.holding a)) rfl
    refine ⟨?_, sameBut_then (sameBut_then (m := [.out, .ports]) (holding_frame s a) written (by decide) (by decide)) frame
      (by decide) (by decide)⟩
    rw [number, listed] at ends
    rw [number, listed]
    exact ends

end

section
/-!
SUPPORT. The settings of a stream: a descriptor that changes one stream and ends DONE.
-/

namespace Sys2Proof.Machine

variable {s : State} {a : At} {source slot : Nat} {st : Stream}

/-- A descriptor whose whole effect is on one stream that stands in the table. -/
theorem modStream_done {role : Role} (h : s.arrives a role) (stands : tget s.streams slot = some st) (f : Stream → Stream)
    (r : Results) :
    let t := ((s.holding a).modStream slot f).done a r
    tget t.streams slot = some (f st) ∧ sameAway slot s.streams t.streams ∧ s.finishes a [] (Completion.doneWith r) t
      ∧ s.sameBut [.streams, .ports, .out] t := by
  have effect := modStream_frame (s := s.holding a) slot f
  obtain ⟨ends, frame⟩ := done_finishes h effect (by decide) (by decide) r
  have streams : (((s.holding a).modStream slot f).done a r).streams = tmod s.streams slot f := by
    rw [frame.streams (by decide), State.modStream, State.setStreams_streams, (holding_frame s a).streams (by decide)]
  dsimp only
  rw [streams]
  refine ⟨?_, sameAway_tmod _ _ _, ends, ?_⟩
  · rw [tget_tmod, if_pos rfl, stands, Option.map_some]
  · exact sameBut_then (sameBut_then (m := [.streams, .ports]) (holding_frame s a) effect (by decide) (by decide)) frame
      (by decide) (by decide)

theorem maskStream_of_found (found : s.findStream source = some (slot, st)) (mask : BitVec 8) (clear : Bool) :
    s.maskStream a source mask clear
      = (s.modStream slot (fun x =>
          { x with mask, sticky := if clear then 0 else x.sticky,
                   lastFault := if clear then none else x.lastFault })).done a (.masks st.mask st.sticky) := by
  unfold State.maskStream
  rw [found]

theorem setWidths_of_found (found : s.findStream source = some (slot, st)) (force : Three) {tolerance : Nat}
    (fits : tolerance ≤ 7) :
    s.setWidths a source force tolerance
      = (s.modStream slot (fun x =>
          { x with training := { x.training with force := forcesRead force, tolerance } })).done a
          (.widths (forcesRead force) tolerance) := by
  unfold State.setWidths
  rw [if_neg (Nat.not_lt.mpr fits), found]

end Sys2Proof.Machine

open Sys2Proof Sys2Proof.Machine

/-- Settles O4: either command changes only the stream it names, and its completion carries the result fields. -/
theorem streamSettingsChangeOneStream : Obligations.StreamSettingsChangeOneStream := by
  unfold Obligations.StreamSettingsChangeOneStream
  intro s a source slot st h rising found
  have stands := tget_of_findStream rising found
  have reached := (findStream_holding s a source).trans found
  refine ⟨fun mask clear => ⟨_, rfl, ?_⟩, fun force tolerance fits => ⟨_, rfl, ?_⟩⟩
  · unfold streamMask
    rw [descriptor_of_arrives h, maskStream_of_found reached]
    exact modStream_done h stands _ _
  · unfold widthSet
    rw [descriptor_of_arrives h, setWidths_of_found reached force fits]
    exact modStream_done h stands _ _

end

section
/-!
SUPPORT. The predictor stack after a hit and after a miss, and the law of a stack that both keep (R49 to R52).
-/

namespace Sys2Proof.Machine

/-! ## What stands at each depth -/

/-- Slots of two depths below 8 are the same where the depths are. -/
theorem slotAt_inj (st : Stack) {i d : Nat} (hi : i < 8) (hd : d < 8) : (st.slotAt d).val = (st.slotAt i).val ↔ i = d := by
  simp only [Stack.slotAt]; omega

theorem at_hit (st : Stack) {d i : Nat} (hi : i < 8) (hd : d < 8) :
    (st.hit d).at_ i = if i = d then st.at_ 0 else if i = 0 then st.at_ d else st.at_ i := by
  change ((st.slots.set (st.slotAt 0).val (st.at_ d)).set (st.slotAt d).val (st.at_ 0))[(st.slotAt i).val] = _
  simp only [Vector.getElem_set, slotAt_inj st hi hd, slotAt_inj st hi (d := 0) (by decide)]
  rfl

theorem at_push_zero (st : Stack) (head : List Nat) : (st.push head).at_ 0 = some head :=
  Vector.getElem_set_self _

theorem at_push_succ (st : Stack) (head : List Nat) {i : Nat} (hi : i < 7) : (st.push head).at_ (i + 1) = st.at_ i := by
  have slot : ((st.push head).slotAt (i + 1)).val = (st.slotAt i).val := by simp only [Stack.slotAt, Stack.push]; omega
  have top : ((st.push head).slotAt 0).val ≠ (st.slotAt i).val := by simp only [Stack.slotAt, Stack.push]; omega
  unfold Stack.at_
  simp only [slot]
  exact Vector.getElem_set_ne (hi := ((st.push head).slotAt 0).isLt) (st.slotAt i).isLt top

theorem lookup_eq_some {st : Stack} {head : List Nat} {d : Nat} (h : st.lookup head = some d) :
    d < 8 ∧ st.at_ d = some head :=
  ⟨List.mem_range.mp (List.mem_of_find?_eq_some h), by simpa using List.find?_some h⟩

theorem lookup_eq_none {st : Stack} {head : List Nat} (h : st.lookup head = none) {d : Nat} (hd : d < 8) :
    st.at_ d ≠ some head := by
  simpa using List.find?_eq_none.mp h d (List.mem_range.mpr hd)

/-! ## The law -/

/-- A value may stand before a later one: it is there where the later one is, and differs from it. -/
def mayPrecede {α : Type} (a b : Option α) : Prop := b.isSome → a.isSome ∧ a ≠ b

/-- A list whose values stand at its front and are distinct is one in which each may stand before the later ones. -/
theorem front_distinct_iff_pairwise {α : Type} (l : List (Option α)) :
    ((l.drop (l.takeWhile Option.isSome).length).all Option.isNone = true ∧ (l.takeWhile Option.isSome).Nodup)
      ↔ l.Pairwise mayPrecede := by
  induction l with
  | nil => simp
  | cons a l ih =>
    rw [List.pairwise_cons, ← ih]
    cases a with
    | none =>
      have gaps : (∀ b ∈ l, mayPrecede none b) ↔ l.all Option.isNone = true := by simp [mayPrecede]
      have stop (h : l.all Option.isNone = true) : l.takeWhile Option.isSome = [] := by
        cases l with
        | nil => rfl
        | cons b l => simp_all
      rw [gaps]
      exact ⟨fun h => by simpa [stop (by simpa using h)] using h, fun h => by simpa using h.1⟩
    | some x =>
      have parts : l.takeWhile Option.isSome ++ l.drop (l.takeWhile Option.isSome).length = l :=
        List.prefix_iff_eq_append.mp (List.takeWhile_prefix _)
      have new : (∀ b ∈ l, mayPrecede (some x) b) ↔ some x ∉ l :=
        ⟨fun h hm => (h _ hm rfl).2 rfl, fun h b hb _ => ⟨rfl, fun e => h (e ▸ hb)⟩⟩
      have front (h : (l.drop (l.takeWhile Option.isSome).length).all Option.isNone = true) :
          some x ∈ l ↔ some x ∈ l.takeWhile Option.isSome := by
        conv_lhs => rw [← parts]
        have gap : some x ∉ l.drop (l.takeWhile Option.isSome).length := fun hm => by simpa using List.all_eq_true.mp h _ hm
        simp [gap]
      rw [new]
      simp only [List.takeWhile_cons, Option.isSome_some, if_true, List.length_cons, List.drop_succ_cons, List.nodup_cons]
      exact ⟨fun ⟨h, hx, hn⟩ => ⟨(front h).not.mpr hx, h, hn⟩, fun ⟨hx, h, hn⟩ => ⟨h, (front h).not.mp hx, hn⟩⟩

/-- The law of R52, depth by depth: what stands deeper has a different head above it at every smaller depth. -/
theorem law_iff (st : Stack) : st.law = true ↔ ∀ i j, i < j → j < 8 → mayPrecede (st.at_ i) (st.at_ j) := by
  unfold Stack.law
  rw [Bool.and_eq_true, decide_eq_true_iff, front_distinct_iff_pairwise, List.pairwise_map, List.pairwise_iff_getElem]
  simp only [List.length_range, List.getElem_range]
  exact ⟨fun h i j hij hj => h i j (by omega) hj hij, fun h i j _ hj hij => h i j hij hj⟩

theorem empty_law : Stack.empty.law = true := by decide

theorem hit_law {st : Stack} (h : st.law = true) {d : Nat} (hd : d < 8) (hs : (st.at_ d).isSome) :
    (st.hit d).law = true := by
  rw [law_iff] at h ⊢
  intro i j hij hj
  rw [at_hit st (by omega) hd, at_hit st hj hd]
  have above : ∀ k, k < d → (st.at_ k).isSome ∧ st.at_ k ≠ st.at_ d := fun k hk => h k d hk hd hs
  split
  · -- the head that stood at depth 0 now stands at `d`, above `j`
    subst i
    simp only [show j ≠ d by omega, show j ≠ 0 by omega, if_false]
    exact h 0 j (by omega) hj
  · split
    · -- the head that was hit now stands at depth 0
      subst i
      split
      · exact fun _ => ⟨hs, (above 0 (by omega)).2.symm⟩
      · simp only [show j ≠ 0 by omega, if_false]
        rcases Nat.lt_or_ge j d with hjd | hjd
        · exact fun _ => ⟨hs, (above j hjd).2.symm⟩
        · exact h d j (by omega) hj
    · split
      · -- `d` took the head of depth 0, and `i` stands between the two
        have here := (above i (by omega)).1
        exact fun _ => ⟨here, (h 0 i (by omega) (by omega) here).2.symm⟩
      · simp only [show j ≠ 0 by omega, if_false]
        exact h i j hij hj

theorem push_law {st : Stack} (h : st.law = true) {head : List Nat} (hn : st.lookup head = none) :
    (st.push head).law = true := by
  rw [law_iff] at h ⊢
  intro i j hij hj
  obtain ⟨j, rfl⟩ : ∃ k, j = k + 1 := ⟨j - 1, by omega⟩
  rw [at_push_succ st head (by omega)]
  cases i with
  | zero =>
    rw [at_push_zero]
    exact fun _ => ⟨rfl, (lookup_eq_none hn (by omega)).symm⟩
  | succ i =>
    rw [at_push_succ st head (by omega)]
    exact h i j (by omega) (by omega)

theorem after_law {st : Stack} (h : st.law = true) (called : List Nat) : (st.after called).law = true := by
  unfold Stack.after
  split
  · exact h
  · split
    · rename_i i hl
      obtain ⟨hd, hs⟩ := lookup_eq_some hl
      exact hit_law h hd (by rw [hs]; rfl)
    · rename_i hl
      exact push_law h hl

end Sys2Proof.Machine
end

section
/-!
SUPPORT. The law of the predictor stacks, of an open segment and of a decode, job by job and buffer by buffer, and the writes
of the parts that hold them.
-/

namespace Sys2Proof.Machine

variable {s t : State}

/-! ## Contexts and decodes -/

theorem after_stack_law {c : Codec} (h : c.stack.law = true) (r : Rec) (n : Nat) : (c.after r n).stack.law = true :=
  after_law h r.called

theorem fresh_stack_law (base : Nat) (w : Three) : (Codec.fresh base w).stack.law = true := empty_law

/-- The law of the stack of a decode that goes on. -/
def DecodeStep.lawful : DecodeStep → Prop
  | .more d => d.codec.stack.law = true
  | _ => True

theorem decodeBetween_lawful (h : SegHeader) {d : Decode} (hd : d.codec.stack.law = true) : (decodeBetween h d).lawful := by
  unfold decodeBetween
  split
  · split <;> trivial
  · exact hd

theorem decodeStart0_lawful (h : SegHeader) (body : List Bool) : (decodeStart0 h body).lawful := by
  unfold decodeStart0
  split
  · exact decodeBetween_lawful h (fresh_stack_law _ _)
  · trivial

theorem decodeNext_law {h : SegHeader} {d d' : Decode} {r : Rec} (hd : d.codec.stack.law = true)
    (hn : decodeNext h d = some (r, d')) : d'.codec.stack.law = true := by
  unfold decodeNext at hn
  split at hn
  · cases hn; exact after_stack_law hd _ _
  · cases hn

/-! ## The law of a job and of a buffer -/

/-- The law of the stack that a segment's phase holds. -/
def SegPhase.lawful : SegPhase → Prop
  | .decoding _ d => d.codec.stack.law = true
  | _ => True

/-- The law of the stack that a job's segment holds. -/
def Job.lawful (j : Job) : Prop := ∀ g, j.seg = some g → g.phase.lawful

/-- The law of the stack that a staging buffer's open segment holds. -/
def BufState.lawful : BufState → Prop
  | .opened codec => codec.stack.law = true
  | _ => True

theorem phase_lawful_iff (p : SegPhase) : p.lawful ↔ ∀ h d, p = .decoding h d → d.codec.stack.law = true := by
  cases p <;> simp [SegPhase.lawful]

theorem bufState_lawful_iff (b : BufState) : b.lawful ↔ ∀ codec, b = .opened codec → codec.stack.law = true := by
  cases b <;> simp [BufState.lawful]

/-- A job without a segment holds no stack. -/
theorem lawful_of_no_seg {j : Job} (h : j.seg = none) : j.lawful := fun g hg => by rw [h] at hg; cases hg

theorem withSeg_lawful {j : Job} (hj : j.lawful) {g : SegJob} (hg : g.phase.lawful) : (j.withSeg g).lawful := by
  cases j with
  | retrieval r => exact fun k hk => by cases hk; exact hg
  | verify v => exact fun k hk => by cases hk; exact hg
  | _ => exact hj

/-- A retrieval that keeps another's segment holds that one's stack. -/
theorem retrieval_lawful {r q : Retrieval} (hr : (Job.retrieval r).lawful) (hq : q.current = r.current) :
    (Job.retrieval q).lawful := fun g hg => hr g (hq.symm.trans hg)

/-- The law of the machine's stacks, part by part. -/
theorem stacksLawful_iff : s.stacksLawful ↔ (∀ p ∈ s.stager.bufs, p.2.state.lawful)
    ∧ (∀ c j, s.job c = some j → j.lawful) ∧ ∀ g, s.audit.scrub = some g → g.phase.lawful := by
  simp only [bufState_lawful_iff, Job.lawful, phase_lawful_iff]
  refine ⟨fun ⟨hb, hj⟩ => ⟨fun p hp codec => hb p.1 p.2 codec hp, fun c j hc g hg h d => ?_, fun g hg h d => hj .scrub g h d hg⟩,
    fun ⟨hb, hj, ha⟩ => ⟨fun b v codec hm => hb (b, v) hm codec, fun r g h d hr => ?_⟩⟩
  · exact hj (.chain c) g h d (by rw [State.segJob, hc]; exact hg)
  · cases r with
    | scrub => exact ha g hr h d
    | chain c =>
      obtain ⟨j, hc, hg⟩ := Option.bind_eq_some_iff.mp hr
      exact hj c j hc g hg h d

theorem bufs_lawful (h : s.stacksLawful) {b : Nat} {v : Staging} (hv : tget s.stager.bufs b = some v) : v.state.lawful :=
  (stacksLawful_iff.mp h).1 (b, v) (mem_of_tget hv)

theorem job_lawful (h : s.stacksLawful) {c : ChainRef} {j : Job} (hj : s.job c = some j) : j.lawful :=
  (stacksLawful_iff.mp h).2.1 c j hj

theorem segJob_lawful (h : s.stacksLawful) {r : JobRef} {g : SegJob} (hg : s.segJob r = some g) : g.phase.lawful :=
  (phase_lawful_iff _).mpr fun hd d hp => h.2 r g hd d hg hp

/-! ## Operations that leave the stacks -/

/-- The law is kept where every buffer, job and scrub is one that stood there or is lawful itself. -/
theorem stacks_of_parts (h : s.stacksLawful) (hb : ∀ p ∈ t.stager.bufs, p ∈ s.stager.bufs ∨ p.2.state.lawful)
    (hj : ∀ c j, t.job c = some j → s.job c = some j ∨ j.lawful)
    (ha : ∀ g, t.audit.scrub = some g → s.audit.scrub = some g ∨ g.phase.lawful) : t.stacksLawful := by
  obtain ⟨bufs, jobs, scrub⟩ := stacksLawful_iff.mp h
  exact stacksLawful_iff.mpr ⟨fun p hp => (hb p hp).elim (bufs p) id, fun c j hc => (hj c j hc).elim (jobs c j) id,
    fun g hg => (ha g hg).elim (scrub g) id⟩

/-- The parts of the state in which no stack stands. -/
def stacklessParts : List Part :=
  [.pending, .out, .power, .straps, .settings, .flash, .streams, .files, .recons, .store, .catalogue, .clock, .retention,
    .scanner, .journal, .arbiter, .boot]

/-- An operation on those parts, and on the ports without a change to a chain, keeps the law. -/
theorem stacks_of_chains {l : List Part} (h : s.stacksLawful) (hf : s.sameBut l t)
    (hl : l.all (fun p => (Part.ports :: stacklessParts).contains p) = true) (hc : ∀ c, t.chain c = s.chain c) :
    t.stacksLawful := by
  have hq := sameBut_mono hf hl
  exact stacks_of_parts h (fun p hp => .inl (by rwa [hq.stager (by decide)] at hp))
    (fun c j hj => .inl (by rwa [job_of_chain (hc c)] at hj)) (fun g hg => .inl (by rwa [hq.audit (by decide)] at hg))

theorem stacks_of_frame {l : List Part} (h : s.stacksLawful) (hf : s.sameBut l t)
    (hl : l.all (fun p => stacklessParts.contains p) = true) : t.stacksLawful := by
  have hq := sameBut_mono hf hl
  exact stacks_of_chains h hq (by decide) (chain_of_ports (hq.ports (by decide)))

theorem stacks_ite {u : State} {c : Prop} [Decidable c] (h : t.stacksLawful) (k : u.stacksLawful) :
    (if c then t else u).stacksLawful := by
  split
  · exact h
  · exact k

theorem stacks_foldl {α : Type} {f : State → α → State} (hf : ∀ (s : State) a, s.stacksLawful → (f s a).stacksLawful)
    (h : s.stacksLawful) (xs : List α) : (xs.foldl f s).stacksLawful :=
  List.foldlRecOn (motive := State.stacksLawful) xs f h fun s hs a _ => hf s a hs

/-! ## The parts with stacks written -/

theorem setAudit_stacks (h : s.stacksLawful) {v : Audit} (hv : ∀ g, v.scrub = some g → s.audit.scrub = some g ∨ g.phase.lawful) :
    (s.setAudit v).stacksLawful := stacks_of_parts h (fun _ => .inl) (fun _ _ => .inl) hv

theorem setStager_stacks (h : s.stacksLawful) {v : Stager} (hv : v.bufs = s.stager.bufs) : (s.setStager v).stacksLawful :=
  stacks_of_parts h (fun _ hp => .inl (hv ▸ hp)) (fun _ _ => .inl) (fun _ => .inl)

theorem setBuf_stacks (h : s.stacksLawful) (b : Nat) {v : Staging} (hv : v.state.lawful) : (s.setBuf b v).stacksLawful :=
  stacks_of_parts h (fun _ hp => (mem_tput hp).elim (fun e => .inr (e ▸ hv)) .inl) (fun _ _ => .inl) (fun _ => .inl)

theorem freeBuf_stacks (h : s.stacksLawful) (b : Nat) : (s.freeBuf b).stacksLawful :=
  stacks_of_parts h (fun _ hp => .inl (mem_of_mem_tdel hp)) (fun _ _ => .inl) (fun _ => .inl)

/-- A chain changed keeps the law where its job is the one it had or is lawful itself. -/
theorem modChain_stacks (h : s.stacksLawful) (c : ChainRef) {f : Chain → Chain}
    (hf : ∀ j, (f (s.chain c)).desc.bind Desc.job = some j → s.job c = some j ∨ j.lawful) : (s.modChain c f).stacksLawful := by
  refine stacks_of_parts h (fun _ => .inl) (fun d j hj => ?_) (fun _ => .inl)
  unfold State.job at hj
  rw [chain_modChain] at hj
  split at hj
  · rename_i e; exact e ▸ hf j hj
  · exact .inl hj

theorem setJob_stacks (h : s.stacksLawful) (c : ChainRef) {j : Job} (hj : j.lawful) : (s.setJob c j).stacksLawful :=
  modChain_stacks h c fun k hk => by
    dsimp only at hk
    cases hd : (s.chain c).desc with
    | none => rw [hd] at hk; cases hk
    | some d => rw [hd] at hk; cases hk; exact .inr hj

theorem setChainState_stacks (h : s.stacksLawful) (c : ChainRef) (st : ChainState) : (s.setChainState c st).stacksLawful :=
  modChain_stacks h c fun _ => .inl

/-- A chain that ends holds no job. -/
theorem idled_stacks (h : s.stacksLawful) (c : ChainRef) {f : Chain → Chain} (hf : (f (s.chain c)).desc = none) :
    (s.modChain c f).stacksLawful := modChain_stacks h c fun j hj => by rw [hf] at hj; cases hj

/-- A port changed, but none of its chains. -/
theorem modPort_stacks (h : s.stacksLawful) (p : PortId) {f : Port → Port} (hf : (f (s.port p)).chains = (s.port p).chains) :
    (s.modPort p f).stacksLawful :=
  stacks_of_chains h (modPort_frame s p f) (by decide) fun c => by
    unfold State.chain
    rw [port_modPort]
    split
    · rename_i e; simp only [e, hf]
    · rfl

end Sys2Proof.Machine
end

section
/-!
SUPPORT. The law of the predictor stacks through the shared operations on chains, files, buffers, appends and records.
-/

namespace Sys2Proof.Machine

variable {s t : State}

/-! ## The parts without a stack written whole -/

theorem setSettings_stacks (h : s.stacksLawful) (v : Settings) : (s.setSettings v).stacksLawful := h

theorem setFlash_stacks (h : s.stacksLawful) (v : Flash) : (s.setFlash v).stacksLawful := h

theorem setStreams_stacks (h : s.stacksLawful) (v : Table Stream) : (s.setStreams v).stacksLawful := h

theorem setFiles_stacks (h : s.stacksLawful) (v : Table FileEntry) : (s.setFiles v).stacksLawful := h

theorem setRecons_stacks (h : s.stacksLawful) (v : Table Recon) : (s.setRecons v).stacksLawful := h

theorem setStore_stacks (h : s.stacksLawful) (v : Store) : (s.setStore v).stacksLawful := h

theorem setCatalogue_stacks (h : s.stacksLawful) (v : Table Entry) : (s.setCatalogue v).stacksLawful := h

theorem setClock_stacks (h : s.stacksLawful) (v : Clock) : (s.setClock v).stacksLawful := h

theorem setRetention_stacks (h : s.stacksLawful) (v : Retention) : (s.setRetention v).stacksLawful := h

theorem setScanner_stacks (h : s.stacksLawful) (v : Scanner) : (s.setScanner v).stacksLawful := h

theorem setJournal_stacks (h : s.stacksLawful) (v : Journal) : (s.setJournal v).stacksLawful := h

theorem setArbiter_stacks (h : s.stacksLawful) (v : Arbiter) : (s.setArbiter v).stacksLawful := h

theorem setBoot_stacks (h : s.stacksLawful) (v : Boot) : (s.setBoot v).stacksLawful := h

/-! ## Notices, entries, queues and the Journal -/

theorem emit_stacks (h : s.stacksLawful) (o : Output) : (s.emit o).stacksLawful := h

theorem modStream_stacks (h : s.stacksLawful) (k : Nat) (f : Stream → Stream) : (s.modStream k f).stacksLawful := h

theorem modFile_stacks (h : s.stacksLawful) (k : Nat) (f : FileEntry → FileEntry) : (s.modFile k f).stacksLawful := h

theorem popQueue_stacks (h : s.stacksLawful) (ch : Channel) : (s.popQueue ch).stacksLawful := h

theorem notice_stacks (h : s.stacksLawful) (p : PortId) (k : NoticeKind) (o : NoticeObject) :
    (s.notice p k o).stacksLawful := stacks_of_chains h (notice_frame s p k o) (by decide) (chain_notice s p k o)

theorem noticeAll_stacks (h : s.stacksLawful) (k : NoticeKind) (o : NoticeObject) : (s.noticeAll k o).stacksLawful :=
  stacks_of_chains h (noticeAll_frame s k o) (by decide) (chain_noticeAll s k o)

theorem setEntry_stacks (h : s.stacksLawful) (x : Nat) (e : Entry) : (s.setEntry x e).stacksLawful :=
  stacks_of_frame h (setEntry_frame s x e) (by decide)

theorem modEntry_stacks (h : s.stacksLawful) (x : Nat) (f : Entry → Entry) : (s.modEntry x f).stacksLawful :=
  setEntry_stacks h x _

theorem request_stacks (h : s.stacksLawful) (ch : Channel) (op : StoreOp) : (s.request ch op).stacksLawful :=
  stacks_of_frame h (request_frame s ch op) (by decide)

theorem decideLow_stacks (h : s.stacksLawful) : s.decideLow.stacksLawful :=
  stacks_of_chains h (decideLow_frame s) (by decide) (decideLow_chain s)

theorem appendRaw_stacks (h : s.stacksLawful) (body : JBody) : (s.appendRaw body).stacksLawful :=
  stacks_of_frame h (appendRaw_frame s body) (by decide)

theorem append_stacks (h : s.stacksLawful) (body : JBody) : (s.append body).stacksLawful :=
  decideLow_stacks (appendRaw_stacks h body)

theorem reserveWait_stacks (h : s.stacksLawful) : s.reserveWait.stacksLawful :=
  stacks_of_frame h (reserveWait_frame s) (by decide)

theorem nextAppend_stacks (h : s.stacksLawful) : s.nextAppend.stacksLawful := decideLow_stacks (reserveWait_stacks h)

theorem joinAppend_stacks (h : s.stacksLawful) (r : AppendReq) : (s.joinAppend r).stacksLawful :=
  decideLow_stacks (reserveWait_stacks (setJournal_stacks h _))

theorem leaveAppend_stacks (h : s.stacksLawful) (c : ChainRef) : (s.leaveAppend c).stacksLawful := by
  unfold State.leaveAppend
  dsimp only
  split
  · exact h
  · exact decideLow_stacks (reserveWait_stacks (setJournal_stacks h _))

/-! ## Chains and completions -/

theorem settleDrain_stacks (h : s.stacksLawful) (p : PortId) : (s.settleDrain p).stacksLawful :=
  stacks_of_chains h (settleDrain_frame s p) (by decide) (chain_settleDrain s p)

theorem idleChain_stacks (h : s.stacksLawful) (c : ChainRef) : (s.idleChain c).stacksLawful :=
  settleDrain_stacks (idled_stacks h c rfl) _

theorem complete_stacks (h : s.stacksLawful) (c : ChainRef) (w : Completion) : (s.complete c w).stacksLawful := by
  unfold State.complete
  split
  · exact h
  · rename_i d _
    have posted := emit_stacks h (.completion c.port (d.addr + 32) w)
    have noticed := stacks_ite (c := d.notify = true) (notice_stacks posted c.port .descriptorDone (.chain c.chain d.addr)) posted
    have idled := idleChain_stacks noticed c
    have told : ∀ {u : State}, u.stacksLawful → (if w.status = .fetchTimeout then
        u.notice c.port .fetchTimeout (.chain c.chain d.addr) else u).stacksLawful := fun hu =>
      stacks_ite (notice_stacks hu _ _ _) hu
    exact told (stacks_ite (notice_stacks (idleChain_stacks noticed c) _ _ _)
      (stacks_ite (idleChain_stacks noticed c) (idled_stacks noticed c rfl)))

theorem refuse_stacks (h : s.stacksLawful) (a : At) (st : Status) : (s.refuse a st).stacksLawful := complete_stacks h _ _

theorem done_stacks (h : s.stacksLawful) (a : At) (r : Results) : (s.done a r).stacksLawful := complete_stacks h _ _

theorem freeLane_stacks (h : s.stacksLawful) (r : JobRef) : (s.freeLane r).stacksLawful := h

theorem leaveArbiter_stacks (h : s.stacksLawful) (c : ChainRef) : (s.leaveArbiter c).stacksLawful := h

theorem leaveStore_stacks (h : s.stacksLawful) (r : JobRef) : (s.leaveStore r).stacksLawful := h

theorem waitForLane_stacks (h : s.stacksLawful) (c : ChainRef) : (s.waitForLane c).stacksLawful := by
  unfold State.waitForLane
  exact setChainState_stacks (setArbiter_stacks (stacks_ite (modPort_stacks h _ rfl) h) _) _ _

theorem leaveFeed_stacks (h : s.stacksLawful) (c : ChainRef) : (s.leaveFeed c).stacksLawful := by
  unfold State.leaveFeed
  exact leaveAppend_stacks (setStager_stacks (leaveArbiter_stacks (freeLane_stacks h _) c) (by rfl)) c

theorem endFeed_stacks (h : s.stacksLawful) (c : ChainRef) (st : Status) (b : Bool) : (s.endFeed c st b).stacksLawful := by
  unfold State.endFeed
  split
  · exact complete_stacks (leaveFeed_stacks h c) _ _
  · exact h

theorem endFeedOf_stacks (h : s.stacksLawful) (k : Nat) (st : Status) : (s.endFeedOf k st).stacksLawful := by
  unfold State.endFeedOf
  split
  · exact endFeed_stacks h _ _ _
  · exact h

/-! ## Descriptors and cell commands -/

theorem descriptor_stacks (h : s.stacksLawful) (a : At) (role : Role) {effect : State → State}
    (he : ∀ {u : State}, u.stacksLawful → (effect u).stacksLawful) : (s.descriptor a role effect).stacksLawful := by
  unfold State.descriptor
  have held := modChain_stacks h (refOf a) (f := fun h => { h with
    next := h.next + 64,
    desc := some { addr := h.next, notify := a.notify, haltOnError := a.haltOnError, job := none } }) fun j hj => by cases hj
  exact stacks_ite (stacks_ite (he held) (complete_stacks held _ _)) h

theorem bufferDescriptor_stacks (h : s.stacksLawful) (a : At) (buf : Buf) (role : Role) {effect : State → State}
    (he : ∀ {u : State}, u.stacksLawful → (effect u).stacksLawful) :
    (s.bufferDescriptor a buf role effect).stacksLawful :=
  descriptor_stacks h a role fun hu => stacks_ite (complete_stacks hu _ _) (he hu)

theorem cellCommand_stacks (h : s.stacksLawful) (p : PortId) (word : CellWord) (test : Port → Option CellResult)
    {effect : State → State} (he : ∀ {u : State}, u.stacksLawful → (effect u).stacksLawful) :
    (s.cellCommand p word test effect).stacksLawful := by
  unfold State.cellCommand
  refine stacks_ite h ?_
  dsimp only
  have written := modPort_stacks h p (f := fun q => { q with cell0 := word, cellCount := (q.cellCount + 1) % 256 }) rfl
  split
  · exact modPort_stacks written _ rfl
  · exact he (modPort_stacks written _ rfl)

/-! ## Sealing, closing and appends with an effect -/

theorem joinSeals_stacks (h : s.stacksLawful) (b : Nat) : (s.joinSeals b).stacksLawful :=
  setStore_stacks (setStager_stacks h (by rfl)) _

theorem handOff_stacks (h : s.stacksLawful) (k : Nat) : (s.handOff k).stacksLawful := by
  unfold State.handOff
  split
  · split
    · split
      · split
        · refine modFile_stacks (joinSeals_stacks (setSettings_stacks (setBuf_stacks (modStream_stacks h _ _) _ ?_) _) _) _ _
          trivial
        · exact h
      · exact h
    · exact h
  · exact h

theorem freeFailed_stacks (h : s.stacksLawful) (k : Nat) : (s.freeFailed k).stacksLawful := by
  unfold State.freeFailed
  split
  · dsimp only
    exact stacks_ite h (setSettings_stacks (modFile_stacks (stacks_foldl (fun _ p hs => freeBuf_stacks hs p.1) h _) _ _) _)
  · exact h

theorem raiseStore_stacks (h : s.stacksLawful) (k : Nat) : (s.raiseStore k).stacksLawful := by
  unfold State.raiseStore
  split
  · split
    · split
      · have halted := fun f g => modFile_stacks (modStream_stacks h k f) ‹Nat› g
        exact endFeedOf_stacks (stacks_ite (notice_stacks (halted _ _) _ _ _) (halted _ _)) _ _
      · exact h
    · exact h
  · exact h

theorem closeFile_stacks (h : s.stacksLawful) (k : Nat) : (s.closeFile k).stacksLawful := by
  unfold State.closeFile
  split
  · dsimp only
    refine stacks_foldl (fun s c hs => ?_)
      (modStream_stacks (setRecons_stacks (setFiles_stacks (notice_stacks h _ _ _) _) _) _ _) allChains
    split
    · exact stacks_ite (setJob_stacks hs _ (lawful_of_no_seg rfl)) hs
    · exact hs
  · exact h

theorem applyNote_stacks (h : s.stacksLawful) (note : AppendNote) (n : Nat) : (s.applyNote note n).stacksLawful := by
  unfold State.applyNote
  split
  · exact h
  · exact modEntry_stacks h _ _
  · exact joinSeals_stacks h _
  · split
    · split
      · refine raiseStore_stacks (setBuf_stacks h _ ?_) _
        trivial
      · exact h
    · exact h
  · exact closeFile_stacks h _
  · exact modEntry_stacks h _ _

theorem appendWith_stacks (h : s.stacksLawful) (body : JBody) (note : AppendNote) : (s.appendWith body note).stacksLawful :=
  decideLow_stacks (applyNote_stacks (appendRaw_stacks h body) note _)

theorem ask_stacks (h : s.stacksLawful) (body : JBody) (note : AppendNote) : (s.ask body note).stacksLawful :=
  stacks_ite (appendWith_stacks h body note) (joinAppend_stacks h _)

theorem handOver_stacks (h : s.stacksLawful) (k : Nat) : (s.handOver k).stacksLawful := by
  unfold State.handOver
  split
  · split
    · exact stacks_ite (ask_stacks (setRecons_stacks h _) _ _) h
    · exact h
  · exact h

/-! ## Policy commit -/

theorem commitPolicy_stacks (h : s.stacksLawful) (d : Nat) : (s.commitPolicy d).stacksLawful := by
  unfold State.commitPolicy
  have rows := stacks_foldl (f := State.commitClass)
    (fun s i hs => stacks_of_frame hs (commitClass_frame s i) (by decide)) h classes
  dsimp only
  exact stacks_of_frame (decideLow_stacks (setClock_stacks (setRetention_stacks rows _) _)) (signalScanner_frame _ d) (by decide)

theorem refreshCommit_stacks (h : s.stacksLawful) : s.refreshCommit.stacksLawful := by
  unfold State.refreshCommit
  exact stacks_ite (decideLow_stacks (reserveWait_stacks (setJournal_stacks h _))) h

theorem askCommit_stacks (h : s.stacksLawful) (d : Nat) : (s.askCommit d).stacksLawful := by
  unfold State.askCommit
  exact stacks_ite (refreshCommit_stacks (setClock_stacks h _))
    (stacks_ite (commitPolicy_stacks h d) (joinAppend_stacks (setClock_stacks h _) _))

/-! ## Taking a record -/

theorem setFeed_stacks (h : s.stacksLawful) (c : ChainRef) (f : Feed) : (s.setJob c (.feed f)).stacksLawful :=
  setJob_stacks h c (lawful_of_no_seg rfl)

theorem countTaking_stacks (h : s.stacksLawful) (c : ChainRef) (f : Feed) (how : Taken) (d u : Nat) (b : Bool) :
    (s.countTaking c f how d u b).stacksLawful := setFeed_stacks (modFile_stacks h _ _) c _

theorem openSegment_stacks (h : s.stacksLawful) (k n : Nat) : (s.openSegment k n).stacksLawful := by
  unfold State.openSegment
  split
  · split
    · exact setBuf_stacks (modStream_stacks h _ _) _ (fresh_stack_law _ _)
    · exact h
  · exact h

theorem appendRecord_stacks (h : s.stacksLawful) (k : Nat) (r : Rec) : (s.appendRecord k r).stacksLawful := by
  unfold State.appendRecord
  split
  · split
    · split
      · rename_i hv
        split
        · rename_i codec hc
          have stands : codec.stack.law = true := by have hl := bufs_lawful h hv; rwa [hc] at hl
          exact setBuf_stacks h _ (after_stack_law stands r _)
        · exact h
      · exact h
    · exact h
  · exact h

theorem takeMarked_stacks (h : s.stacksLawful) (c : ChainRef) (f : Feed) (w : WaitRec) :
    (s.takeMarked c f w).stacksLawful := by
  unfold State.takeMarked
  split
  · split
    · refine decideLow_stacks (countTaking_stacks ?_ c f _ _ _ _)
      have marked := fun k v (b : Drop → JBody) (l : List Drop) =>
        stacks_foldl (f := fun s d => s.appendRaw (b d)) (fun _ d hs => appendRaw_stacks hs (b d)) (modStream_stacks h k v) l
      split
      · exact appendRecord_stacks (stacks_ite (openSegment_stacks (marked _ _ _ _) _ _) (marked _ _ _ _)) _ _
      · exact marked _ _ _ _
    · exact h
  · exact h

theorem moveFeed_stacks (h : s.stacksLawful) (c : ChainRef) (n : Nat) : (s.moveFeed c n).stacksLawful := by
  unfold State.moveFeed
  split
  · have moved := fun f => setChainState_stacks (setFeed_stacks h c f) c .running
    exact stacks_ite (endFeed_stacks (moved _) _ _ _) (moved _)
  · exact h

theorem takeAndMove_stacks (h : s.stacksLawful) (c : ChainRef) (f : Feed) (w : WaitRec) :
    (s.takeAndMove c f w).stacksLawful := moveFeed_stacks (takeMarked_stacks h c f w) _ _

theorem joinBufferWait_stacks (h : s.stacksLawful) (c : ChainRef) : (s.joinBufferWait c).stacksLawful :=
  stacks_ite h (setStager_stacks h rfl)

theorem takeOrWait_stacks (h : s.stacksLawful) (c : ChainRef) (f : Feed) (w : WaitRec) :
    (s.takeOrWait c f w).stacksLawful := by
  unfold State.takeOrWait
  have waits := setChainState_stacks (setFeed_stacks h c { f with waiting := some w }) c .waiting
  have joined := stacks_ite (c := (!w.needsBuf || s.bufferOpen c) = true) waits (joinBufferWait_stacks waits c)
  exact stacks_ite (takeAndMove_stacks h c f w) (stacks_ite joined (joinAppend_stacks joined _))

end Sys2Proof.Machine
end

section
/-!
SUPPORT. The law of the predictor stacks through jobs, the Journal's pages, the arbiter and start-up.
-/

namespace Sys2Proof.Machine

variable {s t : State}

/-! ## Segments under read and decode -/

theorem setPhase_stacks (h : s.stacksLawful) (r : JobRef) {p : SegPhase} (hp : p.lawful) : (s.setPhase r p).stacksLawful := by
  unfold State.setPhase
  split
  · rename_i g _
    cases r with
    | scrub => exact setAudit_stacks h fun k hk => .inr (by cases hk; exact hp)
    | chain c =>
      unfold State.setSegJob
      dsimp only
      split
      · rename_i hj; exact setJob_stacks h c (withSeg_lawful (job_lawful h hj) hp)
      · exact h
  · exact h

theorem jobState_stacks (h : s.stacksLawful) (r : JobRef) (st : ChainState) : (s.jobState r st).stacksLawful := by
  cases r
  · exact setChainState_stacks h _ _
  · exact h

theorem retire_stacks (h : s.stacksLawful) (x : Nat) (v : SegFields) : (s.retire x v).stacksLawful :=
  decideLow_stacks (setScanner_stacks (modEntry_stacks (appendRaw_stacks h _) x _) _)

theorem retest_stacks (h : s.stacksLawful) (x : Nat) : (s.retest x).stacksLawful := by
  unfold State.retest
  split
  · exact stacks_ite (stacks_ite (stacks_ite h (retire_stacks h _ _)) (modEntry_stacks h x _)) h
  · exact h

theorem releasePin_stacks (h : s.stacksLawful) (x : Nat) : (s.releasePin x).stacksLawful := by
  unfold State.releasePin
  split
  · exact setPhase_stacks (modEntry_stacks h x _) _ trivial
  · exact retest_stacks (modEntry_stacks h x _) x

theorem startRead_stacks (h : s.stacksLawful) (r : JobRef) (x : Nat) (b : Bool) : (s.startRead r x b).stacksLawful := by
  unfold State.startRead
  have asked := request_stacks h (channelOf x) (.segRead x (some r) b)
  exact stacks_ite (jobState_stacks (setPhase_stacks asked r (p := .reading) trivial) _ _)
    (jobState_stacks (setPhase_stacks asked r (p := .waitPlace) trivial) _ _)

theorem goOnPinned_stacks (h : s.stacksLawful) (c : ChainRef) (x : Nat) : (s.goOnPinned c x).stacksLawful := by
  unfold State.goOnPinned
  refine startRead_stacks ?_ _ _ _
  split
  · rename_i hj
    exact stacks_ite (setJob_stacks h c (retrieval_lawful (job_lawful h hj) (by rfl))) h
  · exact h

theorem askPin_stacks (h : s.stacksLawful) (c : ChainRef) (x : Nat) : (s.askPin c x).stacksLawful := by
  unfold State.askPin
  exact stacks_ite (goOnPinned_stacks (modEntry_stacks h x _) c x)
    (setChainState_stacks (setPhase_stacks (modEntry_stacks h x _) _ (p := .waitPin) trivial) _ _)

theorem dropSeg_stacks (h : s.stacksLawful) (r : JobRef) : (s.dropSeg r).stacksLawful := by
  unfold State.dropSeg
  split
  · have left := leaveStore_stacks (freeLane_stacks h r) r
    have gone : (match r with
        | .chain c => ((s.freeLane r).leaveStore r).leaveArbiter c
        | .scrub => ((s.freeLane r).leaveStore r).setArbiter
            { ((s.freeLane r).leaveStore r).arbiter with scrubWaits := false }).stacksLawful := by
      cases r
      · exact leaveArbiter_stacks left _
      · exact setArbiter_stacks left _
    dsimp only
    split
    · exact modEntry_stacks gone _ _
    · exact releasePin_stacks (modEntry_stacks gone _ _) _
  · exact h

/-- A retrieval that reaches a segment has not begun to decode it. -/
theorem reached_lawful {r : Retrieval} {x serial : Nat} (h : r.current = some ⟨x, serial, .pinned⟩) :
    (Job.retrieval r).lawful := fun g hg => by cases h.symm.trans hg; trivial

/-- A retrieval between two segments holds no stack. -/
theorem between_lawful {r : Retrieval} (h : r.current = none) : (Job.retrieval r).lawful := lawful_of_no_seg h

theorem search_stacks (h : s.stacksLawful) (c : ChainRef) : (s.search c).stacksLawful := by
  unfold State.search
  split
  · dsimp only
    split
    · exact askPin_stacks (setJob_stacks h _ (reached_lawful (by rfl))) _ _
    · exact complete_stacks h _ _
  · exact h

theorem cursorTest_stacks (h : s.stacksLawful) (c : ChainRef) (cur : Cursor) : (s.cursorTest c cur).stacksLawful := by
  unfold State.cursorTest
  split
  · rename_i r hj
    have kept : ∀ {q : Retrieval}, q.current = r.current → (s.setJob c (.retrieval q)).stacksLawful := fun hq =>
      setJob_stacks h _ (retrieval_lawful (job_lawful h hj) hq)
    dsimp only
    split
    · exact stacks_ite (stacks_ite (askPin_stacks (setJob_stacks h _ (reached_lawful (by rfl))) _ _) (search_stacks h c))
        (search_stacks (kept (by rfl)) c)
    · exact search_stacks (kept (by rfl)) c
  · exact h

theorem deliver_stacks (h : s.stacksLawful) (c : ChainRef) {r : Retrieval} (hr : (Job.retrieval r).lawful) (g : SegJob)
    (i : Nat) (x : Rec) : (s.deliver c r g i x).1.stacksLawful := by
  unfold State.deliver
  split
  · exact h
  · have placed : ∀ (o : Output) {q : Retrieval}, q.current = r.current → ((s.emit o).setJob c (.retrieval q)).stacksLawful :=
      fun o _ hq => setJob_stacks (emit_stacks h o) c (retrieval_lawful hr hq)
    dsimp only
    split
    · exact complete_stacks (dropSeg_stacks (placed _ (by rfl)) _) _ _
    · exact placed _ (by rfl)

theorem quarantine_stacks (h : s.stacksLawful) (x source serial : Nat) (finder : Finder) (v : Verdict)
    (port : Option PortId) : (s.quarantine x source serial finder v port).stacksLawful :=
  noticeAll_stacks (ask_stacks (modEntry_stacks h x _) _ _) _ _

theorem applyVerdict_stacks (h : s.stacksLawful) (x : Nat) (finder : Finder) (port : Option PortId) (b : Bool)
    (v : Verdict) : (s.applyVerdict x finder port b v).stacksLawful := by
  unfold State.applyVerdict
  have noted := modEntry_stacks h x (fun e => { e with verify := some (s.today, v.passes) })
  dsimp only
  split
  · exact stacks_ite (stacks_ite (ask_stacks (modEntry_stacks noted x _) _ _) (stacks_ite (ask_stacks noted _ _) noted))
      (stacks_ite noted (quarantine_stacks noted _ _ _ _ _ _))
  · exact noted

/-- The Audit Unit with the scrub on no segment. -/
theorem idleAudit_stacks (h : s.stacksLawful) {v : Audit} (hv : v.scrub = none) : (s.setAudit v).stacksLawful :=
  setAudit_stacks h fun g hg => by rw [hv] at hg; cases hg

/-- The Audit Unit with the scrub where it was. -/
theorem sameScrub_stacks (h : s.stacksLawful) {v : Audit} (hv : v.scrub = s.audit.scrub) : (s.setAudit v).stacksLawful :=
  setAudit_stacks h fun _ hg => .inl (hv ▸ hg)

theorem scrubDone_stacks (h : s.stacksLawful) (f : PassCounts → PassCounts) : (s.scrubDone f).stacksLawful := by
  unfold State.scrubDone
  exact stacks_ite (ask_stacks (idleAudit_stacks h (by rfl)) _ _) (idleAudit_stacks h (by rfl))

theorem retrievalSegEnd_stacks (h : s.stacksLawful) (c : ChainRef) (r : Retrieval) (g : SegJob) (e : SegEnd) :
    (s.retrievalSegEnd c r g e).stacksLawful := by
  unfold State.retrievalSegEnd
  have left := dropSeg_stacks h (.chain c)
  dsimp only
  split
  · exact search_stacks (setJob_stacks left _ (between_lawful (by rfl))) c
  · exact search_stacks (setJob_stacks (sameScrub_stacks left (by rfl)) _ (between_lawful (by rfl))) c

theorem verifySegEnd_stacks (h : s.stacksLawful) (c : ChainRef) (v : Verify) (e : SegEnd) :
    (s.verifySegEnd c v e).stacksLawful := by
  unfold State.verifySegEnd
  dsimp only
  split
  · exact complete_stacks (dropSeg_stacks (applyVerdict_stacks h _ _ _ _ _) _) _ _
  · exact h

theorem scrubSegEnd_stacks (h : s.stacksLawful) (g : SegJob) (e : SegEnd) : (s.scrubSegEnd g e).stacksLawful := by
  unfold State.scrubSegEnd
  split
  · exact scrubDone_stacks (dropSeg_stacks (applyVerdict_stacks h _ _ _ _ _) _) _
  · exact h

theorem segEnded_stacks (h : s.stacksLawful) (r : JobRef) (e : SegEnd) : (s.segEnded r e).stacksLawful := by
  unfold State.segEnded
  split
  · split
    · split
      · exact retrievalSegEnd_stacks h _ _ _ _
      · exact h
    · exact verifySegEnd_stacks h _ _ _
    · exact h
  · split
    · exact scrubSegEnd_stacks h _ _
    · exact h

theorem decodeStands_stacks (h : s.stacksLawful) (r : JobRef) (hd : SegHeader) {d : DecodeStep} (hl : d.lawful) :
    (s.decodeStands r hd d).stacksLawful := by
  unfold State.decodeStands
  split
  · exact setPhase_stacks h _ hl
  · exact segEnded_stacks h _ _
  · exact segEnded_stacks h _ _

theorem walkOn_stacks (h : s.stacksLawful) (c : ChainRef) (w : CatalogueRead) : (s.walkOn c w).stacksLawful := by
  unfold State.walkOn
  have shown : ∀ (b : Bool) (o : Output), (if b then s.emit o else s).stacksLawful := fun _ o =>
    stacks_ite (emit_stacks h o) h
  exact stacks_ite (complete_stacks (shown _ _) _ _) (stacks_ite (complete_stacks (shown _ _) _ _)
    (setJob_stacks (shown _ _) _ (lawful_of_no_seg rfl)))

theorem tick_stacks (h : s.stacksLawful) : s.tick.stacksLawful := by
  unfold State.tick
  split
  · split
    · exact walkOn_stacks h _ _
    · exact h
  · exact h

/-! ## The Journal's pages -/

theorem tellFile_stacks (h : s.stacksLawful) (v : SegFields) : (s.tellFile v).stacksLawful := by
  unfold State.tellFile
  split
  · exact handOver_stacks (modFile_stacks h _ _) _
  · exact h

theorem sealDurable_stacks (h : s.stacksLawful) (x n : Nat) (b : Bool) : (s.sealDurable x n b).stacksLawful := by
  unfold State.sealDurable
  split
  · rename_i v _
    have sealed := stacks_of_frame (modEntry_stacks h x
      (fun e => { e with state := .sealed, sealJournal := none, holds := s.coverCount v })) (recomputeL_frame _) (by decide)
    exact stacks_ite (stacks_ite (tellFile_stacks sealed v) sealed) h
  · exact h

theorem reportDurable_stacks (h : s.stacksLawful) (e : JEntry) : (s.reportDurable e).stacksLawful := by
  unfold State.reportDurable
  have retired := fun x n => stacks_of_frame h (retireDurable_frame s x n) (by decide)
  split
  · exact sealDurable_stacks h _ _ _
  · exact sealDurable_stacks h _ _ _
  · exact retired _ _
  · exact retired _ _
  · exact h

theorem pageWritten_stacks (h : s.stacksLawful) (i : Fin 2) : (s.pageWritten i).stacksLawful := by
  unfold State.pageWritten
  dsimp only
  refine decideLow_stacks (reserveWait_stacks (stacks_foldl (fun _ e hs => reportDurable_stacks hs e) ?_ _))
  refine stacks_of_frame ?_ (pumpPages_frame 6 _) (by decide)
  refine stacks_of_frame ?_ (startPageWrite_frame _) (by decide)
  refine stacks_of_frame ?_ (advanceWrite_frame _) (by decide)
  exact setJournal_stacks (setFlash_stacks h _) _

theorem readPage_stacks (h : s.stacksLawful) (c : ChainRef) (j : JournalRead) (slot : Nat) (b : Bool) :
    (s.readPage c j slot b).stacksLawful :=
  setChainState_stacks (request_stacks (setJob_stacks h c (lawful_of_no_seg rfl)) _ _) c _

theorem readOn_stacks (h : s.stacksLawful) (n : Nat) (c : ChainRef) (j : JournalRead)
    (page : Option (Nat × List StoredEntry)) : (State.readOn n s c j page).stacksLawful := by
  induction n generalizing s j with
  | zero => exact h
  | succ n ih =>
    unfold State.readOn
    refine stacks_ite (complete_stacks h _ _) (stacks_ite (complete_stacks h _ _) ?_)
    dsimp only
    split
    · exact ih (emit_stacks h _) _
    · exact stacks_ite (ih (emit_stacks h _) _) (readPage_stacks h _ _ _ _)
    · exact readPage_stacks h _ _ _ _

theorem popAppend_stacks (h : s.stacksLawful) : s.popAppend.stacksLawful := setJournal_stacks h _

theorem serveRecord_stacks (h : s.stacksLawful) (c : ChainRef) : (s.serveRecord c).stacksLawful := by
  unfold State.serveRecord
  split
  · split
    · exact stacks_ite (nextAppend_stacks (joinBufferWait_stacks h c))
        (nextAppend_stacks (takeAndMove_stacks (popAppend_stacks (setStager_stacks h (by rfl))) _ _ _))
    · exact h
  · exact h

theorem serveAppend_stacks (h : s.stacksLawful) : s.serveAppend.stacksLawful := by
  unfold State.serveAppend
  split
  · refine stacks_ite ?_ h
    split
    · exact nextAppend_stacks (appendWith_stacks (popAppend_stacks h) _ _)
    · exact serveRecord_stacks h _
    · exact nextAppend_stacks (commitPolicy_stacks (popAppend_stacks h) _)
  · exact h

/-! ## The end of a chain, and the Service Arbiter -/

theorem stopJob_stacks (h : s.stacksLawful) (c : ChainRef) : (s.stopJob c).stacksLawful := by
  unfold State.stopJob
  split
  · exact endFeed_stacks h _ _ _
  · exact complete_stacks (dropSeg_stacks h _) _ _
  · exact complete_stacks (dropSeg_stacks h _) _ _
  · exact complete_stacks (leaveStore_stacks h _) _ _
  · exact complete_stacks h _ _
  · exact complete_stacks h _ _

theorem resetJob_stacks (h : s.stacksLawful) (c : ChainRef) : (s.resetJob c).stacksLawful := by
  unfold State.resetJob
  dsimp only
  refine idled_stacks ?_ c rfl
  split
  · exact leaveFeed_stacks h c
  · exact dropSeg_stacks h _
  · exact dropSeg_stacks h _
  · exact leaveStore_stacks h _
  · exact h
  · exact h

theorem fetchFails_stacks (h : s.stacksLawful) (c : ChainRef) : (s.fetchFails c).stacksLawful := by
  unfold State.fetchFails
  exact stacks_ite (notice_stacks (idleChain_stacks h c) _ _ _) h

theorem bufferReadFails_stacks (h : s.stacksLawful) (c : ChainRef) : (s.bufferReadFails c).stacksLawful := by
  unfold State.bufferReadFails
  split
  · exact stacks_ite (endFeed_stacks h _ _ _) h
  · exact complete_stacks (dropSeg_stacks h _) _ _
  · exact h

theorem afterReset_chains (q : Port) (g : Nat) : (q.afterReset g).chains = q.chains := rfl

theorem portReset_stacks (h : s.stacksLawful) (p : PortId) : (s.portReset p).stacksLawful := by
  unfold State.portReset
  dsimp only
  refine setFiles_stacks (modPort_stacks ?_ p (afterReset_chains _ _)) _
  exact stacks_foldl (f := fun s c => s.resetJob ⟨p, c⟩) (fun _ c hs => resetJob_stacks hs ⟨p, c⟩) (modPort_stacks h p (by rfl)) four

theorem decodeGranted_stacks (h : s.stacksLawful) (r : JobRef) : (s.decodeGranted r).stacksLawful := by
  unfold State.decodeGranted
  split
  · split
    · exact decodeStands_stacks (jobState_stacks h _ _) _ _ (decodeStart0_lawful _ _)
    · exact h
  · exact h

theorem granted_stacks (h : s.stacksLawful) (c : ChainRef) : (s.granted c).stacksLawful := by
  unfold State.granted
  split
  · unfold State.feedGranted
    exact stacks_ite (setChainState_stacks (setFeed_stacks h _ _) _ _) (endFeed_stacks h _ _ _)
  · exact decodeGranted_stacks h _

/-- A charge changes tags alone. -/
theorem charge_stacks (h : s.stacksLawful) (p : PortId) (n : Nat) : (s.charge p n).stacksLawful := by
  unfold State.charge
  have charged := modPort_stacks h p (f := fun q => { q with tag := q.tag + n * q.interval }) rfl
  have brought : ∀ {u : State}, u.stacksLawful →
      (u.setPorts (u.ports.map fun q => { q with tag := lowered q.tag })).stacksLawful := fun hu =>
    stacks_of_chains hu (setPorts_frame _ _) (by decide) fun c => by simp [State.chain, State.port]
  exact stacks_ite (setArbiter_stacks (brought charged) _) (setArbiter_stacks charged _)

theorem grantLane_stacks (h : s.stacksLawful) : s.grantLane.stacksLawful := by
  unfold State.grantLane
  split
  · split
    · exact granted_stacks (setArbiter_stacks (leaveArbiter_stacks (charge_stacks h _ _) _) _) _
    · exact stacks_ite (decodeGranted_stacks (setArbiter_stacks (setArbiter_stacks h _) _) _) h
  · exact h

/-! ## Start-up -/

theorem retireExtent_stacks (h : s.stacksLawful) (x : Nat) : (s.retireExtent x).stacksLawful :=
  setEntry_stacks (setSettings_stacks h _) x _

theorem restoredOne_stacks (h : s.stacksLawful) (id : SettingsId) : (s.restoredOne id).stacksLawful :=
  setBoot_stacks (setSettings_stacks h _) _

theorem restoreRow_stacks (h : s.stacksLawful) (i : Fin 8) : (s.restoreRow i).stacksLawful := by
  unfold State.restoreRow
  have put := fun n cause => ask_stacks (restoredOne_stacks (setSettings_stacks h
    { s.settings with rows := vset s.settings.rows i n }) (.row i)) (.policyRestored i.val n cause) .plain
  exact stacks_ite (put _ _) (stacks_ite (put _ _) h)

theorem scanJournal_stacks (h : s.stacksLawful) (pages : Table (List JEntry)) : (s.scanJournal pages).stacksLawful := by
  unfold State.scanJournal
  dsimp only
  refine stacks_foldl (fun s x hs => stacks_ite (stacks_of_frame hs (eraseJournal_frame s x) (by decide)) hs)
    (setJournal_stacks (setBoot_stacks ?_ _) _) four
  exact stacks_ite (restoredOne_stacks (setSettings_stacks h _) _) h

theorem scanSettings_stacks (h : s.stacksLawful) (pages : Table (List JEntry)) : (s.scanSettings pages).stacksLawful := by
  unfold State.scanSettings
  dsimp only
  refine setClock_stacks ?_ _
  have day := stacks_ite (c := s.settings.isDamaged .savedDay = true)
    (restoredOne_stacks (setSettings_stacks h { s.settings with savedDay := dayFromJournal (foundEntries pages) })
      .savedDay) h
  exact stacks_ite (restoredOne_stacks (setSettings_stacks day _) _) day

theorem nextHeader_stacks (h : s.stacksLawful) (ch : Channel) (x : Nat) : (s.nextHeader ch x).stacksLawful := by
  unfold State.nextHeader
  have next := fun y => setBoot_stacks h { s.boot with nextHeader := vset s.boot.nextHeader ch y }
  exact stacks_ite (request_stacks (next _) _ _) (next _)

theorem recoverSeal_stacks (h : s.stacksLawful) (p : Nat × SegHeader) : (s.recoverSeal p).stacksLawful :=
  ask_stacks (setBoot_stacks (setEntry_stacks h p.1 _) _) _ _

theorem eraseIncomplete_stacks (h : s.stacksLawful) (x : Nat) : (s.eraseIncomplete x).stacksLawful :=
  request_stacks (setBoot_stacks (setEntry_stacks h x _) _) _ _

theorem rebuildCounter_stacks (h : s.stacksLawful) (l : List JEntry) : (s.rebuildCounter l).stacksLawful := by
  unfold State.rebuildCounter
  exact stacks_ite (restoredOne_stacks (setSettings_stacks h _) _) h

theorem becomeReady_stacks (h : s.stacksLawful) : s.becomeReady.stacksLawful := by
  unfold State.becomeReady
  have ready := setClock_stacks (stacks_of_frame h (setPower_frame s .ready) (by decide))
  exact stacks_ite (noticeAll_stacks (ready _) _ _) (ready _)

theorem rebuildEnd_stacks (h : s.stacksLawful) : s.rebuildEnd.stacksLawful := by
  unfold State.rebuildEnd
  dsimp only
  refine becomeReady_stacks (ask_stacks (setSettings_stacks ?_ _) _ _)
  have counted : ∀ {u : State}, u.stacksLawful →
      (if u.settings.isDamaged .lastSeal then u.restoredOne .lastSeal else u).stacksLawful := fun hu =>
    stacks_ite (restoredOne_stacks hu _) hu
  refine counted (rebuildCounter_stacks ?_ _)
  refine stacks_foldl (fun _ x hs => eraseIncomplete_stacks hs x) (stacks_foldl (fun _ p hs => recoverSeal_stacks hs p) ?_ _) _
  exact stacks_foldl (fun _ p hs => setEntry_stacks hs p.1 _) h _

/-- The rebuild ends once every channel's headers are done. -/
theorem headersDone_stacks (h : s.stacksLawful) : (if s.boot.headersDone then s.rebuildEnd else s).stacksLawful :=
  stacks_ite (rebuildEnd_stacks h) h

theorem beginRebuild_stacks (h : s.stacksLawful) : s.beginRebuild.stacksLawful := by
  unfold State.beginRebuild
  dsimp only
  refine headersDone_stacks (stacks_foldl (fun _ ch hs => nextHeader_stacks hs ch _) ?_ four)
  exact stacks_foldl (fun _ x hs => setEntry_stacks hs x _) (setBoot_stacks h _) _

theorem scanEnd_stacks (h : s.stacksLawful) : s.scanEnd.stacksLawful := by
  unfold State.scanEnd
  dsimp only
  refine beginRebuild_stacks (setBoot_stacks (setRetention_stacks (setSettings_stacks ?_ _) _) _)
  refine stacks_foldl (fun _ i hs => restoreRow_stacks hs i) ?_ classes
  exact setJournal_stacks (scanSettings_stacks (scanJournal_stacks h _) _) _

theorem scanned_stacks (h : s.stacksLawful) (slot : Nat) (content : SlotContent) : (s.scanned slot content).stacksLawful := by
  unfold State.scanned
  dsimp only
  have noted : (match content with
      | .erased => s
      | .page entries => s.setBoot { s.boot with scanned := tput s.boot.scanned slot entries }).stacksLawful := by
    cases content
    · exact h
    · exact setBoot_stacks h _
  exact stacks_ite (request_stacks (setBoot_stacks noted _) _ _) (scanEnd_stacks noted)

end Sys2Proof.Machine
end

section
/-!
SUPPORT. The law of the predictor stacks through every command and every step (O55).
-/

namespace Sys2Proof.Machine

variable {s t : State}

/-! ## The descriptor commands -/

theorem writePlaces_stacks (h : s.stacksLawful) (p : PortId) (addr i : Nat) (l : List Place) :
    (s.writePlaces p addr i l).stacksLawful := by
  induction l generalizing s i with
  | nil => exact h
  | cons x l ih => exact ih (emit_stacks h _) _

theorem openStream_stacks (h : s.stacksLawful) (a : At) (source cls : Nat) (fill : Byte) (mask : BitVec 8) (first : Seq)
    (widths force : Three) (samples tolerance : Nat) :
    (s.openStream a source cls fill mask first widths force samples tolerance).stacksLawful := by
  unfold State.openStream
  refine stacks_ite (refuse_stacks h _ _) (stacks_ite (refuse_stacks h _ _) ?_)
  split
  · exact refuse_stacks h _ _
  · exact done_stacks (setStreams_stacks h _) _ _

theorem closeStream_stacks (h : s.stacksLawful) (a : At) (source : Nat) : (s.closeStream a source).stacksLawful := by
  unfold State.closeStream
  split
  · exact refuse_stacks h _ _
  · exact stacks_ite (refuse_stacks h _ _) (done_stacks (setStreams_stacks h _) _ _)

theorem snapshot_stacks (h : s.stacksLawful) (a : At) (buf : Buf) (source : Nat) : (s.snapshot a buf source).stacksLawful := by
  unfold State.snapshot
  refine stacks_ite (refuse_stacks h _ _) ?_
  split
  · exact refuse_stacks h _ _
  · exact complete_stacks (modStream_stacks (emit_stacks h _) _ _) _ _

theorem maskStream_stacks (h : s.stacksLawful) (a : At) (source : Nat) (mask : BitVec 8) (clear : Bool) :
    (s.maskStream a source mask clear).stacksLawful := by
  unfold State.maskStream
  split
  · exact refuse_stacks h _ _
  · exact done_stacks (modStream_stacks h _ _) _ _

theorem setWidths_stacks (h : s.stacksLawful) (a : At) (source : Nat) (force : Three) (tolerance : Nat) :
    (s.setWidths a source force tolerance).stacksLawful := by
  unfold State.setWidths
  refine stacks_ite (refuse_stacks h _ _) ?_
  split
  · exact refuse_stacks h _ _
  · exact done_stacks (modStream_stacks h _ _) _ _

theorem readGaps_stacks (h : s.stacksLawful) (a : At) (buf : Buf) (source : Nat) : (s.readGaps a buf source).stacksLawful := by
  unfold State.readGaps
  refine stacks_ite (refuse_stacks h _ _) ?_
  split
  · exact refuse_stacks h _ _
  · exact complete_stacks (writePlaces_stacks h _ _ _ _) _ _

theorem openFile_stacks (h : s.stacksLawful) (a : At) (source fileNo minutes : Nat) :
    (s.openFile a source fileNo minutes).stacksLawful := by
  unfold State.openFile
  refine stacks_ite (refuse_stacks h _ _) ?_
  split
  · exact refuse_stacks h _ _
  · refine stacks_ite (refuse_stacks h _ _) ?_
    split
    · exact refuse_stacks h _ _
    · exact done_stacks (modStream_stacks (setFiles_stacks h _) _ _) _ _

theorem takeFeed_stacks (h : s.stacksLawful) (a : At) (buf : Buf) (source fileNo : Nat) :
    (s.takeFeed a buf source fileNo).stacksLawful := by
  unfold State.takeFeed
  refine stacks_ite (refuse_stacks h _ _) ?_
  split
  · exact refuse_stacks h _ _
  · exact stacks_ite (waitForLane_stacks (setFeed_stacks h _ _) _) (refuse_stacks h _ _)

theorem freshAttempts_stacks (h : s.stacksLawful) (b : Nat) : (s.freshAttempts b).stacksLawful := by
  unfold State.freshAttempts
  split
  · split
    · refine joinSeals_stacks (setBuf_stacks h _ ?_) _
      trivial
    · exact h
  · exact h

theorem resumeFile_stacks (h : s.stacksLawful) (a : At) (source fileNo : Nat) : (s.resumeFile a source fileNo).stacksLawful := by
  unfold State.resumeFile
  split
  · exact refuse_stacks h _ _
  · rename_i k f _
    have resumed := modFile_stacks h k FileEntry.resumed
    exact stacks_ite (handOver_stacks (done_stacks (stacks_ite
      (stacks_foldl (fun _ b hs => freshAttempts_stacks hs b) resumed _) resumed) _ _) _) (refuse_stacks h _ _)

theorem discardOpen_stacks (h : s.stacksLawful) (k : Nat) : (s.discardOpen k).stacksLawful := by
  unfold State.discardOpen
  split
  · exact modFile_stacks (freeBuf_stacks h _) k _
  · exact h

theorem abandonFile_stacks (h : s.stacksLawful) (a : At) (source fileNo : Nat) :
    (s.abandonFile a source fileNo).stacksLawful := by
  unfold State.abandonFile
  split
  · exact refuse_stacks h _ _
  · rename_i k f _
    have closing := done_stacks (modFile_stacks (freeFailed_stacks (discardOpen_stacks h k) k) k (.closing .abandon)) a .none
    exact stacks_ite (handOver_stacks (endFeedOf_stacks closing _ _) _) (refuse_stacks h _ _)

theorem adoptFile_stacks (h : s.stacksLawful) (a : At) (source fileNo : Nat) : (s.adoptFile a source fileNo).stacksLawful := by
  unfold State.adoptFile
  split
  · exact refuse_stacks h _ _
  · exact stacks_ite (done_stacks (modFile_stacks h _ _) _ _) (refuse_stacks h _ _)

theorem beginWalkOf_stacks (h : s.stacksLawful) (a : At) (buf : Buf) (start : Nat) (source : Option Nat)
    (filter : Option EntryState) : (s.beginWalkOf a buf start source filter).stacksLawful := by
  unfold State.beginWalkOf
  exact stacks_ite (refuse_stacks h _ _) (setJob_stacks h _ (lawful_of_no_seg rfl))

theorem catalogueRead_stacks (h : s.stacksLawful) (a : At) (buf : Buf) (start : Nat) (source st : Option Nat) :
    (catalogueRead a buf start source st s).stacksLawful := by
  refine bufferDescriptor_stacks h a buf _ fun hu => ?_
  split
  · split
    · exact beginWalkOf_stacks hu _ _ _ _ _
    · exact refuse_stacks hu _ _
  · exact beginWalkOf_stacks hu _ _ _ _ _

theorem beginRetrieval_stacks (h : s.stacksLawful) (at_ : At) (buf : Buf) (source : Option Nat) (a b : Nat)
    (cursor : Option Cursor) : (s.beginRetrieval at_ buf source a b cursor).stacksLawful := by
  unfold State.beginRetrieval
  refine stacks_ite (refuse_stacks h _ _) ?_
  have active := stacks_ite (c := (s.roles at_.port).audit = true) h
    (modPort_stacks h at_.port (f := fun q => { q with active := q.pendingProj }) rfl)
  dsimp only
  split
  · exact cursorTest_stacks (setJob_stacks active _ (between_lawful (by rfl))) _ _
  · exact search_stacks (setJob_stacks active _ (between_lawful (by rfl))) _

theorem setProjection_stacks (h : s.stacksLawful) (a : At) (p : Projection) : (s.setProjection a p).stacksLawful := by
  unfold State.setProjection
  exact stacks_ite (refuse_stacks h _ _) (stacks_ite (done_stacks (modPort_stacks h _ (by rfl)) _ _) (refuse_stacks h _ _))

theorem setStaged_stacks (h : s.stacksLawful) (i : Fin 8) (g : Staged) : (s.setStaged i g).stacksLawful :=
  setRetention_stacks h _

theorem proposePolicy_stacks (h : s.stacksLawful) (a : At) (cls days : Nat) : (s.proposePolicy a cls days).stacksLawful := by
  unfold State.proposePolicy
  split
  · exact stacks_ite (refuse_stacks h _ _) (complete_stacks (refreshCommit_stacks (setStaged_stacks h _ _)) _ _)
  · exact refuse_stacks h _ _

theorem endorseRow_stacks (h : s.stacksLawful) (a : At) (i : Fin 8) (days : Nat) : (s.endorseRow a i days).stacksLawful := by
  unfold State.endorseRow
  split
  · exact refuse_stacks h _ _
  · exact stacks_ite (refuse_stacks h _ _) (stacks_ite (done_stacks (setStaged_stacks h _ _) _ _) (complete_stacks h _ _))
  · exact stacks_ite (refuse_stacks h _ _) (stacks_ite (done_stacks h _ _) (complete_stacks h _ _))

theorem endorsePolicy_stacks (h : s.stacksLawful) (a : At) (cls days : Nat) : (s.endorsePolicy a cls days).stacksLawful := by
  unfold State.endorsePolicy
  split
  · exact stacks_ite (refuse_stacks h _ _) (endorseRow_stacks h _ _ _)
  · exact refuse_stacks h _ _

theorem takeHold_stacks (h : s.stacksLawful) (at_ : At) (source : Option Nat) (a b : Nat) :
    (s.takeHold at_ source a b).stacksLawful := by
  unfold State.takeHold
  refine stacks_ite (refuse_stacks h _ _) ?_
  split
  · exact refuse_stacks h _ _
  · exact stacks_ite (refuse_stacks h _ _) (done_stacks (append_stacks
      (setCatalogue_stacks (setRetention_stacks (setSettings_stacks h _) _) _) _) _ _)

theorem liftHold_stacks {acc : State × Nat × Nat} (h : acc.1.stacksLawful) (port : PortId) (p : Nat × Hold) :
    (liftHold port acc p).1.stacksLawful := append_stacks (setSettings_stacks (setCatalogue_stacks h _) _) _

theorem releaseHolds_stacks (h : s.stacksLawful) (a : At) (id : Nat) : (s.releaseHolds a id).stacksLawful := by
  unfold State.releaseHolds
  refine stacks_ite (refuse_stacks h _ _) (stacks_ite (refuse_stacks h _ _) (done_stacks ?_ _ _))
  exact List.foldlRecOn (motive := fun acc : State × Nat × Nat => acc.1.stacksLawful) _ _ h
    fun acc ha p _ => liftHold_stacks ha a.port p

theorem shortenDeadlines_stacks (h : s.stacksLawful) (n : Nat) : (s.shortenDeadlines n).stacksLawful := setFiles_stacks h _

theorem dayRoll_stacks (h : s.stacksLawful) (d : Nat) : (s.dayRoll d).stacksLawful :=
  askCommit_stacks (noticeAll_stacks (setSettings_stacks h _) _ _) d

theorem setClockValue_stacks (h : s.stacksLawful) (a : At) (value : Nat) : (s.setClockValue a value).stacksLawful := by
  unfold State.setClockValue
  refine stacks_ite (refuse_stacks h _ _) (stacks_ite (refuse_stacks h _ _) ?_)
  unfold State.moveClock
  have moved := fun v b n => shortenDeadlines_stacks (append_stacks (setClock_stacks h v) b) n
  exact complete_stacks (stacks_ite (moved _ _ _) (dayRoll_stacks (moved _ _ _) _)) _ _

theorem beginVerify_stacks (h : s.stacksLawful) (a : At) (x : Nat) (b : Bool) : (s.beginVerify a x b).stacksLawful := by
  unfold State.beginVerify
  refine stacks_ite (refuse_stacks h _ _) ?_
  split
  · refine stacks_ite (askPin_stacks (setJob_stacks h _ fun g hg => ?_) _ _) (refuse_stacks h _ _)
    cases hg
    trivial
  · exact refuse_stacks h _ _

theorem setScrub_stacks (h : s.stacksLawful) (a : At) (b : Bool) (start : Nat) : (s.setScrub a b start).stacksLawful := by
  unfold State.setScrub
  have ended : s.endScrub.stacksLawful := idleAudit_stacks (dropSeg_stacks h _) (by rfl)
  exact stacks_ite (refuse_stacks h _ _)
    (done_stacks (stacks_ite (sameScrub_stacks ended (by rfl)) (sameScrub_stacks ended (by rfl))) _ _)

theorem discardDamaged_stacks (h : s.stacksLawful) (a : At) (x : Nat) : (s.discardDamaged a x).stacksLawful := by
  unfold State.discardDamaged
  refine stacks_ite (refuse_stacks h _ _) (stacks_ite ?_ (refuse_stacks h _ _))
  split
  · exact stacks_ite (refuse_stacks h _ _) (done_stacks (decideLow_stacks (modEntry_stacks (appendRaw_stacks h _) x _)) _ _)
  · exact refuse_stacks h _ _

theorem takeRelease_stacks (h : s.stacksLawful) (a : At) (serial : Nat) : (s.takeRelease a serial).stacksLawful := by
  unfold State.takeRelease
  have released : ∀ n, (s.release n).stacksLawful := fun n => by
    unfold State.release
    exact decideLow_stacks (reserveWait_stacks (stacks_of_frame (setSettings_stacks h _) (eraseReleased_frame _) (by decide)))
  exact complete_stacks (stacks_ite h (released _)) _ _

theorem readStatus_stacks (h : s.stacksLawful) (a : At) (buf : Buf) : (s.readStatus a buf).stacksLawful := by
  unfold State.readStatus
  exact stacks_ite (refuse_stacks h _ _) (complete_stacks (writePlaces_stacks h _ _ _ _) _ _)

theorem writeIdent_stacks (h : s.stacksLawful) (a : At) (buf : Buf) : (s.writeIdent a buf).stacksLawful := by
  unfold State.writeIdent
  exact stacks_ite (refuse_stacks h _ _) (complete_stacks (emit_stacks h _) _ _)

theorem jumpTo_stacks (h : s.stacksLawful) (a : At) (target : Nat) : (s.jumpTo a target).stacksLawful := by
  unfold State.jumpTo
  exact stacks_ite (done_stacks (modChain_stacks h _ fun _ => .inl) _ _) (refuse_stacks h _ _)

theorem haltChain_stacks (h : s.stacksLawful) (a : At) : (s.haltChain a).stacksLawful := by
  unfold State.haltChain
  have halted := idleChain_stacks (done_stacks h a .none) (refOf a)
  exact stacks_ite (notice_stacks halted _ _ _) halted

/-- Every descriptor command keeps the law of the stacks. -/
theorem runDescriptor_stacks (h : s.stacksLawful) (i : Instr) : (runDescriptor i s).stacksLawful := by
  unfold runDescriptor
  split
  · exact descriptor_stacks h _ _ fun hu => openStream_stacks hu _ _ _ _ _ _ _ _ _ _
  · exact descriptor_stacks h _ _ fun hu => closeStream_stacks hu _ _
  · exact descriptor_stacks h _ _ fun hu => openFile_stacks hu _ _ _ _
  · exact bufferDescriptor_stacks h _ _ _ fun hu => takeFeed_stacks hu _ _ _ _
  · exact descriptor_stacks h _ _ fun hu => resumeFile_stacks hu _ _ _
  · exact descriptor_stacks h _ _ fun hu => abandonFile_stacks hu _ _ _
  · exact descriptor_stacks h _ _ fun hu => adoptFile_stacks hu _ _ _
  · exact bufferDescriptor_stacks h _ _ _ fun hu => snapshot_stacks hu _ _ _
  · exact descriptor_stacks h _ _ fun hu => maskStream_stacks hu _ _ _ _
  · exact descriptor_stacks h _ _ fun hu => setWidths_stacks hu _ _ _ _
  · exact bufferDescriptor_stacks h _ _ _ fun hu => readGaps_stacks hu _ _ _
  · exact catalogueRead_stacks h _ _ _ _ _
  · exact bufferDescriptor_stacks h _ _ _ fun hu => beginRetrieval_stacks hu _ _ _ _ _ _
  · exact descriptor_stacks h _ _ fun hu => setProjection_stacks hu _ _
  · exact descriptor_stacks h _ _ fun hu => proposePolicy_stacks hu _ _ _
  · exact descriptor_stacks h _ _ fun hu => endorsePolicy_stacks hu _ _ _
  · exact descriptor_stacks h _ _ fun hu => takeHold_stacks hu _ _ _ _
  · exact descriptor_stacks h _ _ fun hu => releaseHolds_stacks hu _ _
  · exact descriptor_stacks h _ _ fun hu => setClockValue_stacks hu _ _
  · exact descriptor_stacks h _ _ fun hu => beginVerify_stacks hu _ _ _
  · exact descriptor_stacks h _ _ fun hu => setScrub_stacks hu _ _ _
  · exact descriptor_stacks h _ _ fun hu => discardDamaged_stacks hu _ _
  · exact bufferDescriptor_stacks h _ _ _ fun hu => readOn_stacks (setJob_stacks hu _ (lawful_of_no_seg rfl)) _ _ _ _
  · exact descriptor_stacks h _ _ fun hu => takeRelease_stacks hu _ _
  · exact descriptor_stacks h _ _ fun hu => complete_stacks (modPort_stacks hu _ (by rfl)) _ _
  · exact bufferDescriptor_stacks h _ _ _ fun hu => readStatus_stacks hu _ _
  · exact bufferDescriptor_stacks h _ _ _ fun hu => writeIdent_stacks hu _ _
  · exact descriptor_stacks h _ _ fun hu => jumpTo_stacks hu _ _
  · exact descriptor_stacks h _ _ fun hu => haltChain_stacks hu _
  · exact h

theorem descriptorFetch_stacks (h : s.stacksLawful) (p : PortId) (c : ChainNo) (b : List Byte) :
    (descriptorFetch p c b s).stacksLawful := by
  unfold descriptorFetch
  split
  · exact runDescriptor_stacks h _
  · exact descriptor_stacks h _ _ fun hu => refuse_stacks hu _ _

/-! ## The cell commands -/

theorem stopChain_stacks (h : s.stacksLawful) (p : PortId) (chain : Byte) : (s.stopChain p chain).stacksLawful := by
  unfold State.stopChain
  split
  · exact stacks_ite (idleChain_stacks h _) (stopJob_stacks h _)
  · exact h

theorem startChain_stacks (h : s.stacksLawful) (p : PortId) (chain : Byte) : (s.startChain p chain).stacksLawful := by
  unfold State.startChain
  split
  · exact idled_stacks h _ rfl
  · exact h

theorem drainPort_stacks (h : s.stacksLawful) (p : PortId) : (s.drainPort p).stacksLawful :=
  settleDrain_stacks (stacks_foldl (fun _ c hs => stacks_ite (idleChain_stacks hs ⟨p, c⟩) hs) (modPort_stacks h p rfl) four) p

theorem chainStart_stacks (h : s.stacksLawful) (p : PortId) (chain mask : Byte) : (chainStart p chain mask s).stacksLawful :=
  cellCommand_stacks h p _ _ fun hu => startChain_stacks hu p chain

theorem chainStop_stacks (h : s.stacksLawful) (p : PortId) (chain mask : Byte) : (chainStop p chain mask s).stacksLawful :=
  cellCommand_stacks h p _ _ fun hu => stopChain_stacks hu p chain

theorem portDrain_stacks (h : s.stacksLawful) (p : PortId) (chain mask : Byte) : (portDrain p chain mask s).stacksLawful :=
  cellCommand_stacks h p _ _ fun hu => drainPort_stacks hu p

theorem portOpen_stacks (h : s.stacksLawful) (p : PortId) (chain mask : Byte) : (portOpen p chain mask s).stacksLawful :=
  cellCommand_stacks h p _ _ fun hu => modPort_stacks hu p rfl

theorem noticeArea_stacks (h : s.stacksLawful) (p : PortId) (chain mask : Byte) : (noticeArea p chain mask s).stacksLawful :=
  cellCommand_stacks h p _ _ fun hu => modPort_stacks hu p rfl

theorem tornWrite_stacks (h : s.stacksLawful) (p : PortId) (cmd chain mask : Byte) :
    (tornWrite p cmd chain mask s).stacksLawful := stacks_ite h (modPort_stacks h p rfl)

theorem cellWrite_stacks (h : s.stacksLawful) (p : PortId) (cmd chain mask : Byte) :
    (cellWrite p cmd chain mask s).stacksLawful := by
  unfold cellWrite
  split
  · exact chainStart_stacks h p chain mask
  · exact chainStop_stacks h p chain mask
  · exact portDrain_stacks h p chain mask
  · exact portOpen_stacks h p chain mask
  · exact noticeArea_stacks h p chain mask
  · exact cellCommand_stacks h p _ _ id

theorem registerWrite_stacks (h : s.stacksLawful) (p : PortId) (reg : WindowReg) (v : BitVec 64) :
    (registerWrite p reg v s).stacksLawful := by
  unfold registerWrite
  refine stacks_ite h ?_
  split
  · unfold writeCell0
    exact stacks_ite (cellWrite_stacks h p _ _ _) (stacks_ite (modPort_stacks h p rfl) (tornWrite_stacks h p _ _ _))
  · exact modPort_stacks h p rfl
  · exact h

/-! ## The events -/

theorem haltAt_stacks (h : s.stacksLawful) (c : ChainRef) (f : Feed) (kind : FaultKind) (r : Option (Seq × Nat))
    (found : Option Nat) : (s.haltAt c f kind r found).stacksLawful := by
  unfold State.haltAt
  split
  · exact endFeed_stacks (notice_stacks (modFile_stacks (modStream_stacks h _ _) _ _) _ _ _) c _ _
  · exact h

theorem acceptTrailer_stacks (h : s.stacksLawful) (c : ChainRef) (f : Feed) (tr : Trailer) :
    (s.acceptTrailer c f tr).stacksLawful := by
  unfold State.acceptTrailer
  exact handOver_stacks (endFeed_stacks (setFeed_stacks (handOff_stacks (modFile_stacks h _ _) _) _ _) c _ _) _

theorem framing_stacks (h : s.stacksLawful) (c : ChainRef) (f : Feed) (st : Stream) : (s.framing c f st).stacksLawful := by
  unfold State.framing
  have flagged : (s.raise f.stream .framing).stacksLawful := modStream_stacks h _ _
  exact stacks_ite (moveFeed_stacks (setFeed_stacks (modFile_stacks flagged _ _) _ _) c _) (haltAt_stacks flagged _ _ _ _ _)

theorem trailerPlace_stacks (h : s.stacksLawful) (c : ChainRef) (f : Feed) (st : Stream) (n : Nat) (tr : Trailer) :
    (s.trailerPlace c f st n tr).stacksLawful := by
  unfold State.trailerPlace
  have flagged : (s.raise f.stream .trailerFile).stacksLawful := modStream_stacks h _ _
  exact stacks_ite (acceptTrailer_stacks h _ _ _)
    (stacks_ite (acceptTrailer_stacks flagged _ _ _) (haltAt_stacks flagged _ _ _ _ _))

theorem fitTest_stacks (h : s.stacksLawful) (k : Nat) (g : FileEntry) (r : Rec) : (s.fitTest k g r).1.stacksLawful := by
  unfold State.fitTest
  split
  · split
    · exact h
    · exact handOff_stacks h k
  · exact h

theorem checkedRecord_stacks (h : s.stacksLawful) (c : ChainRef) (f : Feed) (g : FileEntry) (st : Stream) (raw : RawRec)
    (k : Checked) : (s.checkedRecord c f g st raw k).stacksLawful := by
  unfold State.checkedRecord
  have flagged := modStream_stacks h f.stream (fun st => { st with sticky := k.sticky })
  dsimp only
  split
  · exact haltAt_stacks flagged _ _ _ _ _
  · exact moveFeed_stacks (countTaking_stacks flagged _ _ _ _ _ _) _ _
  · exact moveFeed_stacks (countTaking_stacks flagged _ _ _ _ _ _) _ _
  · exact takeOrWait_stacks flagged _ _ _
  · exact takeOrWait_stacks (fitTest_stacks flagged _ _ _) _ _ _

theorem recordPlace_stacks (h : s.stacksLawful) (c : ChainRef) (b : List Byte) : (s.recordPlace c b).stacksLawful := by
  unfold State.recordPlace
  split
  · refine stacks_ite ?_ h
    split
    · unfold State.readPlace
      exact stacks_ite (checkedRecord_stacks h _ _ _ _ _ _)
        (stacks_ite (trailerPlace_stacks h _ _ _ _ _) (stacks_ite (moveFeed_stacks h _ _) (framing_stacks h _ _ _)))
    · exact h
  · exact h

theorem takeWaiting_stacks (h : s.stacksLawful) (c : ChainRef) : (s.takeWaiting c).stacksLawful := by
  unfold State.takeWaiting
  split
  · split
    · have left := setStager_stacks h (v := { s.stager with wait := s.stager.wait.filter (fun d => decide (d ≠ c)) }) rfl
      exact stacks_ite (nextAppend_stacks (takeAndMove_stacks (popAppend_stacks left) _ _ _)) (takeAndMove_stacks left _ _ _)
    · exact h
  · exact h

theorem passOver_stacks (h : s.stacksLawful) (c : ChainRef) : (s.passOver c).stacksLawful := by
  unfold State.passOver
  split
  · exact stacks_ite h (joinAppend_stacks h _)
  · exact h

theorem giveTo_stacks (l : List ChainRef) (h : s.stacksLawful) : (State.giveTo l s).stacksLawful := by
  induction l generalizing s with
  | nil => exact h
  | cons c l ih => exact stacks_ite (takeWaiting_stacks h c) (ih (passOver_stacks h c))

theorem expireDeadline_stacks (h : s.stacksLawful) (k : Nat) : (s.expireDeadline k).stacksLawful := by
  unfold State.expireDeadline
  split
  · exact stacks_ite (handOver_stacks (endFeedOf_stacks
      (freeFailed_stacks (handOff_stacks (modFile_stacks h k (.closing .deadline)) k) k) _ _) _) h
  · exact h

/-- The machine without power holds no stack. -/
theorem powerOnValues_stacks (pending : List Instr) (out : List Output) (straps : StrapPins) (settings : Settings)
    (flash : Flash) : (State.powerOnValues pending out straps settings flash).stacksLawful := by
  refine stacksLawful_iff.mpr ⟨fun p hp => ?_, fun c j hj => ?_, fun g hg => ?_⟩
  · cases hp
  · simp [State.job, State.chain, State.port, State.powerOnValues, Port.reset, Chain.idle] at hj
  · cases hg

theorem powerUp_stacks (h : s.stacksLawful) (pins : StrapPins) (damaged : List SettingsId) :
    (s.powerUp pins damaged).stacksLawful := by
  unfold State.powerUp
  split
  · exact request_stacks (stacks_of_frame (powerOnValues_stacks _ _ _ _ _) (setPower_frame _ .starting) (by decide)) _ _
  · exact h

theorem countFailure_stacks (h : s.stacksLawful) : s.countFailure.stacksLawful := setJournal_stacks h _

theorem completeScanRead_stacks (h : s.stacksLawful) (o : PageOutcome) : (s.completeScanRead o).stacksLawful := by
  unfold State.completeScanRead
  split
  · refine stacks_ite ?_ h
    have popped := popQueue_stacks h 0
    dsimp only
    split
    · exact scanned_stacks popped _ _
    · exact stacks_ite (scanned_stacks (countFailure_stacks popped) _ _) (request_stacks (countFailure_stacks popped) _ _)
  · exact h

theorem headerReported_stacks (h : s.stacksLawful) (ch : Channel) (x : Nat) (r : Option (Option SegHeader)) :
    (s.headerReported ch x r).stacksLawful := by
  unfold State.headerReported
  have noted : (match r with
      | some k => s.setBoot { s.boot with headers := tput s.boot.headers x k }
      | none => s).stacksLawful := by
    split
    · exact setBoot_stacks h _
    · exact h
  exact headersDone_stacks (nextHeader_stacks noted ch _)

theorem completeHeaderRead_stacks (h : s.stacksLawful) (ch : Channel) (o : ReadOutcome) :
    (s.completeHeaderRead ch o).stacksLawful := by
  unfold State.completeHeaderRead
  split
  · refine stacks_ite ?_ h
    dsimp only
    split
    · exact request_stacks (popQueue_stacks h ch) _ _
    · exact headerReported_stacks (popQueue_stacks h ch) _ _ _
  · exact h

theorem advanceClock_stacks (h : s.stacksLawful) : s.advanceClock.stacksLawful := by
  unfold State.advanceClock
  have moved := shortenDeadlines_stacks (setClock_stacks h { s.clock with value := s.clock.value + 1 }) 1
  exact stacks_ite h (stacks_ite (dayRoll_stacks moved 1) moved)

theorem dividerSecond_stacks (h : s.stacksLawful) : s.dividerSecond.stacksLawful := by
  unfold State.dividerSecond
  refine stacks_ite h ?_
  split
  · exact advanceClock_stacks h
  · exact advanceClock_stacks h
  · exact setClock_stacks h _

theorem pulse_stacks (h : s.stacksLawful) : s.pulse.stacksLawful := by
  unfold State.pulse
  refine stacks_ite h ?_
  split
  · exact h
  · exact advanceClock_stacks (setClock_stacks h _)
  · exact setClock_stacks h _

theorem watchdogExpires_stacks (h : s.stacksLawful) : s.watchdogExpires.stacksLawful := by
  unfold State.watchdogExpires
  exact stacks_ite (noticeAll_stacks (advanceClock_stacks (advanceClock_stacks (setClock_stacks h _))) _ _) h

theorem commitReady_stacks (h : s.stacksLawful) : s.commitReady.stacksLawful := by
  unfold State.commitReady
  split
  · exact stacks_ite (nextAppend_stacks (commitPolicy_stacks (popAppend_stacks h) _)) h
  · exact h

theorem visit_stacks (h : s.stacksLawful) (x : Nat) : (s.visit x).stacksLawful := by
  unfold State.visit
  dsimp only
  split
  · split
    · exact stacks_ite h (stacks_ite h (stacks_ite (retire_stacks h _ _) (setScanner_stacks (modEntry_stacks h x _) _)))
    · exact stacks_ite (retest_stacks h x) (stacks_ite h (modEntry_stacks h x _))
    · exact h
  · exact h

theorem scanVisit_stacks (h : s.stacksLawful) : s.scanVisit.stacksLawful := by
  unfold State.scanVisit
  refine stacks_ite ?_ h
  have visited := fun p => setScanner_stacks (visit_stacks h s.scanner.position)
    { (s.visit s.scanner.position).scanner with position := p }
  have ended : ∀ {u : State}, u.stacksLawful → u.endWalk.stacksLawful := fun hu =>
    stacks_ite (setScanner_stacks hu _) (setScanner_stacks hu _)
  exact stacks_ite (ended (visited _)) (visited _)

theorem allocate_stacks (h : s.stacksLawful) (ch : Channel) : (s.allocate ch).stacksLawful := by
  unfold State.allocate
  split
  · split
    · split
      · dsimp only
        refine setStore_stacks (setStore_stacks (setEntry_stacks (setBuf_stacks (setStager_stacks h ?_) _ ?_) _ _) _) _
        · rfl
        · trivial
      · exact h
    · exact h
  · exact h

theorem sealAllocation_stacks (h : s.stacksLawful) : s.sealAllocation.stacksLawful := by
  unfold State.sealAllocation
  have full : s.storeFull.stacksLawful := stacks_ite h (noticeAll_stacks (setStore_stacks h _) _ _)
  refine stacks_ite h (stacks_ite full ?_)
  split
  · exact allocate_stacks h _
  · exact setStore_stacks h _

theorem placeGivenTo_stacks (h : s.stacksLawful) (op : StoreOp) : (s.placeGivenTo op).stacksLawful := by
  unfold State.placeGivenTo
  split
  · refine jobState_stacks (setPhase_stacks h _ ?_) _ _
    trivial
  · exact setChainState_stacks h _ _
  · exact h

theorem givePlace_stacks (h : s.stacksLawful) (ch : Channel) : (s.givePlace ch).stacksLawful := by
  unfold State.givePlace
  refine stacks_ite ?_ h
  split
  · exact placeGivenTo_stacks (setStore_stacks (setStore_stacks h _) _) _
  · exact allocate_stacks h ch
  · exact h

theorem setContent_stacks (h : s.stacksLawful) (x : Nat) (c : ExtentContent) : (s.setContent x c).stacksLawful :=
  setFlash_stacks h _

theorem completeWrite_stacks (h : s.stacksLawful) (ch : Channel) (ok : Bool) : (s.completeWrite ch ok).stacksLawful := by
  unfold State.completeWrite
  split
  · have popped := popQueue_stacks h ch
    dsimp only
    split
    · split
      · refine stacks_ite (ask_stacks (freeBuf_stacks (modEntry_stacks (setContent_stacks popped _ _) _ _) _) _ _) ?_
        refine ask_stacks (setBuf_stacks (retireExtent_stacks (setContent_stacks popped _ .incomplete) _) _ ?_) _ _
        trivial
      · exact popped
    · exact popped
  · exact h

theorem completeErase_stacks (h : s.stacksLawful) (ch : Channel) (ok : Bool) : (s.completeErase ch ok).stacksLawful := by
  unfold State.completeErase
  split
  · have popped := popQueue_stacks h ch
    exact stacks_ite (setEntry_stacks (setContent_stacks popped _ _) _ _)
      (ask_stacks (retireExtent_stacks (setContent_stacks popped _ _) _) _ _)
  · exact h

theorem readDone_stacks (h : s.stacksLawful) (r : JobRef) (hd : SegHeader) (b : List Bool) :
    (s.readDone r hd b).stacksLawful := by
  have waits := setPhase_stacks h r (p := .waitLane hd b) trivial
  cases r
  · exact waitForLane_stacks waits _
  · exact setArbiter_stacks waits _

theorem completeSegRead_stacks (h : s.stacksLawful) (ch : Channel) (o : ReadOutcome) :
    (s.completeSegRead ch o).stacksLawful := by
  unfold State.completeSegRead
  have popped := popQueue_stacks h ch
  split
  · unfold State.segReadDone
    split
    · exact readDone_stacks popped _ _ _
    · exact stacks_ite (segEnded_stacks popped _ _) (startRead_stacks popped _ _ _)
  · exact popped
  · exact h

theorem completePage_stacks (h : s.stacksLawful) (ok : Bool) : (s.completePage ok).stacksLawful := by
  unfold State.completePage
  split
  · exact stacks_ite (pageWritten_stacks (popQueue_stacks h 0) _)
      (stacks_of_frame (popQueue_stacks h 0) (pageFailed_frame _ _) (by decide))
  · exact h

theorem closePage_stacks (h : s.stacksLawful) : s.closePage.stacksLawful := by
  unfold State.closePage
  split
  · refine stacks_ite h (stacks_of_frame ?_ (pumpPages_frame 6 _) (by decide))
    exact stacks_of_frame (setJournal_stacks h _) (startPageWrite_frame _) (by decide)
  · exact h

theorem completeJournalErase_stacks (h : s.stacksLawful) (ok : Bool) : (s.completeJournalErase ok).stacksLawful := by
  unfold State.completeJournalErase
  split
  · exact stacks_ite (stacks_of_frame (popQueue_stacks h 0) (journalErased_frame _ _) (by decide))
      (request_stacks (countFailure_stacks (popQueue_stacks h 0)) _ _)
  · exact h

theorem completePageRead_stacks (h : s.stacksLawful) (o : PageOutcome) : (s.completePageRead o).stacksLawful := by
  unfold State.completePageRead
  have popped := popQueue_stacks h 0
  split
  · split
    · unfold State.pageReadDone
      split
      · exact readOn_stacks (setChainState_stacks popped _ _) _ _ _ _
      · exact stacks_ite (complete_stacks (countFailure_stacks popped) _ _) (readPage_stacks (countFailure_stacks popped) _ _ _ _)
    · exact popped
  · exact popped
  · exact h

theorem pinGranted_stacks (h : s.stacksLawful) (c : ChainRef) (x : Nat) : (s.pinGranted c x).stacksLawful := by
  unfold State.pinGranted
  split
  · exact stacks_ite (goOnPinned_stacks h c x)
      (search_stacks (releasePin_stacks (setJob_stacks h _ (between_lawful (by rfl))) x) c)
  · exact goOnPinned_stacks h c x
  · exact h

theorem grantPin_stacks (h : s.stacksLawful) (x : Nat) : (s.grantPin x).stacksLawful := by
  unfold State.grantPin
  split
  · exact pinGranted_stacks (modEntry_stacks h x _) _ x
  · exact h

theorem handRecord_stacks (h : s.stacksLawful) (r : JobRef) (g : SegJob) (i : Nat) (x : Rec) :
    (s.handRecord r g i x).1.stacksLawful := by
  unfold State.handRecord
  split
  · split
    · rename_i hj; exact deliver_stacks h _ (job_lawful h hj) _ _ _
    · exact h
  · exact h

/-- The stack of a decode goes on from the one that the job held. -/
theorem decodeOne_stacks (h : s.stacksLawful) (r : JobRef) : (s.decodeOne r).stacksLawful := by
  unfold State.decodeOne
  split
  · rename_i g hg
    split
    · rename_i hd d hp
      have stands : d.codec.stack.law = true := by have hl := segJob_lawful h hg; rwa [hp] at hl
      split
      · rename_i x d' hn
        have handed := handRecord_stacks h r g d.index x
        exact stacks_ite (decodeStands_stacks handed _ _ (decodeBetween_lawful hd (decodeNext_law stands hn))) handed
      · exact segEnded_stacks h _ _
    · exact h
  · exact h

theorem takeReport_stacks (h : s.stacksLawful) : s.takeReport.stacksLawful := by
  unfold State.takeReport
  split
  · rename_i f l _
    have taken := sameScrub_stacks h (v := { s.audit with reports := l }) rfl
    dsimp only
    split
    · exact stacks_ite (quarantine_stacks taken _ _ _ _ _ _) taken
    · exact taken
  · exact h

theorem considerScrub_stacks (h : s.stacksLawful) : s.considerScrub.stacksLawful := by
  unfold State.considerScrub
  refine stacks_ite ?_ h
  dsimp only
  split
  · refine stacks_ite ?_ (scrubDone_stacks h _)
    refine stacks_ite (startRead_stacks (setAudit_stacks (modEntry_stacks h _ _) fun g hg => .inr ?_) _ _ _) (scrubDone_stacks h _)
    cases hg
    trivial
  · exact scrubDone_stacks h _

theorem linkDown_stacks (h : s.stacksLawful) (p : PortId) {f : Port → Port} (hf : ∀ q, (f q).chains = q.chains) :
    ((s.portReset p).modPort p f).stacksLawful := modPort_stacks (portReset_stacks h p) p (hf _)

/-! ## Every command, and every step -/

theorem next_stacks {u : State} (ht : (.next u : Host.Outcome State Fault Refusal) = .next t) (h : u.stacksLawful) :
    t.stacksLawful := by cases ht; exact h

/-- Every command keeps the law of the stacks. -/
theorem exec_stacks (h : s.stacksLawful) {i : Instr} (ht : exec i s = .next t) : t.stacksLawful := by
  cases i with
  | streamOpen => exact next_stacks ht (runDescriptor_stacks h (.streamOpen ..))
  | streamClose => exact next_stacks ht (runDescriptor_stacks h (.streamClose ..))
  | fileOpen => exact next_stacks ht (runDescriptor_stacks h (.fileOpen ..))
  | fileFeed => exact next_stacks ht (runDescriptor_stacks h (.fileFeed ..))
  | fileResume => exact next_stacks ht (runDescriptor_stacks h (.fileResume ..))
  | fileAbandon => exact next_stacks ht (runDescriptor_stacks h (.fileAbandon ..))
  | fileAdopt => exact next_stacks ht (runDescriptor_stacks h (.fileAdopt ..))
  | streamSnapshot => exact next_stacks ht (runDescriptor_stacks h (.streamSnapshot ..))
  | streamMask => exact next_stacks ht (runDescriptor_stacks h (.streamMask ..))
  | widthSet => exact next_stacks ht (runDescriptor_stacks h (.widthSet ..))
  | gapRead => exact next_stacks ht (runDescriptor_stacks h (.gapRead ..))
  | catalogueRead => exact next_stacks ht (runDescriptor_stacks h (.catalogueRead ..))
  | retrieve => exact next_stacks ht (runDescriptor_stacks h (.retrieve ..))
  | projectionSet => exact next_stacks ht (runDescriptor_stacks h (.projectionSet ..))
  | policyPropose => exact next_stacks ht (runDescriptor_stacks h (.policyPropose ..))
  | policyEndorse => exact next_stacks ht (runDescriptor_stacks h (.policyEndorse ..))
  | holdPlace => exact next_stacks ht (runDescriptor_stacks h (.holdPlace ..))
  | holdRelease => exact next_stacks ht (runDescriptor_stacks h (.holdRelease ..))
  | clockSet => exact next_stacks ht (runDescriptor_stacks h (.clockSet ..))
  | verify => exact next_stacks ht (runDescriptor_stacks h (.verify ..))
  | scrubSet => exact next_stacks ht (runDescriptor_stacks h (.scrubSet ..))
  | damagedDiscard => exact next_stacks ht (runDescriptor_stacks h (.damagedDiscard ..))
  | journalRead => exact next_stacks ht (runDescriptor_stacks h (.journalRead ..))
  | journalRelease => exact next_stacks ht (runDescriptor_stacks h (.journalRelease ..))
  | serviceSet => exact next_stacks ht (runDescriptor_stacks h (.serviceSet ..))
  | statusRead => exact next_stacks ht (runDescriptor_stacks h (.statusRead ..))
  | identify => exact next_stacks ht (runDescriptor_stacks h (.identify ..))
  | jump => exact next_stacks ht (runDescriptor_stacks h (.jump ..))
  | halt => exact next_stacks ht (runDescriptor_stacks h (.halt ..))
  | chainStart => exact next_stacks ht (chainStart_stacks h _ _ _)
  | chainStop => exact next_stacks ht (chainStop_stacks h _ _ _)
  | portDrain => exact next_stacks ht (portDrain_stacks h _ _ _)
  | portOpen => exact next_stacks ht (portOpen_stacks h _ _ _)
  | noticeArea => exact next_stacks ht (noticeArea_stacks h _ _ _)
  | torn => exact next_stacks ht (tornWrite_stacks h _ _ _ _)
  | registerWrite => exact next_stacks ht (registerWrite_stacks h _ _ _)
  | descriptorFetch => exact next_stacks ht (descriptorFetch_stacks h _ _ _)
  | descriptorFetchTimeout => exact next_stacks ht (fetchFails_stacks h _)
  | bufferReadTimeout => exact next_stacks ht (bufferReadFails_stacks h _)
  | linkUp => exact next_stacks ht (stacks_ite (modPort_stacks h _ (by rfl)) h)
  | linkDown => exact next_stacks ht (stacks_ite h (linkDown_stacks h _ fun _ => rfl))
  | functionLevelReset => exact next_stacks ht (stacks_ite h (linkDown_stacks h _ fun _ => rfl))
  | functionLevelResetEnd => exact next_stacks ht (stacks_ite (modPort_stacks h _ (by rfl)) h)
  | laneGrant => exact next_stacks ht (grantLane_stacks h)
  | recordPlace => exact next_stacks ht (recordPlace_stacks h _ _)
  | stagingBufferGiven => exact next_stacks ht (stacks_ite (giveTo_stacks _ h) h)
  | fileDeadlineExpiry => exact next_stacks ht (expireDeadline_stacks h _)
  | powerOn => exact next_stacks ht (powerUp_stacks h _ _)
  | powerOff => exact next_stacks ht (stacks_ite h (powerOnValues_stacks _ _ _ _ _))
  | journalScanReadComplete => exact next_stacks ht (completeScanRead_stacks h _)
  | headerReadComplete => exact next_stacks ht (completeHeaderRead_stacks h _ _)
  | dividerSecond => exact next_stacks ht (dividerSecond_stacks h)
  | pulse => exact next_stacks ht (pulse_stacks h)
  | pulseWatchdogExpiry => exact next_stacks ht (watchdogExpires_stacks h)
  | policyCommit => exact next_stacks ht (commitReady_stacks h)
  | scanVisit => exact next_stacks ht (scanVisit_stacks h)
  | sealAllocation => exact next_stacks ht (sealAllocation_stacks h)
  | queuePlaceGiven => exact next_stacks ht (givePlace_stacks h _)
  | segmentWriteComplete => exact next_stacks ht (completeWrite_stacks h _ _)
  | segmentReadComplete => exact next_stacks ht (completeSegRead_stacks h _ _)
  | eraseComplete => exact next_stacks ht (completeErase_stacks h _ _)
  | journalPageWriteComplete => exact next_stacks ht (completePage_stacks h _)
  | pageTimerExpiry => exact next_stacks ht (closePage_stacks h)
  | journalEraseComplete => exact next_stacks ht (completeJournalErase_stacks h _)
  | journalPageReadComplete => exact next_stacks ht (completePageRead_stacks h _)
  | appendWaitServed => exact next_stacks ht (serveAppend_stacks h)
  | pinGrant => exact next_stacks ht (grantPin_stacks h _)
  | decodedRecord =>
    refine next_stacks ht ?_
    split
    · exact decodeOne_stacks h _
    · exact h
  | damageReport => exact next_stacks ht (takeReport_stacks h)
  | scrubConsider => exact next_stacks ht (considerScrub_stacks h)
  | errorCompletion => exact next_stacks ht (stacks_ite (fetchFails_stacks h _) (bufferReadFails_stacks h _))

/-- Every step keeps the law of the stacks. -/
theorem step_stacks (h : s.stacksLawful) (ht : step s = .next t) : t.stacksLawful := by
  unfold step at ht
  split at ht
  · exact next_stacks ht (tick_stacks h)
  · rename_i rest _
    have taken : ({ s with pending := rest } : State).stacksLawful := h
    exact exec_stacks taken ht

end Sys2Proof.Machine

open Sys2Proof Sys2Proof.Machine

/-- Settles O55: the law of a stack is kept by a hit and by a miss, and by every operation on the buffers and the jobs. -/
theorem stepKeepsStacksLawful : Obligations.StepKeepsStacksLawful := by
  unfold Obligations.StepKeepsStacksLawful
  exact ⟨powerOnValues_stacks _ _ _ _ _, fun s t ht hs => step_stacks hs ht⟩
end

section
/-!
SUPPORT. Bit fields and bytes written and read back (R53, R171).
-/

namespace Sys2Proof.Machine

/-! ## Bit fields -/

@[simp] theorem toBits_length (w n : Nat) : (toBits w n).length = w := by
  induction w with
  | zero => rfl
  | succ w ih => simp [toBits, ih]

/-- The low `w + 1` bits of a number are its bit `w` before its low `w` bits. -/
theorem mod_two_pow_succ_eq (n w : Nat) : n % 2 ^ (w + 1) = (n.testBit w).toNat * 2 ^ w + n % 2 ^ w := by
  rw [Nat.mod_pow_succ, Nat.toNat_testBit, Nat.add_comm, Nat.mul_comm]

/-- Bits read after others that gave `a`. -/
theorem fold_toBits (w n a : Nat) : (toBits w n).foldl (fun a b => 2 * a + b.toNat) a = a * 2 ^ w + n % 2 ^ w := by
  induction w generalizing a with
  | zero => simp [toBits, Nat.mod_one]
  | succ w ih =>
    rw [toBits, List.foldl_cons, ih, mod_two_pow_succ_eq]
    ring

theorem fromBits_toBits {w n : Nat} (h : n < 2 ^ w) : fromBits (toBits w n) = n := by
  rw [fromBits, fold_toBits, Nat.zero_mul, Nat.zero_add, Nat.mod_eq_of_lt h]

@[simp] theorem readBits_toBits {w n : Nat} (h : n < 2 ^ w) (rest : List Bool) :
    readBits w (toBits w n ++ rest) = some (n, rest) := by
  unfold readBits
  rw [if_pos (by simp), List.take_left' (toBits_length w n), List.drop_left' (toBits_length w n), fromBits_toBits h]

/-- A value is below 2 to the number of its digits. -/
theorem lt_two_pow_of_bitsOf_le {v w : Nat} (h : bitsOf v ≤ w) : v < 2 ^ w := by
  unfold bitsOf at h
  split at h
  · rename_i hv; rw [hv]; exact Nat.two_pow_pos w
  · rename_i hv; exact (Nat.log2_lt hv).mp h

/-! ## Bytes -/

@[simp] theorem leBytes_length (w n : Nat) : (leBytes w n).length = w := by
  induction w generalizing n with
  | zero => rfl
  | succ w ih => simp [leBytes, ih]

theorem fromLe_leBytes {w n : Nat} (h : n < 256 ^ w) : fromLe (leBytes w n) = n := by
  induction w generalizing n with
  | zero => rw [Nat.pow_zero] at h; rw [Nat.lt_one_iff.mp h]; rfl
  | succ w ih =>
    rw [leBytes, fromLe, ih (by rw [Nat.pow_succ] at h; omega), BitVec.toNat_ofNat]
    omega

@[simp] theorem padTo_length (n : Nat) (b : List Byte) : (padTo n b).length = n := by
  unfold padTo
  simp
  omega

theorem padTo_of_le {n : Nat} {b : List Byte} (h : b.length ≤ n) :
    padTo n b = b ++ List.replicate (n - b.length) 0 := by rw [padTo, List.take_of_length_le h]

/-- What stands past a first part of known length. -/
theorem drop_past {α : Type} {w k : Nat} {p : List α} (hp : p.length = w) (h : w ≤ k) (q : List α) :
    (p ++ q).drop k = q.drop (k - w) := by
  rw [List.drop_append, List.drop_of_length_le (by omega), List.nil_append, hp]

@[simp] theorem drop_leBytes {w k : Nat} (h : w ≤ k) (n : Nat) (q : List Byte) :
    (leBytes w n ++ q).drop k = q.drop (k - w) := drop_past (leBytes_length w n) h q

@[simp] theorem drop_padTo {w k : Nat} (h : w ≤ k) (b q : List Byte) : (padTo w b ++ q).drop k = q.drop (k - w) :=
  drop_past (padTo_length w b) h q

@[simp] theorem take_leBytes (w n : Nat) (q : List Byte) : (leBytes w n ++ q).take w = leBytes w n :=
  List.take_left' (leBytes_length w n)

@[simp] theorem take_padTo (w : Nat) (b q : List Byte) : (padTo w b ++ q).take w = padTo w b :=
  List.take_left' (padTo_length w b)

/-! ## Digits -/

theorem nibbles_append (a b : List Byte) : nibbles (a ++ b) = nibbles a ++ nibbles b := by
  induction a with
  | nil => rfl
  | cons x a ih => simp [nibbles, ih]

theorem packDigits_length (ds : List Nat) : (packDigits ds).length = (ds.length + 1) / 2 := by
  induction ds using packDigits.induct with
  | case1 => rfl
  | case2 d => simp [packDigits]
  | case3 d e t ih => simp only [packDigits, List.length_cons, ih]; omega

/-- Packed digits are read back, an odd number of them before the 0 that filled the last byte. -/
theorem nibbles_packDigits {ds : List Nat} (h : ∀ d ∈ ds, d ≤ 9) : ∃ fill, nibbles (packDigits ds) = ds ++ fill := by
  induction ds using packDigits.induct with
  | case1 => exact ⟨[], rfl⟩
  | case2 d =>
    have hd := h d (by simp)
    refine ⟨[0], ?_⟩
    simp only [packDigits, nibbles, BitVec.toNat_ofNat, List.cons_append, List.nil_append, List.cons.injEq, and_true]
    omega
  | case3 d e t ih =>
    have hd := h d (by simp)
    have he := h e (by simp)
    obtain ⟨fill, ht⟩ := ih fun x hx => h x (by simp [hx])
    refine ⟨fill, ?_⟩
    simp only [packDigits, nibbles, ht, BitVec.toNat_ofNat, List.cons_append, List.cons.injEq, and_true]
    omega

theorem take_nibbles_packed {w : Nat} {ds : List Nat} (h : ∀ d ∈ ds, d ≤ 9) (hl : ds.length ≤ 2 * w) :
    (nibbles (padTo w (packDigits ds))).take ds.length = ds := by
  obtain ⟨fill, hf⟩ := nibbles_packDigits h
  rw [padTo_of_le (by rw [packDigits_length]; omega), nibbles_append, hf, List.append_assoc, List.take_left]

/-- Values written as bytes are read back from the front of their padded form. -/
theorem take_padded_bytes {w : Nat} {l : List Nat} (h : ∀ v ∈ l, v < 256) (hl : l.length ≤ w) :
    ((padTo w (l.map (BitVec.ofNat 8))).map BitVec.toNat).take l.length = l := by
  have read : (l.map (BitVec.ofNat 8)).map BitVec.toNat = l := by
    rw [List.map_map]
    exact List.map_congr_left (g := id) (fun v hv => by simpa using h v hv) |>.trans (List.map_id l)
  rw [padTo_of_le (by simpa using hl), List.map_append, read, List.take_left]

end Sys2Proof.Machine
end

section
/-!
SUPPORT. The length of an encoded record, field by field (O21).
-/

namespace Sys2Proof.Machine

theorem shortOr_length (w full value whole : Nat) :
    (shortOr w full value whole).length = 1 + (if bitsOf value ≤ w then w else full) := by
  unfold shortOr
  split <;> simp [Nat.add_comm]

theorem encodeSeq_length (c : Codec) (r : Rec) : (encodeSeq c r).length = 1 ∨ (encodeSeq c r).length = 33 := by
  unfold encodeSeq
  split
  · split <;> simp
  · simp

theorem encodeType_length (c : Codec) (r : Rec) : (encodeType c r).length = 1 ∨ (encodeType c r).length = 13 := by
  unfold encodeType
  split
  · split <;> simp
  · simp

/-- Values at `w` bits each. -/
theorem flatMap_toBits_length (w : Nat) (l : List Nat) : (l.flatMap (toBits w)).length = w * l.length := by
  induction l with
  | nil => rfl
  | cons v l ih => rw [List.flatMap_cons, List.length_append, toBits_length, ih, List.length_cons]; ring

theorem encodeDigits_length (ds : List Nat) : (encodeDigits ds).length = 4 * ds.length := flatMap_toBits_length 4 ds

theorem encodeCalled_length (st : Stack) (ds : List Nat) : (encodeCalled st ds).length = 6 + 4 * ds.length
    ∨ 6 ≤ ds.length ∧ (encodeCalled st ds).length = 9 + 4 * (ds.length - 6) := by
  unfold encodeCalled
  split
  · rename_i hl
    split
    · refine .inr ⟨hl, ?_⟩
      simp [encodeDigits_length]
      omega
    · refine .inl ?_
      simp [encodeDigits_length]
      omega
  · refine .inl ?_
    simp [encodeDigits_length]
    omega

theorem encodeOption_length (w : Nat) (v : Option Nat) : (encodeOption w v).length = 1 ∨ (encodeOption w v).length = 1 + w := by
  cases v with
  | none => exact .inl rfl
  | some n => exact .inr (by simp [encodeOption, Nat.add_comm])

/-- The length of a record is the sum of its fields' lengths. -/
theorem encodedLength_eq (c : Codec) (r : Rec) : encodedLength c r =
    (encodeSeq c r).length + (1 + (if bitsOf (c.startZ r) ≤ c.widths.td then c.widths.td else 32))
      + (1 + (if bitsOf r.duration ≤ c.widths.du then c.widths.du else 24))
      + (1 + (if bitsOf r.units ≤ c.widths.cu then c.widths.cu else 32)) + (encodeType c r).length
      + (4 + 4 * r.calling.length) + (encodeCalled c.stack r.called).length + (encodeOption 28 r.cell).length
      + (encodeOption 16 r.trunk).length + (3 + 8 * r.supp.length) := by
  simp only [encodedLength, encodeRec, List.length_append, shortOr_length, toBits_length, encodeDigits_length,
    flatMap_toBits_length]

theorem widthsInRange_iff (w : Three) : widthsInRange w = true ↔
    (1 ≤ w.td ∧ w.td ≤ 32) ∧ (1 ≤ w.du ∧ w.du ≤ 24) ∧ (1 ≤ w.cu ∧ w.cu ≤ 32) := by
  unfold widthsInRange
  simp only [Bool.and_eq_true, decide_eq_true_iff]
  tauto

/-- A field in its short or its escaped form is within the two. -/
theorem ite_width_bounds {p : Prop} [Decidable p] {w full : Nat} (h1 : 1 ≤ w) (h2 : w ≤ full) :
    1 ≤ (if p then w else full) ∧ (if p then w else full) ≤ full := by
  split <;> omega

theorem encodedLength_bounds {c : Codec} {r : Rec} (hr : r.inRange) (hw : widthsInRange c.widths = true) :
    23 ≤ encodedLength c r ∧ encodedLength c r ≤ 368 := by
  obtain ⟨⟨td1, td2⟩, ⟨du1, du2⟩, cu1, cu2⟩ := (widthsInRange_iff _).mp hw
  have start := ite_width_bounds (p := bitsOf (c.startZ r) ≤ c.widths.td) td1 td2
  have duration := ite_width_bounds (p := bitsOf r.duration ≤ c.widths.du) du1 du2
  have units := ite_width_bounds (p := bitsOf r.units ≤ c.widths.cu) cu1 cu2
  have calling := hr.calling.1
  have called := hr.called.1
  have supp := hr.supp.1
  have seqField := encodeSeq_length c r
  have typeField := encodeType_length c r
  have calledField := encodeCalled_length c.stack r.called
  have cellField := encodeOption_length 28 r.cell
  have trunkField := encodeOption_length 16 r.trunk
  rw [encodedLength_eq]
  generalize (ite (bitsOf (c.startZ r) ≤ c.widths.td) _ _) = w1 at *
  generalize (ite (bitsOf r.duration ≤ c.widths.du) _ _) = w2 at *
  generalize (ite (bitsOf r.units ≤ c.widths.cu) _ _) = w3 at *
  omega

end Sys2Proof.Machine

open Sys2Proof Sys2Proof.Machine

/-- Settles O21: the sum of the fields' bounds, and the two comparisons of the fit test. -/
theorem encodedLengthIsBounded : Obligations.EncodedLengthIsBounded := by
  unfold Obligations.EncodedLengthIsBounded
  intro c r hr hw
  obtain ⟨least, most⟩ := encodedLength_bounds hr hw
  refine ⟨least, most, fun hf => ?_⟩
  unfold fits at hf
  rw [Bool.and_eq_true, decide_eq_true_iff, decide_eq_true_iff] at hf
  obtain ⟨hcount, hbits⟩ := hf
  exact ⟨hbits, hcount⟩
end

section
/-!
SUPPORT. A record's 64 bytes, part by part (O20).
-/

namespace Sys2Proof.Machine

/-- The record's bytes as one part after another. -/
theorem recBytes_eq (r : Rec) : recBytes r =
    0xD1#8 :: BitVec.ofNat 8 (r.cell.isSome.toNat + 2 * r.trunk.isSome.toNat) :: (leBytes 2 r.source
      ++ (leBytes 4 r.seq.toNat ++ (leBytes 4 r.start ++ (leBytes 4 r.duration ++ (leBytes 4 r.units
      ++ (leBytes 1 r.callType ++ (leBytes 1 r.cause ++ (leBytes 1 r.calling.length ++ (leBytes 1 r.called.length
      ++ (padTo 8 (packDigits r.calling) ++ (padTo 10 (packDigits r.called) ++ (leBytes 4 (r.cell.getD 0)
      ++ (leBytes 2 (r.trunk.getD 0) ++ (leBytes 1 r.supp.length ++ (padTo 8 (r.supp.map (BitVec.ofNat 8))
      ++ List.replicate 7 0))))))))))))))) := by
  simp only [recBytes, List.append_assoc, List.cons_append, List.nil_append]

theorem recBytes_length (r : Rec) : (recBytes r).length = 64 := by
  simp [recBytes_eq]

/-- The presence bits of the two optional ids. -/
theorem presence_bits (a b : Bool) : (BitVec.ofNat 8 (a.toNat + 2 * b.toNat))[0] = a
    ∧ (BitVec.ofNat 8 (a.toNat + 2 * b.toNat))[1] = b := by
  cases a <;> cases b <;> decide

/-- An optional value is what its presence bit and its field say. -/
theorem present_getD (v : Option Nat) : (if v.isSome then some (v.getD 0) else none) = v := by
  cases v <;> rfl

/-- The value of an optional id is within its field. -/
theorem getD_lt {v : Option Nat} {n : Nat} (hn : 0 < n) (h : ∀ k, v = some k → k < n) : v.getD 0 < n := by
  cases v with
  | none => exact hn
  | some k => exact h k rfl

/-- Each field of a record's bytes, before the digits and codes are cut to their lengths. -/
theorem rawRecord_recBytes {r : Rec} (hr : r.inRange) : rawRecord (recBytes r) =
    { source := r.source, seq := r.seq, start := r.start, duration := r.duration, units := r.units,
      callType := r.callType, cause := r.cause, callingLen := r.calling.length, calledLen := r.called.length,
      calling := nibbles (padTo 8 (packDigits r.calling)), called := nibbles (padTo 10 (packDigits r.called)),
      cell := r.cell, trunk := r.trunk, suppCount := r.supp.length,
      supp := (padTo 8 (r.supp.map (BitVec.ofNat 8))).map BitVec.toNat } := by
  have source := fromLe_leBytes (w := 2) (n := r.source) (by have := hr.source; omega)
  have seq := fromLe_leBytes (w := 4) (n := r.seq.toNat) (by have := r.seq.isLt; omega)
  have start := fromLe_leBytes (w := 4) (n := r.start) (by have := hr.start; omega)
  have duration := fromLe_leBytes (w := 4) (n := r.duration) (by have := hr.duration; omega)
  have units := fromLe_leBytes (w := 4) (n := r.units) (by have := hr.units; omega)
  have callType := fromLe_leBytes (w := 1) (n := r.callType) (by have := hr.callType; omega)
  have cause := fromLe_leBytes (w := 1) (n := r.cause) (by have := hr.cause; omega)
  have calling := fromLe_leBytes (w := 1) (n := r.calling.length) (by have := hr.calling.1; omega)
  have called := fromLe_leBytes (w := 1) (n := r.called.length) (by have := hr.called.1; omega)
  have supp := fromLe_leBytes (w := 1) (n := r.supp.length) (by have := hr.supp.1; omega)
  have cell := fromLe_leBytes (w := 4) (n := r.cell.getD 0)
    (by have := getD_lt (by decide) hr.cell; omega)
  have trunk := fromLe_leBytes (w := 2) (n := r.trunk.getD 0)
    (by have := getD_lt (by decide) hr.trunk; omega)
  obtain ⟨cellBit, trunkBit⟩ := presence_bits r.cell.isSome r.trunk.isSome
  simp [rawRecord, field, byteAt, recBytes_eq, source, seq, start, duration, units, callType, cause, calling, called,
    supp, cell, trunk, cellBit, trunkBit, present_getD]

theorem archived_rawRecord_recBytes {r : Rec} (hr : r.inRange) : archived (rawRecord (recBytes r)) = r := by
  obtain ⟨callingLen, callingDigits⟩ := hr.calling
  obtain ⟨calledLen, calledDigits⟩ := hr.called
  obtain ⟨suppLen, suppCodes⟩ := hr.supp
  rw [rawRecord_recBytes hr, archived]
  dsimp only
  rw [take_nibbles_packed callingDigits (by omega), take_nibbles_packed calledDigits (by omega),
    take_padded_bytes suppCodes (by omega)]

end Sys2Proof.Machine

open Sys2Proof Sys2Proof.Machine

/-- Settles O20: each part of the 64 bytes is read back from its place. -/
theorem recordBytesReadBack : Obligations.RecordBytesReadBack := by
  unfold Obligations.RecordBytesReadBack
  exact fun r hr => ⟨recBytes_length r, archived_rawRecord_recBytes hr⟩
end

section
/-!
SUPPORT. Each field of an encoded record decoded, then a record and a body (O19).
-/

namespace Sys2Proof.Machine

/-! ## The fields of a record -/

theorem unzigzag_zigzag (d : Int) : unzigzag (zigzag d) = d := by
  unfold unzigzag zigzag
  split <;> split <;> omega

/-- A start time is rebuilt from its zigzag value. -/
theorem rebuiltStart_startZ {c : Codec} {r : Rec} (hr : r.start < 2 ^ 32) :
    rebuiltStart c.previousStart (c.startZ r) = r.start := by
  unfold rebuiltStart Codec.startZ
  rw [unzigzag_zigzag, add_sub_cancel, if_pos ⟨Int.natCast_nonneg _, by unfold max32; omega⟩]
  rfl

theorem decodeSeq_encodeSeq (c : Codec) (r : Rec) (rest : List Bool) :
    decodeSeq c (encodeSeq c r ++ rest) = some (r.seq, rest) := by
  have long : decodeSeq c (true :: toBits 32 r.seq.toNat ++ rest) = some (r.seq, rest) := by
    simp [decodeSeq, readFlag, readBits_toBits r.seq.isLt]
  unfold encodeSeq
  split
  · rename_i p hp
    split
    · rename_i he; simp [decodeSeq, readFlag, hp, he]
    · exact long
  · exact long

theorem decodeStart_shortOr {c : Codec} {r : Rec} (hr : r.start < 2 ^ 32) (rest : List Bool) :
    decodeStart c (shortOr c.widths.td 32 (c.startZ r) r.start ++ rest) = some (r.start, rest) := by
  unfold shortOr
  split
  · rename_i hw; simp [decodeStart, readFlag, readBits_toBits (lt_two_pow_of_bitsOf_le hw), rebuiltStart_startZ hr]
  · simp [decodeStart, readFlag, readBits_toBits hr]

theorem decodeShortOr_shortOr {w full v : Nat} (hv : v < 2 ^ full) (rest : List Bool) :
    decodeShortOr w full (shortOr w full v v ++ rest) = some (v, rest) := by
  unfold shortOr
  split
  · rename_i hw; simp [decodeShortOr, readFlag, readBits_toBits (lt_two_pow_of_bitsOf_le hw)]
  · simp [decodeShortOr, readFlag, readBits_toBits hv]

theorem decodeType_encodeType {c : Codec} {r : Rec} (ht : r.callType < 16) (hk : r.cause < 256) (rest : List Bool) :
    decodeType c (encodeType c r ++ rest) = some ((r.callType, r.cause), rest) := by
  have long : decodeType c (true :: (toBits 4 r.callType ++ toBits 8 r.cause) ++ rest)
      = some ((r.callType, r.cause), rest) := by
    simp [decodeType, readFlag, List.append_assoc, readBits_toBits (w := 4) ht, readBits_toBits (w := 8) hk]
  unfold encodeType
  split
  · rename_i p hp
    split
    · rename_i he; simp [decodeType, readFlag, hp, he.1, he.2]
    · exact long
  · exact long

theorem readDigits_encodeDigits {ds : List Nat} (h : ∀ d ∈ ds, d ≤ 9) (rest : List Bool) :
    readDigits ds.length (encodeDigits ds ++ rest) = some (ds, rest) := by
  induction ds with
  | nil => rfl
  | cons d ds ih =>
    have hd := h d (by simp)
    have tail := ih fun x hx => h x (by simp [hx])
    unfold encodeDigits at tail ⊢
    simp [readDigits, List.append_assoc, readBits_toBits (w := 4) (show d < 2 ^ 4 by omega), tail, hd]

theorem readCodes_flatMap {l : List Nat} (h : ∀ v ∈ l, v < 256) (rest : List Bool) :
    readCodes l.length (l.flatMap (toBits 8) ++ rest) = some (l, rest) := by
  induction l with
  | nil => rfl
  | cons v l ih =>
    have tail := ih fun x hx => h x (by simp [hx])
    simp [readCodes, List.append_assoc, readBits_toBits (w := 8) (h v (by simp)), tail]

theorem decodeCalling_encoded {ds : List Nat} (hl : ds.length ≤ 15) (h : ∀ d ∈ ds, d ≤ 9) (rest : List Bool) :
    decodeCalling (toBits 4 ds.length ++ encodeDigits ds ++ rest) = some (ds, rest) := by
  simp [decodeCalling, List.append_assoc, readBits_toBits (w := 4) (show ds.length < 2 ^ 4 by omega),
    readDigits_encodeDigits h]

/-- A called number written whole is read whole, as long as no slot holds its head. -/
theorem decodeCalled_whole {st : Stack} {ds : List Nat} (hl : ds.length ≤ 20) (h : ∀ d ∈ ds, d ≤ 9)
    (hm : 6 ≤ ds.length → st.lookup (ds.take 6) = none) (rest : List Bool) :
    decodeCalled st (false :: (toBits 5 ds.length ++ encodeDigits ds) ++ rest) = some (ds, rest) := by
  have absent : ¬ (6 ≤ ds.length ∧ (st.lookup (ds.take 6)).isSome = true) := fun ⟨h6, hs⟩ => by simp [hm h6] at hs
  simp [decodeCalled, readFlag, List.append_assoc, readBits_toBits (w := 5) (show ds.length < 2 ^ 5 by omega),
    readDigits_encodeDigits h, absent, Nat.not_lt.mpr hl]

/-- A called number whose head stands in the stack is read from that slot and the digits after the head. -/
theorem decodeCalled_hit {st : Stack} {ds : List Nat} (h6 : 6 ≤ ds.length) (hl : ds.length ≤ 20) (h : ∀ d ∈ ds, d ≤ 9)
    {i : Nat} (hi : st.lookup (ds.take 6) = some i) (rest : List Bool) :
    decodeCalled st (true :: (toBits 3 i ++ toBits 5 ds.length ++ encodeDigits (ds.drop 6)) ++ rest) = some (ds, rest) := by
  obtain ⟨low, here⟩ := lookup_eq_some hi
  have digits := readDigits_encodeDigits (ds := ds.drop 6) (fun d hd => h d (List.mem_of_mem_drop hd)) rest
  rw [List.length_drop] at digits
  simp [decodeCalled, readFlag, List.append_assoc, readBits_toBits (w := 3) low,
    readBits_toBits (w := 5) (show ds.length < 2 ^ 5 by omega), Nat.not_lt.mpr h6, Nat.not_lt.mpr hl, here, digits]

theorem decodeCalled_encodeCalled (st : Stack) {ds : List Nat} (hl : ds.length ≤ 20) (h : ∀ d ∈ ds, d ≤ 9)
    (rest : List Bool) : decodeCalled st (encodeCalled st ds ++ rest) = some (ds, rest) := by
  unfold encodeCalled
  split
  · rename_i h6
    split
    · rename_i i hi; exact decodeCalled_hit h6 hl h hi rest
    · rename_i hn; exact decodeCalled_whole hl h (fun _ => hn) rest
  · rename_i h6; exact decodeCalled_whole hl h (fun k => absurd k h6) rest

theorem decodeOption_encodeOption {w : Nat} {v : Option Nat} (h : ∀ n, v = some n → n < 2 ^ w) (rest : List Bool) :
    decodeOption w (encodeOption w v ++ rest) = some (v, rest) := by
  cases v with
  | none => rfl
  | some n => simp [encodeOption, decodeOption, readFlag, readBits_toBits (h n rfl)]

theorem decodeSupp_encoded {l : List Nat} (hl : l.length ≤ 4) (h : ∀ v ∈ l, v < 256) (rest : List Bool) :
    decodeSupp (toBits 3 l.length ++ l.flatMap (toBits 8) ++ rest) = some (l, rest) := by
  simp [decodeSupp, List.append_assoc, readBits_toBits (w := 3) (show l.length < 2 ^ 3 by omega),
    readCodes_flatMap h, Nat.not_lt.mpr hl]

/-! ## Records and bodies -/

theorem decodeRec_encodeRec {c : Codec} {r : Rec} (hr : r.inRange) (rest : List Bool) :
    decodeRec r.source c (encodeRec c r ++ rest) = some (r, rest) := by
  obtain ⟨callingLen, callingDigits⟩ := hr.calling
  obtain ⟨calledLen, calledDigits⟩ := hr.called
  obtain ⟨suppLen, suppCodes⟩ := hr.supp
  unfold decodeRec encodeRec
  simp only [List.append_assoc, decodeSeq_encodeSeq, decodeStart_shortOr hr.start, decodeShortOr_shortOr hr.duration,
    decodeShortOr_shortOr hr.units, decodeType_encodeType hr.callType hr.cause, bind, Option.bind_some]
  rw [← List.append_assoc (toBits 4 _), decodeCalling_encoded callingLen callingDigits]
  simp only [Option.bind_some, decodeCalled_encodeCalled _ calledLen calledDigits, decodeOption_encodeOption hr.cell,
    decodeOption_encodeOption hr.trunk]
  rw [← List.append_assoc (toBits 3 _), decodeSupp_encoded suppLen suppCodes]
  rfl

/-- The next record of a body is the one encoded next, and the decoder takes the encoder's context. -/
theorem decodeNext_encoded {h : SegHeader} {c : Codec} {r : Rec} (hr : r.inRange) (hs : r.source = h.seg.source) (i : Nat)
    (rest : List Bool) : decodeNext h { index := i, rest := encodeRec c r ++ rest, codec := c }
      = some (r, { index := i + 1, rest, codec := c.after r (encodeRec c r).length }) := by
  unfold decodeNext
  rw [← hs, decodeRec_encodeRec hr]
  simp

theorem decodeAll_encodeAll {h : SegHeader} {c : Codec} {records : List Rec} (i : Nat)
    (hr : ∀ r ∈ records, r.inRange ∧ r.source = h.seg.source) :
    decodeAll h records.length { index := i, rest := (c.encodeAll records).1, codec := c }
      = (records, { index := i + records.length, rest := [], codec := (c.encodeAll records).2 }) := by
  induction records generalizing c i with
  | nil => rfl
  | cons r t ih =>
    obtain ⟨range, source⟩ := hr r (by simp)
    have tail := ih (c := c.after r (encodeRec c r).length) (i + 1) fun x hx => hr x (by simp [hx])
    simp only [List.length_cons, decodeAll, Codec.encodeAll, decodeNext_encoded range source, tail]
    simp only [Nat.add_assoc, Nat.add_comm 1]

end Sys2Proof.Machine

open Sys2Proof Sys2Proof.Machine

/-- Settles O19: field by field for a record, and by induction on the records for a body. -/
theorem encodedRecordsDecodeBack : Obligations.EncodedRecordsDecodeBack := by
  unfold Obligations.EncodedRecordsDecodeBack
  exact ⟨fun c r rest hr => decodeRec_encodeRec hr rest, fun h c records i hr => decodeAll_encodeAll i hr⟩
end

section
/-!
SUPPORT. What a job leaves behind it with its segment: the phase of a job set, a pin released and its entry retested, and the
segment dropped (R83, R94, R121, R163, R165).
-/

namespace Sys2Proof.Machine

variable {s t : State}

/-! ## The phase of a chain's job -/

theorem setPhase_chain_eq {c : ChainRef} {j : Job} {g : SegJob} (hj : s.job c = some j) (hg : j.seg = some g)
    (p : SegPhase) : s.setPhase (.chain c) p = s.setJob c (j.withSeg { g with phase := p }) := by
  have seg : s.segJob (.chain c) = some g := by
    show (s.job c).bind Job.seg = some g
    rw [hj]
    exact hg
  unfold State.setPhase State.setSegJob
  rw [seg]
  dsimp only
  rw [hj]

/-- A chain's phase stands with its job, in the port. -/
theorem setPhase_chain_frame (s : State) (c : ChainRef) (p : SegPhase) : s.sameBut [.ports] (s.setPhase (.chain c) p) := by
  unfold State.setPhase
  split
  · unfold State.setSegJob
    dsimp only
    split
    · exact setJob_frame s c _
    · exact sameBut_refl _ s
  · exact sameBut_refl _ s

/-! ## What leaving a segment keeps -/

/-- What every operation of a job that leaves its segment keeps: the entries that wait to become durable, the append wait
list, each chain's descriptor but for its job, the segments that the catalogue lists, and what has been posted. -/
structure State.leaveKeeps (s t : State) : Prop where
  awaits : ∀ e, s.journal.awaits e → t.journal.awaits e
  wait : t.journal.wait = s.journal.wait
  addr : ∀ d, (t.chain d).desc.map Desc.addr = (s.chain d).desc.map Desc.addr
  segs : ∀ p ∈ t.catalogue, ∀ v, p.2.seg = some v → ∃ q ∈ s.catalogue, q.2.seg = some v
  posts : s.posts t

theorem leaveKeeps_refl (s : State) : s.leaveKeeps s :=
  ⟨fun _ h => h, rfl, fun _ => rfl, fun p hp _ hv => ⟨p, hp, hv⟩, posts_refl s⟩

theorem leaveKeeps_trans {u : State} (h : s.leaveKeeps t) (k : t.leaveKeeps u) : s.leaveKeeps u :=
  ⟨fun e he => k.awaits e (h.awaits e he), k.wait.trans h.wait, fun d => (k.addr d).trans (h.addr d),
    fun p hp v hv => by obtain ⟨q, hq, hw⟩ := k.segs p hp v hv; exact h.segs q hq v hw, posts_trans h.posts k.posts⟩

theorem leaveKeeps_of_roll (h : s.rollKeeps t) (hw : t.journal.wait = s.journal.wait) (hc : t.catalogue = s.catalogue) :
    s.leaveKeeps t :=
  ⟨h.awaits, hw, fun d => by rw [h.chain], fun p hp _ hv => ⟨p, hc ▸ hp, hv⟩, h.posts⟩

theorem leaveKeeps_of_frame {l : List Part} (h : s.sameBut l t)
    (hl : Part.journal ∉ l ∧ Part.ports ∉ l ∧ Part.catalogue ∉ l ∧ Part.out ∉ l) : s.leaveKeeps t := by
  obtain ⟨hj, hp, hc, ho⟩ := hl
  exact ⟨fun e he => by rw [h.journal hj]; exact he, by rw [h.journal hj], fun d => by rw [chain_of_ports (h.ports hp)],
    fun p hp _ hv => ⟨p, h.catalogue hc ▸ hp, hv⟩, posts_of_frame h ho⟩

theorem leaveKeeps_setJob (s : State) (c : ChainRef) (j : Job) : s.leaveKeeps (s.setJob c j) := by
  refine ⟨fun _ h => h, rfl, fun d => ?_, fun p hp _ hv => ⟨p, hp, hv⟩, posts_refl s⟩
  unfold State.setJob
  rw [chain_modChain]
  split
  · rename_i e; subst e; cases (s.chain d).desc <;> rfl
  · rfl

theorem leaveKeeps_setPhase (s : State) (c : ChainRef) (p : SegPhase) : s.leaveKeeps (s.setPhase (.chain c) p) := by
  unfold State.setPhase
  split
  · unfold State.setSegJob
    dsimp only
    split
    · exact leaveKeeps_setJob s c _
    · exact leaveKeeps_refl s
  · exact leaveKeeps_refl s

/-- A listed entry's segment, once an entry is replaced by one with the same segment, was listed before. -/
theorem modEntry_segs {x : Nat} {f : Entry → Entry} (hf : (f (s.entry x)).seg = (s.entry x).seg) :
    ∀ p ∈ (s.modEntry x f).catalogue, ∀ v, p.2.seg = some v → ∃ q ∈ s.catalogue, q.2.seg = some v := by
  intro p hp v hv
  unfold State.modEntry State.setEntry at hp
  split at hp
  · exact ⟨p, hp, hv⟩
  · rename_i hx
    split at hp
    · exact ⟨p, mem_of_mem_tdel hp, hv⟩
    · rcases mem_tput hp with rfl | hm
      · dsimp only at hv
        rw [hf] at hv
        unfold State.entry at hv
        rw [if_neg hx] at hv
        cases he : tget s.catalogue x with
        | none => rw [he] at hv; cases hv
        | some e => rw [he] at hv; exact ⟨(x, e), mem_of_tget he, hv⟩
      · exact ⟨p, hm, hv⟩

theorem leaveKeeps_modEntry (s : State) (x : Nat) {f : Entry → Entry} (hf : ∀ e, (f e).seg = e.seg) :
    s.leaveKeeps (s.modEntry x f) := by
  have frame := modEntry_frame s x f
  exact ⟨fun e he => by rw [frame.journal (by decide)]; exact he, by rw [frame.journal (by decide)],
    fun d => by rw [chain_of_ports (frame.ports (by decide))], modEntry_segs (hf _), posts_of_frame frame (by decide)⟩

theorem leaveKeeps_retire (s : State) (x : Nat) (v : SegFields) : s.leaveKeeps (s.retire x v) := by
  unfold State.retire
  dsimp only
  refine leaveKeeps_trans ?_ (leaveKeeps_of_roll (rollKeeps_decideLow _) (by rw [decideLow_journal])
    ((decideLow_frame _).catalogue (by decide)))
  refine leaveKeeps_trans ?_ (leaveKeeps_of_frame (setScanner_frame _ _) (by decide))
  refine leaveKeeps_trans ?_ (leaveKeeps_modEntry _ _ (by exact fun _ => rfl))
  exact leaveKeeps_of_roll (rollKeeps_appendRaw s _) (appendRaw_spec s _).2.2.wait
    ((appendRaw_frame s _).catalogue (by decide))

theorem leaveKeeps_retest (s : State) (x : Nat) : s.leaveKeeps (s.retest x) := by
  unfold State.retest
  split
  · split
    · split
      · split
        · exact leaveKeeps_refl s
        · exact leaveKeeps_retire s x _
      · exact leaveKeeps_modEntry s x fun _ => rfl
    · exact leaveKeeps_refl s
  · exact leaveKeeps_refl s

theorem leaveKeeps_releasePin (s : State) (x : Nat) : s.leaveKeeps (s.releasePin x) := by
  unfold State.releasePin
  split
  · exact leaveKeeps_trans (leaveKeeps_modEntry s x (by exact fun _ => rfl)) (leaveKeeps_setPhase _ _ _)
  · exact leaveKeeps_trans (leaveKeeps_modEntry s x (by exact fun _ => rfl)) (leaveKeeps_retest _ _)

/-- The descriptor that a chain still has. -/
theorem leaveKeeps_desc (h : s.leaveKeeps t) {c : ChainRef} {d : Desc} (hd : (s.chain c).desc = some d) :
    ∃ e, (t.chain c).desc = some e ∧ e.addr = d.addr := by
  have addr := h.addr c
  rw [hd] at addr
  exact Option.map_eq_some_iff.mp addr

theorem desc_of_job {c : ChainRef} {j : Job} (h : s.job c = some j) : ∃ d, (s.chain c).desc = some d := by
  obtain ⟨d, hd, -⟩ := Option.bind_eq_some_iff.mp (show (s.chain c).desc.bind Desc.job = some j from h)
  exact ⟨d, hd⟩

/-! ## Entries changed -/

/-- A journal extent's entry never changes (R75). -/
theorem entry_reserved (s : State) {x : Nat} (h : x < reservedExtents) :
    s.entry x = { Entry.free with state := .reserved } := if_pos h

/-- An entry changed, where the change leaves the entry of a journal extent. -/
theorem entry_modEntry_of_reserved (s : State) (x y : Nat) {f : Entry → Entry}
    (hf : f { Entry.free with state := .reserved } = { Entry.free with state := .reserved }) :
    (s.modEntry x f).entry y = if y = x then f (s.entry x) else s.entry y := by
  rcases Nat.lt_or_ge x reservedExtents with hx | hx
  · rw [entry_reserved s hx, hf]
    have same : s.modEntry x f = s := by
      unfold State.modEntry State.setEntry
      rw [if_pos hx]
    rw [same]
    split
    · rename_i e; rw [e, entry_reserved s hx]
    · rfl
  · exact entry_modEntry s x y f hx

theorem entry_of_catalogue (h : t.catalogue = s.catalogue) (y : Nat) : t.entry y = s.entry y := by
  unfold State.entry
  rw [h]

/-- An entry with segment fields belongs to no journal extent. -/
theorem reserved_le_of_seg {x : Nat} {v : SegFields} (h : (s.entry x).seg = some v) : reservedExtents ≤ x := by
  rcases Nat.lt_or_ge x reservedExtents with hx | hx
  · rw [entry_reserved s hx] at h; cases h
  · exact hx

/-! ## The retest of an entry (R121) -/

theorem activeDays_of_same (h : t.settings = s.settings) (cls : Nat) : t.activeDays cls = s.activeDays cls := by
  unfold State.activeDays
  rw [h]

theorem isDue_of_same (h : t.settings = s.settings) (hc : t.clock = s.clock) (v : SegFields) : t.isDue v = s.isDue v := by
  unfold State.isDue State.retainUntil State.today
  rw [activeDays_of_same h, hc]

theorem isDue_iff (s : State) (v : SegFields) :
    s.isDue v = true ↔ v.maxDay + s.activeDays v.cls < s.clock.value / 86400 := by
  unfold State.isDue
  rw [decide_eq_true_iff]
  rfl

theorem retest_of_not {x : Nat} (h : (s.entry x).state ≠ .expiryWait ∨ (s.entry x).pins ≠ 0) : s.retest x = s := by
  unfold State.retest
  split
  · exact if_neg fun e => h.elim (fun k => k e.1) fun k => k e.2
  · rfl

theorem retest_of_waits {x : Nat} {v : SegFields} (hv : (s.entry x).seg = some v) (hs : (s.entry x).state = .expiryWait)
    (hp : (s.entry x).pins = 0) : s.retest x = if s.isDue v then (if s.journal.low then s else s.retire x v)
      else s.modEntry x (fun e => { e with state := .sealed }) := by
  unfold State.retest
  rw [hv]
  exact if_pos ⟨hs, hp⟩

/-- A retirement leaves every other entry. -/
theorem retire_entry (s : State) {x : Nat} (v : SegFields) (hx : reservedExtents ≤ x) (y : Nat) : (s.retire x v).entry y =
    if y = x then { s.entry x with state := .retiring, retireJournal := some s.journal.next } else s.entry y := by
  unfold State.retire
  dsimp only
  rw [entry_of_catalogue ((decideLow_frame _).catalogue (by decide))]
  show (State.modEntry _ x _).entry y = _
  rw [entry_modEntry _ x y _ hx, entry_of_catalogue ((appendRaw_frame s _).catalogue (by decide)),
    entry_of_catalogue ((appendRaw_frame s _).catalogue (by decide))]

theorem appended_of_same {body : JBody} {u : State} (h : s.appended body u) (hj : t.journal = u.journal)
    (hc : t.clock = u.clock) : s.appended body t := by
  unfold State.appended
  rw [hj, hc]
  exact h

theorem retire_appended (s : State) (x : Nat) (v : SegFields) :
    s.appended (.expired x v.source v.serial v.cls (s.activeDays v.cls) (s.retainUntil v) s.today) (s.retire x v) := by
  unfold State.retire
  refine appended_decideLow (appended_of_same (appendRaw_spec s _).1 ?_ ?_)
  · exact (modEntry_frame _ x _).journal (by decide)
  · exact (modEntry_frame _ x _).clock (by decide)

/-! ## The release of a pin (R93, R94) -/

/-- The release of a chain's or the scrub's pin leaves the Audit Unit and the arbiter. -/
theorem releasePin_retire_frame (s : State) (x : Nat) : s.sameBut retireParts (s.releasePin x) := by
  unfold State.releasePin
  split
  · exact sameBut_then (modEntry_frame s _ _) (setPhase_chain_frame _ _ _) (by decide) (by decide)
  · exact sameBut_then (modEntry_frame s _ _) (retest_frame _ _) (by decide) (by decide)

theorem releasePin_of_waiting {x : Nat} {c : ChainRef} {rest : List ChainRef} (h : (s.entry x).pinWait = c :: rest) :
    s.releasePin x
      = (s.modEntry x (fun e => { e with pinWait := rest, granted := e.granted ++ [c] })).setPhase (.chain c) .pinned := by
  unfold State.releasePin
  rw [h]

theorem releasePin_of_none {x : Nat} (h : (s.entry x).pinWait = []) :
    s.releasePin x = (s.modEntry x (fun e => { e with pins := e.pins - 1 })).retest x := by
  unfold State.releasePin
  rw [h]

/-- Where the pin released leaves nothing to retest, the Journal stands as it did. -/
theorem releasePin_journal {x : Nat}
    (h : ¬ ((s.entry x).pinWait = [] ∧ (s.entry x).state = .expiryWait ∧ (s.entry x).pins ≤ 1)) :
    (s.releasePin x).journal = s.journal := by
  cases hw : (s.entry x).pinWait with
  | cons c rest =>
    rw [releasePin_of_waiting hw, (setPhase_chain_frame _ _ _).journal (by decide), (modEntry_frame s x _).journal (by decide)]
  | nil =>
    have fallen := entry_modEntry_of_reserved s x x (f := fun e => { e with pins := e.pins - 1 }) rfl
    rw [if_pos rfl] at fallen
    rw [releasePin_of_none hw, retest_of_not, (modEntry_frame s x _).journal (by decide)]
    rw [fallen]
    by_contra both
    push Not at both
    exact h ⟨hw, both.1, by have := both.2; dsimp only at this; omega⟩

theorem releasePin_entry_of_waiting {x : Nat} {c : ChainRef} {rest : List ChainRef} (h : (s.entry x).pinWait = c :: rest)
    (y : Nat) : (s.releasePin x).entry y =
      if y = x then { s.entry x with pinWait := rest, granted := (s.entry x).granted ++ [c] } else s.entry y := by
  have hx : reservedExtents ≤ x := by
    rcases Nat.lt_or_ge x reservedExtents with hx | hx
    · rw [entry_reserved s hx] at h; cases h
    · exact hx
  rw [releasePin_of_waiting h, entry_of_catalogue ((setPhase_chain_frame _ _ _).catalogue (by decide)),
    entry_modEntry s x y _ hx]

/-- An entry with one pin fewer. -/
theorem entry_lowered (s : State) (x y : Nat) : (s.modEntry x (fun e => { e with pins := e.pins - 1 })).entry y =
    if y = x then { s.entry x with pins := (s.entry x).pins - 1 } else s.entry y :=
  entry_modEntry_of_reserved s x y (f := fun e => { e with pins := e.pins - 1 }) rfl

theorem releasePin_of_fallen {x : Nat} (h : (s.entry x).pinWait = [])
    (hs : (s.entry x).state ≠ .expiryWait ∨ 1 < (s.entry x).pins) :
    s.releasePin x = s.modEntry x (fun e => { e with pins := e.pins - 1 }) := by
  rw [releasePin_of_none h, retest_of_not]
  rw [entry_lowered, if_pos rfl]
  exact hs.imp id fun hp => by dsimp only; omega

theorem releasePin_of_last {x : Nat} {v : SegFields} (h : (s.entry x).pinWait = []) (hs : (s.entry x).state = .expiryWait)
    (hp : (s.entry x).pins ≤ 1) (hv : (s.entry x).seg = some v) :
    s.releasePin x = if s.isDue v then
        (if s.journal.low then s.modEntry x (fun e => { e with pins := e.pins - 1 })
          else (s.modEntry x (fun e => { e with pins := e.pins - 1 })).retire x v)
      else (s.modEntry x (fun e => { e with pins := e.pins - 1 })).modEntry x (fun e => { e with state := .sealed }) := by
  have frame := modEntry_frame s x (fun e => { e with pins := e.pins - 1 })
  have low : (s.modEntry x (fun e => { e with pins := e.pins - 1 })).journal = s.journal := frame.journal (by decide)
  have due := isDue_of_same (frame.settings (by decide)) (frame.clock (by decide)) v
  have stands := entry_lowered s x x
  rw [if_pos rfl] at stands
  rw [releasePin_of_none h, retest_of_waits (by rw [stands]; exact hv) (by rw [stands]; exact hs)
    (by rw [stands]; dsimp only; omega), low, due]

/-- The release of a pin leaves every other entry. -/
theorem releasePin_others (s : State) {x y : Nat} (hy : y ≠ x) : (s.releasePin x).entry y = s.entry y := by
  cases hw : (s.entry x).pinWait with
  | cons c rest => rw [releasePin_entry_of_waiting hw, if_neg hy]
  | nil =>
    have lowered := entry_lowered s x y
    rw [if_neg hy] at lowered
    by_cases hs : (s.entry x).state ≠ .expiryWait ∨ 1 < (s.entry x).pins
    · rw [releasePin_of_fallen hw hs, lowered]
    · push Not at hs
      cases hv : (s.entry x).seg with
      | none =>
        have stands := entry_lowered s x x
        rw [if_pos rfl] at stands
        rw [releasePin_of_none hw]
        unfold State.retest
        rw [stands]
        dsimp only
        rw [hv]
        exact lowered
      | some v =>
        have hx := reserved_le_of_seg hv
        rw [releasePin_of_last hw hs.1 hs.2 hv]
        split
        · split
          · exact lowered
          · rw [retire_entry _ v hx, if_neg hy, lowered]
        · rw [entry_modEntry _ x y _ hx, if_neg hy, lowered]

/-! ## The segment dropped -/

/-- A job's lane, lists and queued READ given up (R83, R163, R165). -/
def State.left (s : State) (r : JobRef) : State :=
  match r with
  | .chain c => ((s.freeLane r).leaveStore r).leaveArbiter c
  | .scrub => ((s.freeLane r).leaveStore r).setArbiter { ((s.freeLane r).leaveStore r).arbiter with scrubWaits := false }

/-- And its own grant of its segment's entry. -/
def State.given (s : State) (r : JobRef) (x : Nat) : State :=
  (s.left r).modEntry x (fun e => { e with granted := e.grantedBut r })

theorem dropSeg_eq {r : JobRef} {g : SegJob} (hg : s.segJob r = some g) (hp : g.phase ≠ .waitPin) :
    s.dropSeg r = (s.given r g.extent).releasePin g.extent := by
  unfold State.dropSeg
  rw [hg]
  dsimp only
  split
  · exact absurd ‹_› hp
  · cases r <;> rfl

theorem left_frame (s : State) (r : JobRef) : s.sameBut [.arbiter, .store] (s.left r) := by
  have gone := sameBut_then (m := [.arbiter, .store]) (freeLane_frame s r) (leaveStore_frame _ r) (by decide) (by decide)
  cases r with
  | chain c => exact sameBut_then gone (leaveArbiter_frame _ c) (by decide) (by decide)
  | scrub => exact sameBut_then gone (setArbiter_frame _ _) (by decide) (by decide)

theorem given_frame (s : State) (r : JobRef) (x : Nat) : s.sameBut [.arbiter, .store, .catalogue] (s.given r x) :=
  sameBut_then (left_frame s r) (modEntry_frame _ x _) (by decide) (by decide)

theorem given_entry (s : State) (r : JobRef) (x y : Nat) : (s.given r x).entry y =
    if y = x then { s.entry x with granted := (s.entry x).grantedBut r } else s.entry y := by
  have left := entry_of_catalogue ((left_frame s r).catalogue (by decide))
  unfold State.given
  rw [entry_modEntry_of_reserved _ x y (f := fun e => { e with granted := e.grantedBut r }) rfl, left, left]

theorem given_lanes (s : State) (r : JobRef) (x : Nat) : s.lanesFreed r (s.given r x) := by
  intro l
  have kept : (s.given r x).arbiter.lanes = (s.freeLane r).arbiter.lanes := by
    unfold State.given
    rw [(modEntry_frame _ x _).arbiter (by decide)]
    cases r <;> rfl
  rw [kept]
  exact freeLane_lane s r l

/-- A job that leaves its segment leaves the Audit Unit. -/
theorem dropSeg_leave_frame {r : JobRef} {g : SegJob} (hg : s.segJob r = some g) (hp : g.phase ≠ .waitPin) :
    s.sameBut (.arbiter :: retireParts) (s.dropSeg r) := by
  rw [dropSeg_eq hg hp]
  exact sameBut_then (given_frame s r _) (releasePin_retire_frame _ _) (by decide) (by decide)

theorem dropSeg_lanes {r : JobRef} {g : SegJob} (hg : s.segJob r = some g) (hp : g.phase ≠ .waitPin) :
    s.lanesFreed r (s.dropSeg r) := by
  rw [dropSeg_eq hg hp]
  intro l
  rw [(releasePin_retire_frame _ _).arbiter (by decide)]
  exact given_lanes s r g.extent l

theorem dropSeg_keeps {r : JobRef} {g : SegJob} (hg : s.segJob r = some g) (hp : g.phase ≠ .waitPin) :
    s.leaveKeeps (s.dropSeg r) := by
  rw [dropSeg_eq hg hp]
  refine leaveKeeps_trans (leaveKeeps_trans (leaveKeeps_of_frame (left_frame s r) (by decide)) ?_) (leaveKeeps_releasePin _ _)
  exact leaveKeeps_modEntry _ _ fun _ => rfl

/-- Where nothing is retested, a job that leaves its segment leaves the Journal. -/
theorem dropSeg_journal {r : JobRef} {g : SegJob} (hg : s.segJob r = some g) (hp : g.phase ≠ .waitPin)
    (h : ¬ ((s.entry g.extent).pinWait = [] ∧ (s.entry g.extent).state = .expiryWait ∧ (s.entry g.extent).pins ≤ 1)) :
    (s.dropSeg r).journal = s.journal := by
  have stands := given_entry s r g.extent g.extent
  rw [if_pos rfl] at stands
  rw [dropSeg_eq hg hp, releasePin_journal (by rw [stands]; exact h), (given_frame s r _).journal (by decide)]

/-- The pin of a job that leaves its segment is released. -/
theorem dropSeg_pinReleased {r : JobRef} {g : SegJob} (hg : s.segJob r = some g) (hp : g.phase ≠ .waitPin) :
    s.pinReleased g.extent r (s.dropSeg r) := by
  have frame := given_frame s r g.extent
  have stands := given_entry s r g.extent
  have here := stands g.extent
  rw [if_pos rfl] at here
  rw [dropSeg_eq hg hp]
  generalize g.extent = x at *
  generalize s.given r x = w at *
  refine ⟨fun c rest hw => ?_, fun hw hs => ?_, fun v hw hs hp hv => ?_, fun y hy => ?_⟩
  · rw [releasePin_entry_of_waiting (by rw [here]; exact hw), if_pos rfl, here]
  · rw [releasePin_of_fallen (by rw [here]; exact hw) (by rw [here]; exact hs), entry_lowered, if_pos rfl, here]
  · have released := releasePin_of_last (s := w) (x := x) (v := v) (by rw [here]; exact hw) (by rw [here]; exact hs)
      (by rw [here]; exact hp) (by rw [here]; exact hv)
    have hx := reserved_le_of_seg hv
    have settings := frame.settings (by decide)
    have clock := frame.clock (by decide)
    have lowered := entry_lowered w x x
    rw [if_pos rfl, here, show ({ s.entry x with granted := (s.entry x).grantedBut r } : Entry).pins - 1 = 0 by
      dsimp only; omega] at lowered
    have due := isDue_iff s v
    rw [isDue_of_same settings clock, frame.journal (by decide)] at released
    have lowFrame := modEntry_frame w x (fun e => { e with pins := e.pins - 1 })
    dsimp only at lowered ⊢
    rw [← due, released]
    refine ⟨fun not => ?_, fun due low => ?_, fun due low => ?_⟩
    · rw [if_neg not, entry_modEntry _ x x _ hx, if_pos rfl, lowered]
    · rw [if_pos due, if_pos low, lowered]
    · rw [if_pos due, if_neg (by rw [low]; exact Bool.false_ne_true)]
      have journal := (lowFrame.journal (by decide)).trans (frame.journal (by decide))
      refine ⟨by rw [retire_entry _ v hx, if_pos rfl, lowered, journal], ?_⟩
      have appended := retire_appended (w.modEntry x (fun e => { e with pins := e.pins - 1 })) x v
      have days := activeDays_of_same ((lowFrame.settings (by decide)).trans settings) v.cls
      unfold State.retainUntil State.today State.appended at appended
      rw [days, journal, lowFrame.clock (by decide), clock] at appended
      exact appended
  · rw [releasePin_others w hy, stands, if_neg hy]

end Sys2Proof.Machine
end

section
/-!
SUPPORT. The search of a retrieval: to a segment of a greater serial, or to its completion DONE (R126, R131).
-/

namespace Sys2Proof.Machine

variable {s t : State}

/-! ## A retrieval on its way to a segment -/

/-- A retrieval on the segment of a seal serial, with the counts of another. -/
structure Retrieval.wentTo (r : Retrieval) (serial : Nat) (q : Retrieval) : Prop where
  current : ∃ g, q.current = some g ∧ g.serial = serial
  filled : q.filled = r.filled
  whole : q.whole = r.whole
  failed : q.failed = r.failed

/-- A chain's job is such a retrieval. -/
def State.goesTo (s : State) (c : ChainRef) (r : Retrieval) (serial : Nat) : Prop :=
  ∃ q, s.job c = some (.retrieval q) ∧ r.wentTo serial q

variable {c : ChainRef} {r : Retrieval} {serial : Nat}

theorem goesTo_of_job (h : s.goesTo c r serial) (hj : t.job c = s.job c) : t.goesTo c r serial := by
  unfold State.goesTo
  rw [hj]
  exact h

theorem goesTo_of_frame {l : List Part} (h : s.goesTo c r serial) (hf : s.sameBut l t) (hl : Part.ports ∉ l) :
    t.goesTo c r serial := goesTo_of_job h (job_of_chain (chain_of_ports (hf.ports hl) c))

theorem goesTo_setChainState (h : s.goesTo c r serial) (st : ChainState) : (s.setChainState c st).goesTo c r serial :=
  goesTo_of_job h (job_setChainState s c c st)

theorem goesTo_setPhase (h : s.goesTo c r serial) (p : SegPhase) : (s.setPhase (.chain c) p).goesTo c r serial := by
  obtain ⟨q, hj, ⟨g, hg, hn⟩, filled, whole, failed⟩ := h
  rw [setPhase_chain_eq hj hg]
  exact ⟨_, job_setJob_of_job hj _, ⟨_, rfl, hn⟩, filled, whole, failed⟩

theorem goesTo_startRead (h : s.goesTo c r serial) (x : Nat) (b : Bool) : (s.startRead (.chain c) x b).goesTo c r serial := by
  unfold State.startRead
  have asked := goesTo_of_frame h (request_frame s (channelOf x) (.segRead x (some (.chain c)) b)) (by decide)
  dsimp only
  split
  · exact goesTo_setChainState (goesTo_setPhase asked _) _
  · exact goesTo_setChainState (goesTo_setPhase asked _) _

theorem goesTo_goOnPinned (h : s.goesTo c r serial) (x : Nat) : (s.goOnPinned c x).goesTo c r serial := by
  unfold State.goOnPinned
  refine goesTo_startRead ?_ x false
  obtain ⟨q, hj, current, filled, whole, failed⟩ := h
  rw [hj]
  dsimp only
  split
  · exact ⟨_, job_setJob_of_job hj _, current, filled, whole, failed⟩
  · exact ⟨q, hj, current, filled, whole, failed⟩

theorem goesTo_askPin (h : s.goesTo c r serial) (x : Nat) : (s.askPin c x).goesTo c r serial := by
  unfold State.askPin
  split
  · exact goesTo_goOnPinned (goesTo_of_frame h (modEntry_frame s x _) (by decide)) x
  · exact goesTo_setChainState (goesTo_setPhase (goesTo_of_frame h (modEntry_frame s x _) (by decide)) _) _

/-! ## The parts that a chain's read and pin touch -/

theorem startRead_chain_frame (s : State) (c : ChainRef) (x : Nat) (b : Bool) :
    s.sameBut [.store, .ports] (s.startRead (.chain c) x b) := by
  unfold State.startRead
  have begun : ∀ p st, s.sameBut [.store, .ports]
      (((s.request (channelOf x) (.segRead x (some (.chain c)) b)).setPhase (.chain c) p).setChainState c st) := fun p st =>
    sameBut_then (sameBut_then (m := [.store, .ports]) (request_frame s _ _) (setPhase_chain_frame _ c p) (by decide)
      (by decide)) (setChainState_frame _ c st) (by decide) (by decide)
  exact sameBut_ite (begun _ _) (begun _ _)

theorem goOnPinned_chain_frame (s : State) (c : ChainRef) (x : Nat) : s.sameBut [.store, .ports] (s.goOnPinned c x) := by
  unfold State.goOnPinned
  refine sameBut_trans ?_ (startRead_chain_frame _ c x false)
  split
  · exact sameBut_ite (sameBut_mono (setJob_frame _ _ _) (by decide)) (sameBut_refl _ _)
  · exact sameBut_refl _ _

theorem askPin_chain_frame (s : State) (c : ChainRef) (x : Nat) : s.sameBut [.catalogue, .store, .ports] (s.askPin c x) := by
  unfold State.askPin
  refine sameBut_ite ?_ ?_
  · exact sameBut_then (modEntry_frame s x _) (goOnPinned_chain_frame _ c x) (by decide) (by decide)
  · exact sameBut_then (sameBut_then (m := [.catalogue, .ports]) (modEntry_frame s x _) (setPhase_chain_frame _ c _)
      (by decide) (by decide)) (setChainState_frame _ c _) (by decide) (by decide)

/-- A search leaves the Audit Unit and the arbiter. -/
theorem search_chain_frame (s : State) (c : ChainRef) :
    s.sameBut [.catalogue, .store, .ports, .files, .out] (s.search c) := by
  unfold State.search
  split
  · dsimp only
    split
    · exact sameBut_then (setJob_frame s c _) (askPin_chain_frame _ c _) (by decide) (by decide)
    · exact sameBut_mono (complete_frame s c _) (by decide)
  · exact sameBut_refl _ s

theorem posts_search (s : State) (c : ChainRef) : s.posts (s.search c) := by
  unfold State.search
  split
  · dsimp only
    split
    · exact posts_of_frame (sameBut_then (m := [.catalogue, .store, .ports]) (setJob_frame s c _) (askPin_chain_frame _ c _)
        (by decide) (by decide)) (by decide)
    · exact posts_complete s c _
  · exact posts_refl s

/-! ## The segment found -/

/-- A segment ahead of a job's position has the greater serial. -/
theorem ahead_gt {e : Entry} {n p : Nat} (h : r.ahead e = some n) (hp : r.position = some p) : p < n := by
  unfold Retrieval.ahead at h
  rw [hp] at h
  split at h
  · split at h
    · rename_i hw; cases h; simpa using hw.2
    · cases h
  · cases h

theorem find_gt {audit : Bool} {cat : Table Entry} {n x p : Nat} (h : r.find audit cat = some (n, x))
    (hp : r.position = some p) : p < n := by
  unfold Retrieval.find at h
  refine List.foldlRecOn (motive := fun best : Option (Nat × Nat) => ∀ b, best = some b → p < b.1) cat _ (by simp)
    (fun best hb e _ b hn => ?_) (n, x) h
  split at hn
  · rename_i m _ ha
    have gt : p < m := by
      split at ha
      · exact ahead_gt ha hp
      · cases ha
    split at hn
    · cases hn; exact gt
    · exact hb b hn
  · rename_i m ha
    split at ha
    · cases hn; exact ahead_gt ha hp
    · cases ha
  · exact hb b hn

/-- Where nothing lies ahead nothing is found. -/
theorem find_none {audit : Bool} {cat : Table Entry} (h : ∀ p ∈ cat, r.ahead p.2 = none) : r.find audit cat = none := by
  unfold Retrieval.find
  refine List.foldlRecOn (motive := fun best : Option (Nat × Nat) => best = none) cat _ rfl fun best hb e he => ?_
  rw [hb, h e he]
  simp

/-- Nor is anything passed over. -/
theorem passes_none {cat : Table Entry} (h : ∀ p ∈ cat, r.ahead p.2 = none) : r.passes cat none = 0 := by
  unfold Retrieval.passes
  rw [List.countP_eq_zero]
  intro e he
  rw [h e he]
  simp

/-- A search goes to a segment of a greater serial, or its job completes. -/
theorem search_goesOn (hj : s.job c = some (.retrieval r)) : (s.search c).job c = none
    ∨ ∃ n, (s.search c).goesTo c r n ∧ ∀ p, r.position = some p → p < n := by
  obtain ⟨d, hd⟩ := desc_of_job hj
  unfold State.search
  rw [hj]
  dsimp only
  split
  · rename_i n x hf
    refine .inr ⟨n, goesTo_askPin (r := r) (serial := n) ⟨_, job_setJob_of_job hj _, ?_⟩ x, fun p hp => find_gt hf hp⟩
    exact ⟨⟨_, rfl, rfl⟩, rfl, rfl, rfl⟩
  · exact .inl (complete_job_none hd _)

/-- A search with nothing ahead completes its job DONE. -/
theorem search_of_none (hj : s.job c = some (.retrieval r)) (h : ∀ p ∈ s.catalogue, r.ahead p.2 = none) :
    s.search c = s.complete c (r.completion .done none s.settings.lastSeal) := by
  unfold State.search
  rw [hj]
  dsimp only
  rw [find_none h]
  dsimp only
  rw [passes_none h]
  congr 1
  simp [Retrieval.completion]

end Sys2Proof.Machine
end

section
/-!
SUPPORT. A retrieval whose segment has ended, and a record delivered (R94, R128 to R131).
-/

namespace Sys2Proof.Machine

variable {s t u : State} {c : ChainRef} {r q : Retrieval} {g : SegJob} {e : SegEnd}

/-! ## What stands in for another state -/

theorem pinReleased_of_same {x : Nat} {ref : JobRef} (h : s.pinReleased x ref u) (hc : t.catalogue = u.catalogue)
    (hj : t.journal = u.journal) (hk : t.clock = u.clock) : s.pinReleased x ref t := by
  have entry := entry_of_catalogue hc
  refine ⟨fun d rest hw => (entry x).trans (h.granted d rest hw), fun hw hs => (entry x).trans (h.fallen hw hs),
    fun v hw hs hp hv => ?_, fun y hy => (entry y).trans (h.others y hy)⟩
  obtain ⟨ahead, low, gone⟩ := h.retested v hw hs hp hv
  refine ⟨fun due => (entry x).trans (ahead due), fun due hl => (entry x).trans (low due hl), fun due hl => ?_⟩
  exact ⟨(entry x).trans (gone due hl).1, appended_of_same (gone due hl).2 hj hk⟩

/-- A record placed and counted leaves what the release of a pin is judged by. -/
theorem pinReleased_of_placed {x : Nat} {ref : JobRef} {o : Output} {j : Job}
    (h : ((s.emit o).setJob c j).pinReleased x ref t) : s.pinReleased x ref t :=
  ⟨h.granted, h.fallen, h.retested, h.others⟩

/-! ## The end of a segment -/

/-- A retrieval that has counted its segment and is on none. -/
structure Retrieval.counted (r : Retrieval) (e : SegEnd) (filled : Nat) (q : Retrieval) : Prop where
  filled : q.filled = filled
  whole : ∀ m, e = .whole m → q.whole = r.whole + 1 ∧ q.failed = r.failed
  failed : ∀ f, e = .failed f → q.whole = r.whole ∧ q.failed = r.failed + 1
  kept : q.source = r.source ∧ q.a = r.a ∧ q.b = r.b ∧ q.position = r.position ∧ q.gone = r.gone
    ∧ q.passedOver = r.passedOver ∧ q.delivered = r.delivered

/-- Where every segment that a job wants stands behind its position, nothing lies ahead of it. -/
theorem ahead_none {x : Entry} (h : ∀ v, x.seg = some v → q.source = none ∨ q.source = some v.source → v.minDay ≤ q.b →
    q.a ≤ v.maxDay → ∃ n, q.position = some n ∧ v.serial ≤ n) : q.ahead x = none := by
  unfold Retrieval.ahead
  split
  · rename_i v hv
    rw [if_neg]
    rintro ⟨wanted, beyond⟩
    unfold Retrieval.wants at wanted
    simp only [Bool.and_eq_true, Bool.or_eq_true, Option.isNone_iff_eq_none, beq_iff_eq, decide_eq_true_iff] at wanted
    obtain ⟨n, hn, hle⟩ := h v hv wanted.1.1 wanted.1.2 wanted.2
    rw [hn] at beyond
    simp at beyond
    omega
  · rfl

/-- The search of a retrieval that has left its segment and counted it, with a failure reported before. -/
theorem retrievalEnds_search (lanes : s.lanesFreed (.chain c) u) (pin : s.pinReleased g.extent (.chain c) u)
    (keeps : s.leaveKeeps u) (frame : s.sameBut (.audit :: .arbiter :: retireParts) u)
    (whole : ∀ m, e = .whole m → u.audit = s.audit)
    (failed : ∀ f, e = .failed f → u.audit = { s.audit with reports := s.audit.reports ++ [⟨g.extent, g.serial, f⟩] })
    (hj : ∃ j, s.job c = some j) {filled : Nat} (hq : r.counted e filled q) :
    s.retrievalEnds c r g e filled ((u.setJob c (.retrieval q)).search c) := by
  obtain ⟨j, hj⟩ := hj
  obtain ⟨d, hd⟩ := desc_of_job hj
  obtain ⟨d', hd', addr⟩ := leaveKeeps_desc keeps hd
  obtain ⟨source, a, b, position, gone, passedOver, delivered⟩ := hq.kept
  have job : (u.setJob c (.retrieval q)).job c = some (.retrieval q) := by rw [job_setJob, if_pos rfl, hd']; rfl
  have searched := search_chain_frame (u.setJob c (.retrieval q)) c
  have goesOn := search_goesOn job
  have quiet := search_of_none job
  generalize hw : u.setJob c (.retrieval q) = w at *
  have set : u.sameBut [.ports] w := hw ▸ setJob_frame u c _
  have desc : ∃ d'', (w.chain c).desc = some d'' ∧ d''.addr = d.addr := by
    obtain ⟨d'', hd'', same⟩ := leaveKeeps_desc (hw ▸ leaveKeeps_setJob u c (.retrieval q)) hd'
    exact ⟨d'', hd'', same.trans addr⟩
  have toSearch := sameBut_then (m := [.catalogue, .store, .ports, .files, .out]) set searched (by decide) (by decide)
  refine ⟨fun l => ?_, fun m hm => ?_, fun f hf => ?_, ?_, fun behind => ?_, ?_⟩
  · rw [toSearch.arbiter (by decide)]
    exact lanes l
  · rw [toSearch.audit (by decide)]
    exact whole m hm
  · rw [toSearch.audit (by decide)]
    exact failed f hf
  · refine goesOn.imp id ?_
    rintro ⟨n, ⟨r', hr', ⟨g', hg', serial⟩, filled', whole', failed'⟩, beyond⟩
    refine ⟨r', g', hr', hg', filled'.trans hq.filled, fun m hm => ?_, fun f hf => ?_, fun p hp => ?_⟩
    · rw [whole', failed']; exact hq.whole m hm
    · rw [whole', failed']; exact hq.failed f hf
    · rw [serial]; exact beyond p (position.trans hp)
  · have finished := quiet fun p hp => ahead_none fun v hv hs hb ha => by
      rw [set.catalogue (by decide)] at hp
      obtain ⟨p', hp', hv'⟩ := keeps.segs p hp v hv
      rw [position]
      exact behind p' hp' v hv' (source ▸ hs) (b ▸ hb) (a ▸ ha)
    obtain ⟨d'', hd'', same⟩ := desc
    have ended := complete_frame w c (q.completion .done none w.settings.lastSeal)
    rw [finished]
    refine ⟨complete_job_none hd'' _, ?_, fun k hk n m hn hm => ?_⟩
    · exact pinReleased_of_same pin ((ended.catalogue (by decide)).trans (set.catalogue (by decide)))
        ((ended.journal (by decide)).trans (set.journal (by decide))) ((ended.clock (by decide)).trans (set.clock (by decide)))
    · cases hd.symm.trans hk
      have posted := mem_out_complete hd'' (q.completion .done none w.settings.lastSeal)
      have settings : w.settings = s.settings := (set.settings (by decide)).trans (frame.settings (by decide))
      have counts : q.whole = n ∧ q.failed = m := by
        cases e with
        | whole k => obtain ⟨h1, h2⟩ := hq.whole k rfl; obtain ⟨k1, k2⟩ := hn k rfl; omega
        | failed k => obtain ⟨h1, h2⟩ := hq.failed k rfl; obtain ⟨k1, k2⟩ := hm k rfl; omega
      generalize (w.complete c _).out = out at posted ⊢
      unfold Retrieval.completion at posted
      rw [same, settings, hq.filled, counts.1, counts.2, gone, passedOver, delivered] at posted
      exact posted
  · exact sameBut_then frame toSearch (by decide) (by decide)

theorem phase_ne_waitPin {h : SegHeader} {d : Decode} (hp : g.phase = .decoding h d) : g.phase ≠ .waitPin := by
  rw [hp]; exact SegPhase.noConfusion

/-- A retrieval whose segment has ended. -/
theorem retrievalEnds_of_job (hj : s.job c = some (.retrieval r)) (hg : r.current = some g) (hp : g.phase ≠ .waitPin)
    (e : SegEnd) : s.retrievalEnds c r g e r.filled (s.segEnded (.chain c) e) := by
  have seg : s.segJob (.chain c) = some g := by
    show (s.job c).bind Job.seg = some g
    rw [hj]
    exact hg
  have lanes := dropSeg_lanes seg hp
  have pin := dropSeg_pinReleased seg hp
  have keeps := dropSeg_keeps seg hp
  have frame := dropSeg_leave_frame seg hp
  have ended : s.segEnded (.chain c) e = s.retrievalSegEnd c r g e := by
    unfold State.segEnded
    dsimp only
    rw [hj]
    dsimp only
    rw [hg]
  rw [ended]
  unfold State.retrievalSegEnd
  dsimp only
  cases e with
  | whole m =>
    refine retrievalEnds_search (e := .whole m) lanes pin keeps (sameBut_mono frame (by decide))
      (fun _ _ => frame.audit (by decide)) nofun ⟨_, hj⟩ ?_
    exact ⟨rfl, fun _ _ => ⟨rfl, rfl⟩, nofun, by simp⟩
  | failed f =>
    have reported := setAudit_frame (s.dropSeg (.chain c))
      { (s.dropSeg (.chain c)).audit with reports := (s.dropSeg (.chain c)).audit.reports ++ [⟨g.extent, g.serial, f⟩] }
    refine retrievalEnds_search (e := .failed f) ?_ ?_ ?_ ?_ nofun (fun k hk => ?_) ⟨_, hj⟩ ?_
    · exact fun l => lanes l
    · exact pinReleased_of_same pin rfl rfl rfl
    · exact leaveKeeps_trans keeps (leaveKeeps_of_frame reported (by decide))
    · exact sameBut_then frame reported (by decide) (by decide)
    · cases hk
      rw [State.setAudit_audit, frame.audit (by decide)]
    · exact ⟨rfl, nofun, fun _ _ => ⟨rfl, rfl⟩, by simp⟩

/-- The state in which a record has been placed and its retrieval counts it. -/
def State.placed (s : State) (c : ChainRef) (o : Output) (r : Retrieval) : State := (s.emit o).setJob c (.retrieval r)

theorem placed_frame (s : State) (c : ChainRef) (o : Output) (r : Retrieval) : s.sameBut [.out, .ports] (s.placed c o r) :=
  sameBut_then (emit_frame s o) (setJob_frame _ c _) (by decide) (by decide)

theorem placed_job {o : Output} {j : Job} (hj : s.job c = some j) (r : Retrieval) :
    (s.placed c o r).job c = some (.retrieval r) := job_setJob_of_job (s := s.emit o) hj _

/-- A retrieval whose segment ends with a record placed and counted. -/
theorem retrievalEnds_of_placed {o : Output} {n filled : Nat} {i : Option Nat}
    (h : (s.placed c o { r with filled := n, lastIndex := i }).retrievalEnds c { r with filled := n, lastIndex := i } g e
      filled t) : s.retrievalEnds c r g e filled t := by
  refine ⟨h.lanes, h.whole, h.failed, h.goesOn, fun behind => ?_, ?_⟩
  · obtain ⟨job, pin, posted⟩ := h.done behind
    refine ⟨job, pinReleased_of_placed pin, fun d hd n m hn hm => ?_⟩
    obtain ⟨d', hd', same⟩ := leaveKeeps_desc
      (leaveKeeps_setJob (s.emit o) c (.retrieval { r with filled := _, lastIndex := i })) (d := d) hd
    rw [← same]
    exact posted d' hd' n m hn hm
  · exact sameBut_then (placed_frame s c o _) h.frame (by decide) (by decide)

/-! ## The record decoded -/

variable {ref : JobRef} {h : SegHeader} {d d' : Decode} {x : Rec}

theorem segJob_of_job {j : Job} (hj : s.job c = some j) (hg : j.seg = some g) : s.segJob (.chain c) = some g := by
  show (s.job c).bind Job.seg = some g
  rw [hj]
  exact hg

theorem decodeOne_of_failure (hg : s.segJob ref = some g) (hp : g.phase = .decoding h d) (hn : decodeNext h d = none) :
    s.decodeOne ref = s.segEnded ref (.failed (.decodeFailure d.index)) := by
  unfold State.decodeOne
  rw [hg]
  dsimp only
  rw [hp]
  dsimp only
  rw [hn]

theorem decodeOne_of_record (hg : s.segJob ref = some g) (hp : g.phase = .decoding h d)
    (hn : decodeNext h d = some (x, d')) : s.decodeOne ref = if (s.handRecord ref g d.index x).2 then
      (s.handRecord ref g d.index x).1.decodeStands ref h (decodeBetween h d') else (s.handRecord ref g d.index x).1 := by
  unfold State.decodeOne
  rw [hg]
  dsimp only
  rw [hp]
  dsimp only
  rw [hn]

/-- A decode with a record after this one goes on to it. -/
theorem decodeStands_of_more (s : State) (ref : JobRef) (hn : decodeNext h d = some (x, d')) (he : endOf h d = none) :
    s.decodeStands ref h (decodeBetween h d') = s.setPhase ref (.decoding h d') := by
  unfold endOf at he
  rw [hn] at he
  dsimp only at he
  split at he
  · rename_i more
    unfold decodeBetween
    rw [if_neg (by simpa using more)]
    rfl
  · split at he <;> cases he

/-- A decode without one ends as its body and its count have it. -/
theorem decodeStands_of_end (s : State) (ref : JobRef) (hn : decodeNext h d = some (x, d')) (he : endOf h d = some e) :
    s.decodeStands ref h (decodeBetween h d') = s.segEnded ref e := by
  unfold endOf at he
  rw [hn] at he
  dsimp only at he
  unfold decodeBetween
  split at he
  · cases he
  · rename_i consumed
    rw [if_pos (by simpa using consumed)]
    split at he <;> cases he
    · rw [if_pos ‹_›]; rfl
    · rw [if_neg ‹_›]; rfl

/-- Where no record comes next the decode ends with a failure. -/
theorem endOf_of_failure (hn : decodeNext h d = none) : endOf h d = some (.failed (.decodeFailure d.index)) := by
  unfold endOf
  rw [hn]

/-! ## A record delivered -/

/-- Whether a record is in a retrieval's range and not before its cursor (R129). -/
def Retrieval.inRange (r : Retrieval) (i : Nat) (x : Rec) : Prop :=
  r.start ≤ i ∧ r.a ≤ x.start / 86400 ∧ x.start / 86400 ≤ r.b

/-- The record that a retrieval delivers (R132, R134). -/
def Retrieval.shaped (r : Retrieval) (x : Rec) : Rec :=
  match r.projection with
  | some p => project p x
  | none => x

/-- A retrieval that has placed a record (R129). -/
def Retrieval.took (r : Retrieval) (i : Nat) : Retrieval := { r with filled := r.filled + 1, lastIndex := some i }

/-- The place that a record is delivered into (R129). -/
def Retrieval.placeOf (r : Retrieval) (p : PortId) (x : Rec) : Output :=
  placeAt p r.buf.addr r.filled (.record (r.shaped x))

theorem inRange_iff (r : Retrieval) (i : Nat) (x : Rec) :
    r.inRange i x ↔ ¬ (i < r.start ∨ dayOf x.start < r.a ∨ r.b < dayOf x.start) := by
  unfold Retrieval.inRange dayOf daySeconds
  omega

theorem deliver_of_unwanted {i : Nat} (hw : ¬ r.inRange i x) : s.deliver c r g i x = (s, true) := by
  unfold State.deliver
  rw [if_pos (by rw [inRange_iff, not_not] at hw; exact hw)]

theorem deliver_of_room {i : Nat} (hw : r.inRange i x) (hr : r.filled + 1 < countRead r.buf.count) :
    s.deliver c r g i x = (s.placed c (r.placeOf c.port x) (r.took i), true) := by
  unfold State.deliver
  rw [if_neg ((inRange_iff r i x).mp hw)]
  dsimp only
  rw [if_neg (Nat.not_le.mpr hr)]
  rfl

theorem deliver_of_full {i : Nat} (hw : r.inRange i x) (hr : countRead r.buf.count ≤ r.filled + 1) :
    s.deliver c r g i x = (((s.placed c (r.placeOf c.port x) (r.took i)).dropSeg (.chain c)).complete c
      ((r.took i).completion .donePartial (some ⟨g.serial, i + 1⟩)
        ((s.placed c (r.placeOf c.port x) (r.took i)).dropSeg (.chain c)).settings.lastSeal), false) := by
  unfold State.deliver
  rw [if_neg ((inRange_iff r i x).mp hw)]
  dsimp only
  rw [if_pos hr]
  rfl

theorem handRecord_of_retrieval (hj : s.job c = some (.retrieval r)) (i : Nat) :
    s.handRecord (.chain c) g i x = s.deliver c r g i x := by
  unfold State.handRecord
  dsimp only
  rw [hj]

/-! ## What the delivery leaves -/

/-- A full buffer completes the job DONE_PARTIAL, its lane and its pin given back (R94, R131). -/
theorem deliver_full_ends (hj : s.job c = some (.retrieval r)) (hg : r.current = some g) (hp : g.phase ≠ .waitPin)
    {i : Nat} (hw : r.inRange i x) (hr : countRead r.buf.count ≤ r.filled + 1) :
    let t := (s.deliver c r g i x).1
    (∃ more, t.out = s.out ++ r.placeOf c.port x :: more)
      ∧ t.job c = none ∧ s.lanesFreed (.chain c) t ∧ s.pinReleased g.extent (.chain c) t
      ∧ t.audit = s.audit
      ∧ (∀ desc, (s.chain c).desc = some desc → .completion c.port (desc.addr + 32)
          { status := .donePartial, flags := { Flags.none with cursorGone := r.gone }, mismatch := false,
            stateAfter := none, countDone := r.filled + 1,
            results := .retrieval r.whole r.passedOver r.failed r.delivered (some ⟨g.serial, i + 1⟩)
              s.settings.lastSeal } ∈ t.out)
      ∧ s.sameBut [.out, .catalogue, .store, .scanner, .journal, .files, .ports, .arbiter] t := by
  rw [deliver_of_full hw hr]
  dsimp only
  have toPlaced := placed_frame s c (r.placeOf c.port x) (r.took i)
  have seg : (s.placed c (r.placeOf c.port x) (r.took i)).segJob (.chain c) = some g :=
    segJob_of_job (placed_job hj _) hg
  have out : (s.placed c (r.placeOf c.port x) (r.took i)).out = s.out ++ [r.placeOf c.port x] := rfl
  have addr := (leaveKeeps_setJob (s.emit (r.placeOf c.port x)) c (.retrieval (r.took i))).addr c
  have pin : ∀ {t}, (s.placed c (r.placeOf c.port x) (r.took i)).pinReleased g.extent (.chain c) t →
      s.pinReleased g.extent (.chain c) t := pinReleased_of_placed
  change ((s.placed c (r.placeOf c.port x) (r.took i)).chain c).desc.map Desc.addr = (s.chain c).desc.map Desc.addr at addr
  generalize s.placed c (r.placeOf c.port x) (r.took i) = p at *
  have frame := dropSeg_leave_frame seg hp
  have keeps := dropSeg_keeps seg hp
  have lanes := dropSeg_lanes seg hp
  have released := pin (dropSeg_pinReleased seg hp)
  have toDrop := sameBut_then (m := [.out, .catalogue, .store, .scanner, .journal, .ports, .arbiter]) toPlaced frame
    (by decide) (by decide)
  generalize p.dropSeg (.chain c) = u at *
  obtain ⟨k, hk⟩ := desc_of_job hj
  obtain ⟨k', hk', same⟩ : ∃ k', (u.chain c).desc = some k' ∧ k'.addr = k.addr := by
    have there := (keeps.addr c).trans addr
    rw [hk] at there
    exact Option.map_eq_some_iff.mp there
  have ended := complete_frame u c ((r.took i).completion .donePartial (some ⟨g.serial, i + 1⟩) u.settings.lastSeal)
  refine ⟨?_, complete_job_none hk' _, fun l => ?_, ?_, ?_, fun desc hd => ?_, ?_⟩
  · obtain ⟨more, hm⟩ := posts_trans keeps.posts (posts_complete u c _)
    exact ⟨more, by rw [hm, out, List.append_assoc]; rfl⟩
  · rw [ended.arbiter (by decide), lanes l, toPlaced.arbiter (by decide)]
  · exact pinReleased_of_same released (ended.catalogue (by decide)) (ended.journal (by decide)) (ended.clock (by decide))
  · rw [ended.audit (by decide), toDrop.audit (by decide)]
  · cases hk.symm.trans hd
    have posted := mem_out_complete hk' ((r.took i).completion .donePartial (some ⟨g.serial, i + 1⟩) u.settings.lastSeal)
    generalize (u.complete c _).out = out at posted ⊢
    rw [same, toDrop.settings (by decide)] at posted
    exact posted
  · exact sameBut_then toDrop ended (by decide) (by decide)

end Sys2Proof.Machine
end

section
/-!
SUPPORT. The outcome of a verification: what it leaves in the entry and writes to the Journal, and the entry once the pin is
released (R140, R141, R152).
-/

namespace Sys2Proof.Machine

variable {s t u : State}

/-! ## An entry asked for -/

theorem appendsOrWaits_of_same {body : JBody} {note : AppendNote} (h : u.appendsOrWaits body note t)
    (hj : u.journal = s.journal) (hs : u.settings = s.settings) : s.appendsOrWaits body note t := by
  have room := canAppend_of_release (n := 1) hj (congrArg Settings.release hs)
  refine ⟨fun can => ?_, fun full => ?_⟩
  · have done := h.appended (room.trans can)
    unfold State.appended at done ⊢
    rw [← hj]
    exact done
  · rw [← hj]
    exact h.waits (room.trans full)

/-- An append asked for, with an effect that leaves the Journal and the clock. -/
theorem ask_appendsOrWaits (s : State) (body : JBody) {note : AppendNote}
    (hn : ∀ (u : State) n, (u.applyNote note n).journal = u.journal ∧ (u.applyNote note n).clock = u.clock) :
    s.appendsOrWaits body note (s.ask body note) := by
  refine ⟨fun can => ?_, fun full => ?_⟩
  · rw [ask_of_canAppend can]
    exact appended_decideLow (appended_of_same (appendRaw_spec s body).1 (hn _ _).1 (hn _ _).2)
  · rw [ask_of_not_canAppend full]
    obtain ⟨wait, next⟩ := joinAppend_wait s (.entry body note)
    exact ⟨next, wait⟩

theorem plain_note (u : State) (n : Nat) :
    (u.applyNote .plain n).journal = u.journal ∧ (u.applyNote .plain n).clock = u.clock := ⟨rfl, rfl⟩

theorem reported_note (x : Nat) (u : State) (n : Nat) :
    (u.applyNote (.reported x) n).journal = u.journal ∧ (u.applyNote (.reported x) n).clock = u.clock :=
  ⟨(modEntry_frame u x _).journal (by decide), (modEntry_frame u x _).clock (by decide)⟩

/-- What is asked for is in the Journal or waits for its place. -/
theorem asked_of_appendsOrWaits {body : JBody} {note : AppendNote} (h : s.appendsOrWaits body note t) : t.asked body note := by
  cases hc : s.canAppend 1 with
  | true => exact .inl ⟨_, (h.appended hc).2⟩
  | false => exact .inr (by rw [(h.waits hc).2]; simp)

theorem rollKeeps_modEntry (s : State) (x : Nat) (f : Entry → Entry) : s.rollKeeps (s.modEntry x f) := by
  have frame := modEntry_frame s x f
  exact rollKeeps_of_frame frame (by decide) fun e he => by rw [frame.journal (by decide)]; exact he

theorem rollKeeps_ask (s : State) (body : JBody) {note : AppendNote} (hn : ∀ (u : State) n, u.rollKeeps (u.applyNote note n)) :
    s.rollKeeps (s.ask body note) := by
  unfold State.ask
  split
  · exact rollKeeps_trans (rollKeeps_trans (rollKeeps_appendRaw s body) (hn _ _)) (rollKeeps_decideLow _)
  · exact rollKeeps_joinAppend s _

theorem rollKeeps_ask_plain (s : State) (body : JBody) : s.rollKeeps (s.ask body .plain) :=
  rollKeeps_ask s body fun w _ => rollKeeps_refl w

theorem area_decideLow (s : State) (p : PortId) : (s.decideLow.port p).area = (s.port p).area := by
  rcases decideLow_port s p with h | h
  · rw [h]
  · rw [h]; rfl

/-- An entry asked for with its report leaves each port's notice area. -/
theorem area_ask_reported (s : State) (body : JBody) (x : Nat) (p : PortId) :
    ((s.ask body (.reported x)).port p).area = (s.port p).area := by
  cases hc : s.canAppend 1 with
  | true =>
    rw [ask_of_canAppend hc]
    refine (area_decideLow _ p).trans ?_
    show ((State.modEntry _ x _).port p).area = _
    rw [port_of_ports ((modEntry_frame _ x _).ports (by decide)), port_of_ports ((appendRaw_frame s body).ports (by decide))]
  | false =>
    rw [ask_of_not_canAppend hc]
    refine (area_decideLow _ p).trans ?_
    rw [port_of_ports ((reserveWait_frame _).ports (by decide))]
    rfl

/-- The report pending mark is taken back where the entry is appended at once. -/
theorem entry_ask_reported (s : State) (body : JBody) {x : Nat} (hx : reservedExtents ≤ x) (y : Nat) :
    (s.ask body (.reported x)).entry y =
      if y = x ∧ s.canAppend 1 = true then { s.entry x with reports := (s.entry x).reports - 1 } else s.entry y := by
  have raw := entry_of_catalogue ((appendRaw_frame s body).catalogue (by decide))
  cases hc : s.canAppend 1 with
  | true =>
    rw [ask_of_canAppend hc]
    refine (entry_of_catalogue ((decideLow_frame _).catalogue (by decide)) y).trans ?_
    refine (entry_modEntry _ x y _ hx).trans ?_
    simp only [raw, and_true]
  | false =>
    rw [ask_of_not_canAppend hc, entry_of_catalogue ((joinAppend_frame s _).catalogue (by decide))]
    simp

/-! ## The notice of damage -/

/-- An ARCHIVE notice to every port is written into each enabled area. -/
theorem mem_out_noticeAll {p : PortId} {area : NoticeArea} (ha : (s.port p).area = some area) (hi : area.archive = true)
    (o : NoticeObject) : ∃ n, .notice p (area.addr + 128) .archive .damagedFound o s.clock.value n
      ∈ (s.noticeAll .damagedFound o).out := by
  have each : ∀ (l : List PortId), p ∈ l → ∀ (u : State), (u.port p).area = some area → u.clock = s.clock →
      ∃ n, .notice p (area.addr + 128) .archive .damagedFound o s.clock.value n
        ∈ (l.foldl (fun v q => v.notice q .damagedFound o) u).out := by
    intro l
    induction l with
    | nil => intro hp; cases hp
    | cons q l ih =>
      intro hp u hu hk
      rw [List.foldl_cons]
      by_cases e : p = q
      · subst e
        refine ⟨((u.port p).countNotice .archive).noticeCount .archive,
          mem_out_of_posts (posts_foldl (fun v q => posts_notice v q _ _) l _) ?_⟩
        rw [notice_out, ← hk]
        refine List.mem_append_right _ ?_
        unfold noticePosts
        rw [hu]
        dsimp only
        rw [if_pos (show area.enables (NoticeKind.cls .damagedFound) = true from hi)]
        exact List.mem_cons_self
      · refine ih ((List.mem_cons.mp hp).resolve_left e) _ ?_ (((notice_frame u q _ o).clock (by decide)).trans hk)
        rw [port_notice, if_neg e]
        exact hu
  exact each four (mem_four p) s ha rfl

/-! ## The outcome applied -/

theorem allEqual_eq (o : FieldOutcomes) :
    allEqual o = decide (o = ⟨false, false, false, false, false, false, false, false⟩) := by
  obtain ⟨o1, o2, o3, o4, o5, o6, o7, o8⟩ := o
  rw [Bool.eq_iff_iff]
  simp [allEqual, and_assoc]

theorem judged_verdict (f : SegFields) (e : SegEnd) : judged f e (e.verdict f).outcomes (e.verdict f).failure := by
  cases e with
  | whole m => exact ⟨fun k hk => by cases hk; exact ⟨rfl, rfl⟩, nofun⟩
  | failed k => exact ⟨nofun, fun l hl => by cases hl; exact ⟨rfl, rfl⟩⟩

/-- The entry once a verification's outcome stands in it, its pins aside (R141). -/
def State.verifiedEntry (s : State) (x : Nat) (passes : Bool) : Entry :=
  { s.entry x with
    state := stateVerified (s.entry x).state passes, verify := some (s.clock.value / 86400, passes),
    reports := if passes = false ∧ (s.entry x).state ≠ EntryState.damaged ∧ s.canAppend 1 = false
      then (s.entry x).reports + 1 else (s.entry x).reports }

/-- The outcome noted in the entry (R141). -/
def State.outcomeNoted (s : State) (x : Nat) (passes : Bool) : State :=
  s.modEntry x (fun e => { e with verify := some (s.today, passes) })

variable {x : Nat} {f : SegFields}

theorem applyVerdict_eq (hv : (s.entry x).seg = some f) (finder : Finder) (port : Option PortId) (jp : Bool) (v : Verdict) :
    s.applyVerdict x finder port jp v =
      if v.passes then
        (if (s.entry x).state = .damaged then
          ((s.outcomeNoted x v.passes).modEntry x (fun e => { e with state := .sealed })).ask (.verified x f.serial finder true)
            .plain
        else if jp then (s.outcomeNoted x v.passes).ask (.verified x f.serial finder false) .plain
        else s.outcomeNoted x v.passes)
      else if (s.entry x).state = .damaged then s.outcomeNoted x v.passes
      else (s.outcomeNoted x v.passes).quarantine x f.source f.serial finder v port := by
  have seg : ((s.modEntry x (fun e => { e with verify := some (s.today, v.passes) })).entry x).seg = some f := by
    rw [entry_modEntry s x x _ (reserved_le_of_seg hv), if_pos rfl]
    exact hv
  unfold State.applyVerdict State.outcomeNoted
  dsimp only
  rw [seg]

theorem outcomeNoted_entry (hv : (s.entry x).seg = some f) (passes : Bool) (y : Nat) : (s.outcomeNoted x passes).entry y =
    if y = x then { s.entry x with verify := some (s.clock.value / 86400, passes) } else s.entry y :=
  entry_modEntry s x y _ (reserved_le_of_seg hv)

theorem outcomeNoted_frame (s : State) (x : Nat) (passes : Bool) : s.sameBut [.catalogue] (s.outcomeNoted x passes) :=
  modEntry_frame s x _

/-- The outcome stands in its entry, and every other entry is as it was. -/
theorem applyVerdict_entry (hv : (s.entry x).seg = some f) (finder : Finder) (port : Option PortId) (jp : Bool) (v : Verdict)
    (y : Nat) : (s.applyVerdict x finder port jp v).entry y = if y = x then s.verifiedEntry x v.passes else s.entry y := by
  have hx := reserved_le_of_seg hv
  have noted := outcomeNoted_entry hv v.passes
  have plain := fun (u : State) body => entry_of_catalogue ((ask_plain_frame u body).catalogue (by decide)) y
  rw [applyVerdict_eq hv]
  unfold State.verifiedEntry stateVerified
  split
  · rename_i pass
    rw [pass] at noted ⊢
    split
    · rename_i damaged
      rw [plain, entry_modEntry _ x y _ hx, noted, noted]
      by_cases hy : y = x <;> simp [hy, damaged]
    · rename_i sound
      split
      · rw [plain, noted]; simp [sound]
      · rw [noted]; simp [sound]
  · rename_i fails
    rw [Bool.not_eq_true] at fails
    rw [fails] at noted ⊢
    split
    · rename_i damaged
      rw [noted]
      simp [damaged]
    · rename_i sound
      have full : ∀ g, ((s.outcomeNoted x false).modEntry x g).canAppend 1 = s.canAppend 1 := fun g =>
        canAppend_of_release (((modEntry_frame _ x g).journal (by decide)).trans
            ((outcomeNoted_frame s x false).journal (by decide)))
          (congrArg Settings.release (((modEntry_frame _ x g).settings (by decide)).trans
            ((outcomeNoted_frame s x false).settings (by decide)))) 1
      unfold State.quarantine
      dsimp only
      rw [entry_of_catalogue ((noticeAll_frame _ _ _).catalogue (by decide)), entry_ask_reported _ _ hx, full,
        entry_modEntry _ x y _ hx, entry_modEntry _ x x _ hx, noted, noted]
      by_cases hy : y = x <;> cases can : s.canAppend 1 <;> simp [hy, sound]

end Sys2Proof.Machine
end

section
/-!
SUPPORT. What a verification's outcome writes to the Journal and tells the ports (R141, R152).
-/

namespace Sys2Proof.Machine

variable {s t u : State} {x : Nat} {f : SegFields} {finder : Finder} {port : Option PortId} {jp : Bool}

theorem appendsOrWaits_to_same {body : JBody} {note : AppendNote} (h : s.appendsOrWaits body note u)
    (hj : t.journal = u.journal) (hk : t.clock = u.clock) : s.appendsOrWaits body note t := by
  refine ⟨fun can => appended_of_same (h.appended can) hj hk, fun full => ?_⟩
  rw [hj]
  exact h.waits full

/-- What stands in the Journal and has been posted stands where both go on. -/
theorem verdictJournaled_of_same {outcomes : FieldOutcomes} {failure : Option SegFailure} {passes : Bool}
    (h : s.verdictJournaled x f finder port jp outcomes failure passes u) (hj : t.journal = u.journal)
    (hk : t.clock = u.clock) (hp : u.posts t) : s.verdictJournaled x f finder port jp outcomes failure passes t := by
  refine ⟨fun fails sound => ?_, fun pass damaged => ?_, fun pass sound journal => ?_, fun quiet => ?_⟩
  · obtain ⟨asked, told⟩ := h.damaged fails sound
    refine ⟨appendsOrWaits_to_same asked hj hk, fun p area ha hi => ?_⟩
    obtain ⟨n, posted⟩ := told p area ha hi
    exact ⟨n, mem_out_of_posts hp posted⟩
  · exact appendsOrWaits_to_same (h.restored pass damaged) hj hk
  · exact appendsOrWaits_to_same (h.passed pass sound journal) hj hk
  · exact hj.trans (h.silent quiet)

/-! ## The outcome of each kind -/

section
variable (hv : (s.entry x).seg = some f) {v : Verdict}
include hv

theorem applyVerdict_of_restored (pass : v.passes = true) (damaged : (s.entry x).state = .damaged) :
    s.applyVerdict x finder port jp v =
      ((s.outcomeNoted x true).modEntry x (fun e => { e with state := .sealed })).ask (.verified x f.serial finder true)
        .plain := by
  rw [applyVerdict_eq hv, if_pos pass, if_pos damaged, pass]

theorem applyVerdict_of_passed (pass : v.passes = true) (sound : (s.entry x).state ≠ .damaged) :
    s.applyVerdict x finder port true v = (s.outcomeNoted x true).ask (.verified x f.serial finder false) .plain := by
  rw [applyVerdict_eq hv, if_pos pass, if_neg sound, pass]
  exact if_pos rfl

theorem applyVerdict_of_quarantined (fails : v.passes = false) (sound : (s.entry x).state ≠ .damaged) :
    s.applyVerdict x finder port jp v = (s.outcomeNoted x false).quarantine x f.source f.serial finder v port := by
  rw [applyVerdict_eq hv, fails, if_neg Bool.false_ne_true, if_neg sound]

theorem applyVerdict_of_silent
    (quiet : v.passes = true ∧ (s.entry x).state ≠ .damaged ∧ jp = false
      ∨ v.passes = false ∧ (s.entry x).state = .damaged) :
    s.applyVerdict x finder port jp v = s.outcomeNoted x v.passes := by
  rw [applyVerdict_eq hv]
  rcases quiet with ⟨pass, sound, journal⟩ | ⟨fails, damaged⟩
  · rw [if_pos pass, if_neg sound, journal, if_neg Bool.false_ne_true]
  · rw [fails, if_neg Bool.false_ne_true, if_pos damaged]

end

/-! ## The Journal -/

/-- A failed verification's DAMAGED entry, and the notice of it. -/
theorem quarantine_journaled (s : State) (x source serial : Nat) (finder : Finder) (v : Verdict) (port : Option PortId) :
    s.appendsOrWaits (.damaged x source serial finder v.outcomes v.failure port) (.reported x)
      (s.quarantine x source serial finder v port)
    ∧ ∀ p area, (s.port p).area = some area → area.archive = true →
      ∃ n, .notice p (area.addr + 128) .archive .damagedFound (.segment x serial) s.clock.value n
        ∈ (s.quarantine x source serial finder v port).out := by
  unfold State.quarantine
  dsimp only
  have marked := modEntry_frame s x (fun e => { e with state := .damaged, reports := e.reports + 1 })
  generalize s.modEntry x (fun e => { e with state := .damaged, reports := e.reports + 1 }) = w at *
  have asked := ask_appendsOrWaits w (.damaged x source serial finder v.outcomes v.failure port) (reported_note x)
  have frame := ask_reported_frame w (.damaged x source serial finder v.outcomes v.failure port) x
  have area := area_ask_reported w (.damaged x source serial finder v.outcomes v.failure port) x
  generalize w.ask (.damaged x source serial finder v.outcomes v.failure port) (.reported x) = a at *
  have told := noticeAll_frame a .damagedFound (.segment x serial)
  refine ⟨?_, fun p b hb hi => ?_⟩
  · refine appendsOrWaits_of_same ?_ (marked.journal (by decide)) (marked.settings (by decide))
    exact appendsOrWaits_to_same asked (told.journal (by decide)) (told.clock (by decide))
  · have posted := mem_out_noticeAll (s := a) (p := p) (area := b)
      (by rw [area, port_of_ports (marked.ports (by decide))]; exact hb) hi (.segment x serial)
    rw [frame.clock (by decide), marked.clock (by decide)] at posted
    exact posted

/-- A verification's outcome, journaled. -/
theorem applyVerdict_journaled (hv : (s.entry x).seg = some f) (finder : Finder) (port : Option PortId) (jp : Bool)
    (v : Verdict) : s.verdictJournaled x f finder port jp v.outcomes v.failure v.passes
      (s.applyVerdict x finder port jp v) := by
  have noted := outcomeNoted_frame s x
  refine ⟨fun fails sound => ?_, fun pass damaged => ?_, fun pass sound journal => ?_, fun quiet => ?_⟩
  · rw [applyVerdict_of_quarantined hv fails sound]
    obtain ⟨asked, told⟩ := quarantine_journaled (s.outcomeNoted x false) x f.source f.serial finder v port
    refine ⟨appendsOrWaits_of_same asked ((noted false).journal (by decide)) ((noted false).settings (by decide)),
      fun p area ha hi => ?_⟩
    obtain ⟨n, posted⟩ := told p area (by rw [port_of_ports ((noted false).ports (by decide))]; exact ha) hi
    rw [(noted false).clock (by decide)] at posted
    exact ⟨n, posted⟩
  · rw [applyVerdict_of_restored hv pass damaged]
    have restored := sameBut_then (m := [.catalogue]) (noted true)
      (modEntry_frame _ x (fun e => { e with state := .sealed })) (by decide) (by decide)
    exact appendsOrWaits_of_same (ask_appendsOrWaits _ _ plain_note) (restored.journal (by decide))
      (restored.settings (by decide))
  · subst journal
    rw [applyVerdict_of_passed hv pass sound]
    exact appendsOrWaits_of_same (ask_appendsOrWaits _ _ plain_note) ((noted true).journal (by decide))
      ((noted true).settings (by decide))
  · rw [applyVerdict_of_silent hv quiet]
    exact (noted v.passes).journal (by decide)

/-! ## What an outcome keeps -/

theorem rollKeeps_quarantine (s : State) (x source serial : Nat) (finder : Finder) (v : Verdict) (port : Option PortId) :
    s.rollKeeps (s.quarantine x source serial finder v port) := by
  unfold State.quarantine
  dsimp only
  refine rollKeeps_trans (rollKeeps_trans (rollKeeps_modEntry s x _) (rollKeeps_ask _ _ fun u _ => ?_)) (rollKeeps_noticeAll _ _ _)
  exact rollKeeps_modEntry u x (fun e => { e with reports := e.reports - 1 })

theorem rollKeeps_applyVerdict (hv : (s.entry x).seg = some f) (finder : Finder) (port : Option PortId) (jp : Bool)
    (v : Verdict) : s.rollKeeps (s.applyVerdict x finder port jp v) := by
  have noted : s.rollKeeps (s.outcomeNoted x v.passes) := rollKeeps_modEntry s x _
  rw [applyVerdict_eq hv]
  split
  · split
    · exact rollKeeps_trans (rollKeeps_trans noted (rollKeeps_modEntry _ x _)) (rollKeeps_ask_plain _ _)
    · split
      · exact rollKeeps_trans noted (rollKeeps_ask_plain _ _)
      · exact noted
  · split
    · exact noted
    · exact rollKeeps_trans noted (rollKeeps_quarantine _ _ _ _ _ _ _)

end Sys2Proof.Machine
end

section
/-!
SUPPORT. A verification that leaves its segment: its outcome in the entry, whose pin is released (R94, R121, R139 to R141).
-/

namespace Sys2Proof.Machine

variable {s t u : State}

/-- Entries that stand as they did, with the Journal's going on. -/
theorem entryVerified_of_same {x : Nat} {r : JobRef} {passes : Bool} (h : s.entryVerified x r passes u)
    (hc : t.catalogue = u.catalogue) (hk : t.clock.value = u.clock.value)
    (ha : ∀ e, u.journal.awaits e → t.journal.awaits e) : s.entryVerified x r passes t := by
  have entry := entry_of_catalogue hc
  obtain ⟨granted, fallen, retested⟩ := h.entry
  refine ⟨⟨fun c rest hw => (entry x).trans (granted c rest hw), fun hw hs => (entry x).trans (fallen hw hs),
    fun again v hv => ?_⟩, fun y hy => (entry y).trans (h.others y hy)⟩
  obtain ⟨ahead, due⟩ := retested again v hv
  refine ⟨fun not => (entry x).trans (ahead not), fun late => ?_⟩
  rcases due late with stands | ⟨n, retiring, awaits⟩
  · exact .inl ((entry x).trans stands)
  · refine .inr ⟨n, (entry x).trans retiring, ?_⟩
    rw [hk]
    exact ha _ awaits

/-! ## The outcome, then the pin -/

section
variable {r : JobRef} {g : SegJob} {f : SegFields} (hg : s.segJob r = some g) (hp : g.phase ≠ .waitPin)
  (hv : (s.entry g.extent).seg = some f) (finder : Finder) (port : Option PortId) (jp : Bool) (v : Verdict)

include hg hv in
/-- An outcome leaves its job on the segment. -/
theorem applyVerdict_segJob : (s.applyVerdict g.extent finder port jp v).segJob r = some g := by
  rw [← hg]
  cases r with
  | chain c =>
    show (State.job _ c).bind Job.seg = (s.job c).bind Job.seg
    rw [job_of_chain ((rollKeeps_applyVerdict hv finder port jp v).chain c)]
  | scrub => exact congrArg Audit.scrub ((applyVerdict_frame s _ _ _ _ _).audit (by decide))

include hv in
/-- The release retests where the outcome and the last pin have it so. -/
theorem retestsAfter_iff : s.retestsAfter g.extent v.passes ↔
    (((s.applyVerdict g.extent finder port jp v).entry g.extent).pinWait = []
      ∧ ((s.applyVerdict g.extent finder port jp v).entry g.extent).state = .expiryWait
      ∧ ((s.applyVerdict g.extent finder port jp v).entry g.extent).pins ≤ 1) := by
  rw [applyVerdict_entry hv, if_pos rfl]
  rfl

include hg hp hv

theorem verified_lanes : s.lanesFreed r ((s.applyVerdict g.extent finder port jp v).dropSeg r) := by
  intro l
  rw [← (applyVerdict_frame s g.extent finder port jp v).arbiter (by decide)]
  exact dropSeg_lanes (applyVerdict_segJob hg hv finder port jp v) hp l

theorem verified_frame :
    s.sameBut (.arbiter :: retireParts) ((s.applyVerdict g.extent finder port jp v).dropSeg r) :=
  sameBut_then (applyVerdict_frame s g.extent finder port jp v)
    (dropSeg_leave_frame (applyVerdict_segJob hg hv finder port jp v) hp) (by decide) (by decide)

theorem verified_keeps :
    (s.applyVerdict g.extent finder port jp v).leaveKeeps ((s.applyVerdict g.extent finder port jp v).dropSeg r) :=
  dropSeg_keeps (applyVerdict_segJob hg hv finder port jp v) hp

/-- The outcome stands in the entry, whose pin is released. -/
theorem verified_entry :
    s.entryVerified g.extent r v.passes ((s.applyVerdict g.extent finder port jp v).dropSeg r) := by
  have stands := applyVerdict_entry hv finder port jp v
  have here := stands g.extent
  rw [if_pos rfl] at here
  have frame := applyVerdict_frame s g.extent finder port jp v
  have pin := dropSeg_pinReleased (applyVerdict_segJob hg hv finder port jp v) hp
  generalize s.applyVerdict g.extent finder port jp v = u at *
  generalize u.dropSeg r = t at *
  have days := activeDays_of_same (frame.settings (by decide))
  have clock := frame.clock (by decide)
  obtain ⟨granted, fallen, retested, others⟩ := pin
  rw [here] at granted fallen retested
  refine ⟨⟨granted, fallen, fun again k hk => ?_⟩, fun y hy => ?_⟩
  · obtain ⟨wait, expiry, last⟩ := again
    obtain ⟨ahead, low, gone⟩ := retested k wait expiry last hk
    rw [days, clock] at ahead low gone
    refine ⟨ahead, fun due => ?_⟩
    cases hl : u.journal.low with
    | true => exact .inl (low due hl)
    | false =>
      obtain ⟨retiring, appended⟩ := gone due hl
      have today : u.today = s.today := by unfold State.today; rw [clock]
      rw [today] at appended
      exact .inr ⟨_, retiring, appended.2⟩
  · rw [others y hy, stands, if_neg hy]

/-- Where nothing is retested the Journal holds what the outcome wrote. -/
theorem verified_journaled (again : ¬ s.retestsAfter g.extent v.passes) :
    s.verdictJournaled g.extent f finder port jp v.outcomes v.failure v.passes
      ((s.applyVerdict g.extent finder port jp v).dropSeg r) := by
  have seg := applyVerdict_segJob hg hv finder port jp v
  refine verdictJournaled_of_same (applyVerdict_journaled hv finder port jp v) ?_ ?_ (dropSeg_keeps seg hp).posts
  · exact dropSeg_journal seg hp (by rw [← retestsAfter_iff hv finder port jp v]; exact again)
  · exact (dropSeg_leave_frame seg hp).clock (by decide)

/-- A pass to be journaled is asked for, a retest or none. -/
theorem verified_asked (pass : v.passes = true) (sound : (s.entry g.extent).state ≠ .damaged) (journal : jp = true) :
    ((s.applyVerdict g.extent finder port jp v).dropSeg r).asked (.verified g.extent f.serial finder false) .plain := by
  have seg := applyVerdict_segJob hg hv finder port jp v
  have keeps := dropSeg_keeps seg hp
  rcases asked_of_appendsOrWaits ((applyVerdict_journaled hv finder port jp v).passed pass sound journal) with ⟨n, h⟩ | h
  · refine .inl ⟨n, ?_⟩
    rw [(dropSeg_leave_frame seg hp).clock (by decide)]
    exact keeps.awaits _ h
  · refine .inr ?_
    rw [keeps.wait]
    exact h

end

/-- Only a pass of an entry not in DAMAGED leaves it to be retested. -/
theorem passes_of_retestsAfter {x : Nat} {passes : Bool} (h : s.retestsAfter x passes) :
    passes = true ∧ (s.entry x).state ≠ .damaged := by
  obtain ⟨-, expiry, -⟩ := h
  unfold stateVerified at expiry
  split at expiry
  · rename_i pass
    refine ⟨pass, fun damaged => ?_⟩
    rw [if_pos damaged] at expiry
    cases expiry
  · cases expiry

end Sys2Proof.Machine
end

section
/-!
SUPPORT. The end of a VERIFY and of a scrub verification (R94, R139 to R141, R144, R145).
-/

namespace Sys2Proof.Machine

variable {s : State} {f : SegFields} {e : SegEnd}

/-! ## A VERIFY -/

section
variable {c : ChainRef} {v : Verify}

/-- The completion of a VERIFY. -/
def verifyCompletion (after : EntryState) (v : Verdict) (restored : Bool) : Completion :=
  { Completion.doneWith (.verify v.outcomes v.failure restored) with stateAfter := some (.entry after) }

theorem segEnded_verify (hj : s.job c = some (.verify v)) (hv : (s.entry v.seg.extent).seg = some f) (e : SegEnd) :
    s.segEnded (.chain c) e =
      ((s.applyVerdict v.seg.extent .verify (some c.port) v.journalPass (e.verdict f)).dropSeg (.chain c)).complete c
        (verifyCompletion (stateVerified (s.entry v.seg.extent).state (e.verdict f).passes) (e.verdict f)
          ((e.verdict f).passes && decide ((s.entry v.seg.extent).state = .damaged))) := by
  have after := applyVerdict_entry hv .verify (some c.port) v.journalPass (e.verdict f) v.seg.extent
  rw [if_pos rfl] at after
  unfold State.segEnded
  dsimp only
  rw [hj]
  dsimp only
  unfold State.verifySegEnd
  dsimp only
  rw [hv]
  dsimp only
  rw [after]
  rfl

theorem verifyEnds_of_job (hj : s.job c = some (.verify v)) (hp : v.seg.phase ≠ .waitPin)
    (hv : (s.entry v.seg.extent).seg = some f) (e : SegEnd) : s.verifyEnds c v f e (s.segEnded (.chain c) e) := by
  have seg : s.segJob (.chain c) = some v.seg := segJob_of_job hj rfl
  have found := segEnded_verify hj hv e
  have chains := (rollKeeps_applyVerdict hv .verify (some c.port) v.journalPass (e.verdict f)).chain c
  have lanes := verified_lanes seg hp hv .verify (some c.port) v.journalPass (e.verdict f)
  have frame := verified_frame seg hp hv .verify (some c.port) v.journalPass (e.verdict f)
  have keeps := verified_keeps seg hp hv .verify (some c.port) v.journalPass (e.verdict f)
  have entry := verified_entry seg hp hv .verify (some c.port) v.journalPass (e.verdict f)
  have journaled := verified_journaled seg hp hv .verify (some c.port) v.journalPass (e.verdict f)
  have asked := verified_asked seg hp hv .verify (some c.port) v.journalPass (e.verdict f)
  have judgement := judged_verdict f e
  have passes : (e.verdict f).passes = _ := allEqual_eq (e.verdict f).outcomes
  generalize e.verdict f = w at *
  generalize s.applyVerdict v.seg.extent .verify (some c.port) v.journalPass w = u at *
  generalize u.dropSeg (.chain c) = z at *
  generalize hw : verifyCompletion (stateVerified (s.entry v.seg.extent).state w.passes) w
    (w.passes && decide ((s.entry v.seg.extent).state = .damaged)) = word at *
  obtain ⟨d, hd⟩ := desc_of_job hj
  obtain ⟨d', hd', same⟩ := leaveKeeps_desc keeps (show (u.chain c).desc = some d by rw [chains]; exact hd)
  have ended := complete_frame z c word
  have journal := ended.journal (by decide)
  have clock := ended.clock (by decide)
  rw [found]
  refine ⟨fun l => ?_, complete_job_none hd' word, ⟨w.outcomes, w.failure, w.passes, judgement, passes, ?_, ?_, ?_, ?_⟩, ?_⟩
  · rw [ended.arbiter (by decide)]
    exact lanes l
  · exact entryVerified_of_same entry (ended.catalogue (by decide)) (by rw [clock]) fun _ h => by rw [journal]; exact h
  · exact fun again => verdictJournaled_of_same (journaled again) journal clock (posts_complete z c word)
  · intro again journalPass
    obtain ⟨pass, sound⟩ := passes_of_retestsAfter again
    unfold State.asked
    rw [journal, clock]
    exact asked pass sound journalPass
  · intro k hk
    cases hd.symm.trans hk
    rw [← same]
    subst hw
    exact mem_out_complete hd' _
  · exact sameBut_then frame ended (by decide) (by decide)

end

/-! ## A scrub verification -/

section
variable {g : SegJob}

theorem segEnded_scrub (hg : s.audit.scrub = some g) (hv : (s.entry g.extent).seg = some f) (e : SegEnd) :
    s.segEnded .scrub e =
      ((s.applyVerdict g.extent .scrub none false (e.verdict f)).dropSeg .scrub).scrubDone
        (scrubVerified ((e.verdict f).passes && decide ((s.entry g.extent).state = .damaged)) (e.verdict f).passes) := by
  unfold State.segEnded
  dsimp only
  rw [hg]
  dsimp only
  unfold State.scrubSegEnd
  rw [hv]

/-- The scrub goes on to the next extent, its pass not yet complete (R144). -/
theorem scrubDone_of_more (s : State) {count : PassCounts → PassCounts}
    (h : (s.audit.pointer + 1) % 131072 ≠ s.audit.passStart) : s.scrubDone count =
      s.setAudit { s.audit with scrub := none, pointer := (s.audit.pointer + 1) % 131072,
                                counts := count { s.audit.counts with considered := s.audit.counts.considered + 1 } } :=
  if_neg h

/-- A pass that comes back to its start asks for its entry and begins anew (R145). -/
theorem scrubDone_of_pass (s : State) {count : PassCounts → PassCounts}
    (h : (s.audit.pointer + 1) % 131072 = s.audit.passStart) : s.scrubDone count =
      (s.setAudit { s.audit with scrub := none, pointer := (s.audit.pointer + 1) % 131072, counts := PassCounts.zero }).ask
        (.scrubPass s.audit.passStart (count { s.audit.counts with considered := s.audit.counts.considered + 1 })) .plain :=
  if_pos h

/-- The counts with one extent verified (R144). -/
theorem scrubVerified_eq (restored passed : Bool) (k : PassCounts) :
    scrubVerified restored passed { k with considered := k.considered + 1 } =
      { considered := k.considered + 1, verified := k.verified + 1, passed := k.passed + (if passed then 1 else 0),
        damaged := k.damaged + (if passed then 0 else 1), restored := k.restored + (if restored then 1 else 0),
        busy := k.busy } := by
  cases passed <;> cases restored <;> rfl

/-- The scrub, done with an extent, leaves what else the release left. -/
theorem scrubDone_keeps (s : State) (count : PassCounts → PassCounts) :
    (s.scrubDone count).arbiter = s.arbiter ∧ (s.scrubDone count).catalogue = s.catalogue
      ∧ (s.scrubDone count).clock = s.clock ∧ ∀ e, s.journal.awaits e → (s.scrubDone count).journal.awaits e := by
  by_cases h : (s.audit.pointer + 1) % 131072 = s.audit.passStart
  · rw [scrubDone_of_pass s h]
    generalize hw : s.setAudit _ = w
    have set : s.sameBut [.audit] w := hw ▸ setAudit_frame s _
    generalize JBody.scrubPass _ _ = body
    have asked := ask_plain_frame w body
    refine ⟨(asked.arbiter (by decide)).trans (set.arbiter (by decide)),
      (asked.catalogue (by decide)).trans (set.catalogue (by decide)),
      (asked.clock (by decide)).trans (set.clock (by decide)), fun e he => (rollKeeps_ask_plain w body).awaits e ?_⟩
    rw [set.journal (by decide)]
    exact he
  · rw [scrubDone_of_more s h]
    exact ⟨rfl, rfl, rfl, fun _ he => he⟩

theorem scrubEnds_of_job (hg : s.audit.scrub = some g) (hp : g.phase ≠ .waitPin)
    (hv : (s.entry g.extent).seg = some f) (e : SegEnd) : s.scrubEnds g f e (s.segEnded .scrub e) := by
  have found := segEnded_scrub hg hv e
  have lanes := verified_lanes (r := .scrub) hg hp hv .scrub none false (e.verdict f)
  have frame := verified_frame (r := .scrub) hg hp hv .scrub none false (e.verdict f)
  have entry := verified_entry (r := .scrub) hg hp hv .scrub none false (e.verdict f)
  have journaled := verified_journaled (r := .scrub) hg hp hv .scrub none false (e.verdict f)
  have judgement := judged_verdict f e
  have passes : (e.verdict f).passes = _ := allEqual_eq (e.verdict f).outcomes
  generalize e.verdict f = w at *
  generalize (s.applyVerdict g.extent .scrub none false w).dropSeg .scrub = z at *
  have audit := frame.audit (by decide)
  rw [found]
  obtain ⟨arbiter, catalogue, clock, awaits⟩ :=
    scrubDone_keeps z (scrubVerified (w.passes && decide ((s.entry g.extent).state = .damaged)) w.passes)
  refine ⟨fun l => ?_, ⟨w.outcomes, w.failure, w.passes, judgement, passes, ?_, fun more => ?_, fun pass => ?_⟩, ?_⟩
  · rw [arbiter]
    exact lanes l
  · exact entryVerified_of_same entry catalogue (by rw [clock]) awaits
  · rw [scrubDone_of_more z (by rw [audit]; exact more), audit, scrubVerified_eq]
    exact ⟨rfl, fun again => verdictJournaled_of_same (journaled again) rfl rfl (posts_refl z)⟩
  · rw [scrubDone_of_pass z (by rw [audit]; exact pass), audit, scrubVerified_eq]
    exact ⟨(ask_plain_frame _ _).audit (by decide), asked_of_appendsOrWaits (ask_appendsOrWaits _ _ plain_note)⟩
  · exact sameBut_then frame (scrubDone_frame z _) (by decide) (by decide)

end

end Sys2Proof.Machine
end

section
/-!
SUPPORT. A decoded record handed to its job: to a retrieval that delivers it, or to a verification (R67, R68, R129, R140).
-/

namespace Sys2Proof.Machine

variable {s w : State} {ref : JobRef} {c : ChainRef} {g : SegJob} {h : SegHeader} {d d' : Decode} {x : Rec} {e : SegEnd}

/-- The record of a lane's job. -/
theorem exec_decodedRecord {lane : LaneNo} (hl : s.arbiter.lanes[lane.val] = some ref) :
    exec (.decodedRecord lane) s = .next (s.decodeOne ref) := by
  show Host.Outcome.next (match s.arbiter.lanes[lane.val] with | some r => s.decodeOne r | none => s) = _
  rw [hl]

/-! ## A record handed over -/

section
variable (hg : s.segJob ref = some g) (hp : g.phase = .decoding h d)
include hg hp

theorem decodeOne_of_more (hn : decodeNext h d = some (x, d')) (hh : s.handRecord ref g d.index x = (w, true))
    (he : endOf h d = none) : s.decodeOne ref = w.setPhase ref (.decoding h d') := by
  rw [decodeOne_of_record hg hp hn, hh, if_pos rfl, decodeStands_of_more w ref hn he]

theorem decodeOne_of_end (hn : decodeNext h d = some (x, d')) (hh : s.handRecord ref g d.index x = (w, true))
    (he : endOf h d = some e) : s.decodeOne ref = w.segEnded ref e := by
  rw [decodeOne_of_record hg hp hn, hh, if_pos rfl, decodeStands_of_end w ref hn he]

/-- A job that delivers nothing takes the end of its decode, whether a record or a failure makes it. -/
theorem decodeOne_ends (hh : ∀ i x, s.handRecord ref g i x = (s, true)) (he : endOf h d = some e) :
    s.decodeOne ref = s.segEnded ref e := by
  cases hn : decodeNext h d with
  | none =>
    rw [endOf_of_failure hn] at he
    cases he
    exact decodeOne_of_failure hg hp hn
  | some next => exact decodeOne_of_end hg hp hn (hh _ _) he

end

theorem handRecord_of_verify {v : Verify} (hj : s.job c = some (.verify v)) (i : Nat) (x : Rec) :
    s.handRecord (.chain c) g i x = (s, true) := by
  unfold State.handRecord
  dsimp only
  rw [hj]

/-- The scrub's phase stands in the Audit Unit. -/
theorem setPhase_scrub (hg : s.audit.scrub = some g) (p : SegPhase) :
    s.setPhase .scrub p = s.setAudit { s.audit with scrub := some { g with phase := p } } := by
  unfold State.setPhase
  rw [show s.segJob .scrub = some g from hg]
  rfl

/-! ## A retrieval's record -/

/-- A retrieval posts without taking anything back as its segment ends. -/
theorem posts_segEnded {r : Retrieval} (hj : s.job c = some (.retrieval r)) (hg : r.current = some g)
    (hp : g.phase ≠ .waitPin) (e : SegEnd) : s.posts (s.segEnded (.chain c) e) := by
  have left := (dropSeg_keeps (segJob_of_job hj hg) hp).posts
  unfold State.segEnded
  dsimp only
  rw [hj]
  dsimp only
  rw [hg]
  dsimp only
  unfold State.retrievalSegEnd
  cases e with
  | whole m => exact posts_trans (posts_trans left (posts_of_frame (setJob_frame _ c _) (by decide))) (posts_search _ c)
  | failed k =>
    have reported := posts_of_frame (setAudit_frame (s.dropSeg (.chain c)) { (s.dropSeg (.chain c)).audit with
      reports := (s.dropSeg (.chain c)).audit.reports ++ [⟨g.extent, g.serial, k⟩] }) (by decide)
    exact posts_trans (posts_trans (posts_trans left reported) (posts_of_frame (setJob_frame _ c _) (by decide)))
      (posts_search _ c)

/-- A retrieval that decodes on. -/
def Retrieval.decoding (r : Retrieval) (g : SegJob) (h : SegHeader) (d : Decode) : Retrieval :=
  { r with current := some { g with phase := .decoding h d } }

section
variable {r : Retrieval} (hj : s.job c = some (.retrieval r)) (hg : r.current = some g) (hp : g.phase = .decoding h d)
  (hn : decodeNext h d = some (x, d'))
include hj hg hp hn

theorem decodeOne_unwanted_more (hw : ¬ r.inRange d.index x) (he : endOf h d = none) :
    s.decodeOne (.chain c) = s.setJob c (.retrieval (r.decoding g h d')) := by
  rw [decodeOne_of_more (segJob_of_job hj hg) hp hn ((handRecord_of_retrieval hj _).trans (deliver_of_unwanted hw)) he,
    setPhase_chain_eq hj hg]
  rfl

theorem decodeOne_unwanted_end (hw : ¬ r.inRange d.index x) (he : endOf h d = some e) :
    s.retrievalEnds c r g e r.filled (s.decodeOne (.chain c)) := by
  rw [decodeOne_of_end (segJob_of_job hj hg) hp hn ((handRecord_of_retrieval hj _).trans (deliver_of_unwanted hw)) he]
  exact retrievalEnds_of_job hj hg (phase_ne_waitPin hp) e

theorem decodeOne_delivered_more (hw : r.inRange d.index x) (hr : r.filled + 1 < countRead r.buf.count)
    (he : endOf h d = none) : s.decodeOne (.chain c) =
      (s.placed c (r.placeOf c.port x) (r.took d.index)).setJob c (.retrieval ((r.took d.index).decoding g h d')) := by
  rw [decodeOne_of_more (segJob_of_job hj hg) hp hn ((handRecord_of_retrieval hj _).trans (deliver_of_room hw hr)) he,
    setPhase_chain_eq (placed_job hj (r.took d.index)) hg]
  rfl

theorem decodeOne_delivered_end (hw : r.inRange d.index x) (hr : r.filled + 1 < countRead r.buf.count)
    (he : endOf h d = some e) :
    (∃ more, (s.decodeOne (.chain c)).out = s.out ++ r.placeOf c.port x :: more)
      ∧ s.retrievalEnds c r g e (r.filled + 1) (s.decodeOne (.chain c)) := by
  have job := placed_job (o := r.placeOf c.port x) hj (r.took d.index)
  have phase := phase_ne_waitPin hp
  rw [decodeOne_of_end (segJob_of_job hj hg) hp hn ((handRecord_of_retrieval hj _).trans (deliver_of_room hw hr)) he]
  refine ⟨?_, retrievalEnds_of_placed (retrievalEnds_of_job job hg phase e)⟩
  obtain ⟨more, hm⟩ := posts_segEnded job hg phase e
  refine ⟨more, hm.trans ?_⟩
  show (s.out ++ [r.placeOf c.port x]) ++ more = _
  rw [List.append_assoc]
  rfl

theorem decodeOne_delivered_full (hw : r.inRange d.index x) (hr : countRead r.buf.count ≤ r.filled + 1) :
    s.decodeOne (.chain c) = (s.deliver c r g d.index x).1 := by
  rw [decodeOne_of_record (segJob_of_job hj hg) hp hn, handRecord_of_retrieval hj, deliver_of_full hw hr]
  exact if_neg Bool.false_ne_true

end

end Sys2Proof.Machine

open Sys2Proof Sys2Proof.Machine

/-- Settles O37: a record is handed over, and its decode goes on or ends, one lemma for each case; a full buffer ends the
job. -/
theorem decodedRecordIsDeliveredInRange : Obligations.DecodedRecordIsDeliveredInRange := by
  unfold Obligations.DecodedRecordIsDeliveredInRange
  intro s lane ref g h d hl hg hp
  have phase := phase_ne_waitPin hp
  refine ⟨_, exec_decodedRecord hl, fun c r hc hj => ?_, fun c v hc hj => ?_, fun hc => ?_⟩
  · subst hc
    have current : r.current = some g := (congrArg (·.bind Job.seg) hj).symm.trans hg
    refine ⟨fun hn => ?_, fun x next hn => ?_⟩
    · rw [decodeOne_of_failure hg hp hn]
      exact retrievalEnds_of_job hj current phase _
    refine ⟨fun hw he => ?_, fun hw e he => decodeOne_unwanted_end hj current hp hn hw he, fun hw hr he => ?_,
      fun hw hr e he => decodeOne_delivered_end hj current hp hn hw hr he, fun hw hr => ?_⟩
    · rw [decodeOne_unwanted_more hj current hp hn hw he]
      exact ⟨rfl, job_setJob_of_job hj _, setJob_frame s c _⟩
    · rw [decodeOne_delivered_more hj current hp hn hw hr he]
      exact ⟨rfl, job_setJob_of_job (placed_job hj _) _,
        sameBut_then (placed_frame s c _ _) (setJob_frame _ c _) (by decide) (by decide)⟩
    · rw [decodeOne_delivered_full hj current hp hn hw hr]
      exact deliver_full_ends hj current phase hw hr
  · subst hc
    have current : v.seg = g := Option.some.inj ((congrArg (·.bind Job.seg) hj).symm.trans hg)
    subst current
    refine ⟨fun x next hn he => ?_, fun e f he hv => ?_⟩
    · rw [decodeOne_of_more hg hp hn (handRecord_of_verify hj _ _) he, setPhase_chain_eq hj rfl]
      exact ⟨job_setJob_of_job hj _, setJob_frame s c _⟩
    · rw [decodeOne_ends hg hp (handRecord_of_verify hj) he]
      exact verifyEnds_of_job hj phase hv e
  · subst hc
    refine ⟨fun x next hn he => ?_, fun e f he hv => ?_⟩
    · rw [decodeOne_of_more hg hp hn rfl he, setPhase_scrub hg]
      exact ⟨rfl, setAudit_frame s _⟩
    · rw [decodeOne_ends hg hp (fun _ _ => rfl) he]
      exact scrubEnds_of_job hg phase hv e
end

section
/-!
SUPPORT. The extent store: channel queues and what an append adds to them, the extents' contents, retired extents, and the
allocation of a seal (R76 to R79, R85, R88).
-/

namespace Sys2Proof.Machine

variable {s t u : State}

/-! ## Channel queues -/

theorem queue_popQueue (s : State) (ch k : Channel) :
    (s.popQueue ch).queue k = if k = ch then (s.queue ch).tail else s.queue k := queue_setQueue s ch k _

theorem queue_of_store (h : t.store = s.store) (k : Channel) : t.queue k = s.queue k := by
  unfold State.queue
  rw [h]

/-- A channel with room and no request waiting takes a newcomer. -/
theorem request_of_open {ch : Channel} (room : (s.queue ch).length < 16) (none : s.store.placeWait = []) (op : StoreOp) :
    s.placeOpen ch = true ∧ s.request ch op = s.setQueue ch (s.queue ch ++ [op]) := by
  have opened : s.placeOpen ch = true := by
    unfold State.placeOpen
    rw [none]
    simpa using room
  exact ⟨opened, if_pos opened⟩

/-- Operations may have joined the queues and the place wait list at their tails; nothing has left them. -/
structure State.storeGrows (s t : State) : Prop where
  queue : ∀ k, s.queue k <+: t.queue k
  places : s.store.placeWait <+: t.store.placeWait

theorem storeGrows_of_store (h : t.store = s.store) : s.storeGrows t :=
  ⟨fun k => by rw [queue_of_store h], by rw [h]⟩

theorem storeGrows_refl (s : State) : s.storeGrows s := storeGrows_of_store rfl

theorem storeGrows_trans (h : s.storeGrows t) (k : t.storeGrows u) : s.storeGrows u :=
  ⟨fun ch => (h.queue ch).trans (k.queue ch), h.places.trans k.places⟩

theorem storeGrows_ite {c : Prop} [Decidable c] (h : s.storeGrows t) (k : s.storeGrows u) :
    s.storeGrows (if c then t else u) := by
  split
  · exact h
  · exact k

theorem storeGrows_request (s : State) (ch : Channel) (op : StoreOp) : s.storeGrows (s.request ch op) := by
  rcases request_cases s ch op with ⟨-, h⟩ | ⟨-, h⟩
  · rw [h]
    refine ⟨fun k => ?_, List.prefix_refl _⟩
    rw [queue_setQueue]
    split
    · rename_i e; rw [e]; exact List.prefix_append _ _
    · exact List.prefix_refl _
  · rw [h]
    exact ⟨fun _ => List.prefix_refl _, List.prefix_append _ _⟩

theorem storeGrows_startPageWrite (s : State) : s.storeGrows s.startPageWrite := by
  unfold State.startPageWrite
  split
  · refine storeGrows_ite (storeGrows_trans ?_ (storeGrows_request _ _ _)) (storeGrows_refl s)
    exact storeGrows_of_store rfl
  · exact storeGrows_refl s

theorem storeGrows_pumpPages (n : Nat) (s : State) : s.storeGrows (State.pumpPages n s) := by
  induction n generalizing s with
  | zero => exact storeGrows_refl s
  | succ n ih =>
    unfold State.pumpPages
    split
    · refine storeGrows_ite (storeGrows_trans (storeGrows_trans ?_ (storeGrows_startPageWrite _)) (ih _)) (storeGrows_refl s)
      exact storeGrows_of_store rfl
    · split
      · refine storeGrows_trans ?_ (ih _)
        exact storeGrows_of_store rfl
      · exact storeGrows_refl s

theorem storeGrows_appendRaw (s : State) (body : JBody) : s.storeGrows (s.appendRaw body) := by
  unfold State.appendRaw
  dsimp only
  refine storeGrows_trans (storeGrows_of_store ?_) (storeGrows_pumpPages 6 _)
  split
  · split
    · rfl
    · rfl
  · rfl

/-- An append asked for whose effect takes nothing from the store. -/
theorem storeGrows_ask (s : State) (body : JBody) {note : AppendNote}
    (hn : ∀ (u : State) n, u.storeGrows (u.applyNote note n)) : s.storeGrows (s.ask body note) := by
  unfold State.ask
  refine storeGrows_ite ?_ (storeGrows_of_store ((joinAppend_frame s _).store (by decide)))
  have noted := storeGrows_trans (storeGrows_appendRaw s body) (hn _ s.journal.next)
  exact storeGrows_trans noted (storeGrows_of_store ((decideLow_frame _).store (by decide)))

/-! ## Contents of extents, and retired extents -/

theorem setContent_frame (s : State) (x : Nat) (c : ExtentContent) : s.sameBut [.flash] (s.setContent x c) :=
  setFlash_frame s _

theorem setContent_of_ne (s : State) (x : Nat) {c : ExtentContent} (h : c ≠ .erased) :
    (s.setContent x c).flash.extents = tput s.flash.extents x c := if_neg h

theorem mem_insertNat (n x : Nat) (l : List Nat) : x ∈ insertNat n l ↔ x = n ∨ x ∈ l := by
  induction l with
  | nil => simp [insertNat]
  | cons m l ih =>
    unfold insertNat
    split
    · simp
    · split
      · rename_i e; subst e; simp
      · simp only [List.mem_cons, ih]; tauto

theorem retireExtent_bad (s : State) (x : Nat) : x ∈ (s.retireExtent x).settings.bad := by
  unfold State.retireExtent
  dsimp only
  rw [(setEntry_frame _ _ _).settings (by decide)]
  exact (mem_insertNat x x _).mpr (.inl rfl)

/-- An extent retired loses nothing of the room in the Journal. -/
theorem retireExtent_release (s : State) (x : Nat) : (s.retireExtent x).settings.release = s.settings.release := by
  unfold State.retireExtent
  dsimp only
  rw [(setEntry_frame _ _ _).settings (by decide)]
  rfl

theorem entry_retireExtent (s : State) {x : Nat} (hx : reservedExtents ≤ x) (y : Nat) :
    (s.retireExtent x).entry y = if y = x then { Entry.free with state := .bad } else s.entry y :=
  entry_setEntry _ x y _ hx

/-! ## Free extents (R77, R87) -/

theorem entry_of_table {x : Nat} (h : reservedExtents ≤ x) : s.entry x = (tget s.catalogue x).getD Entry.free :=
  if_neg (Nat.not_lt.mpr h)

/-- In canonical form a data extent is FREE where no entry is listed. -/
theorem entry_free_iff (h : s.canonical) {x : Nat} (hx : reservedExtents ≤ x) :
    s.entry x = Entry.free ↔ tget s.catalogue x = none := by
  rw [entry_of_table hx]
  cases he : tget s.catalogue x with
  | none => simp
  | some e => simpa using (h.listed _ (mem_of_tget he)).2

/-- The first data extent of a channel. -/
def firstExtent (ch : Channel) : Nat := if ch.val = 0 then reservedExtents else ch.val * channelExtents

theorem firstFree_some {ch : Channel} {x : Nat} (h : s.firstFree ch = some x) :
    x = lowestAbsent s.catalogue (firstExtent ch) ∧ reservedExtents ≤ x ∧ x < (ch.val + 1) * 32768 := by
  change (if lowestAbsent s.catalogue (firstExtent ch) < (ch.val + 1) * channelExtents then
    some (lowestAbsent s.catalogue (firstExtent ch)) else none) = some x at h
  split at h
  · rename_i hlt
    obtain rfl := Option.some.inj h
    have ge := lowestAbsent_ge s.catalogue (firstExtent ch)
    have least : reservedExtents ≤ firstExtent ch := by
      unfold firstExtent reservedExtents channelExtents
      split
      · exact Nat.le_refl _
      · omega
    exact ⟨rfl, Nat.le_trans least ge, hlt⟩
  · cases h

/-- What the lowest FREE extent of a channel is. -/
theorem firstFree_lowest (hc : s.canonical) {ch : Channel} {x : Nat} (h : s.firstFree ch = some x) :
    s.entry x = Entry.free
      ∧ ∀ y, reservedExtents ≤ y → channelOf y = ch → y < x → s.entry y ≠ Entry.free := by
  obtain ⟨rfl, data, below⟩ := firstFree_some h
  obtain ⟨absent, listed⟩ := lowestAbsent_spec hc.catalogue (firstExtent ch)
  refine ⟨(entry_free_iff hc data).mpr absent, fun y hy own less free => ?_⟩
  refine listed y ?_ less ((entry_free_iff hc hy).mp free)
  have number : y / 32768 % 4 = ch.val := congrArg Fin.val own
  have := ch.isLt
  unfold firstExtent channelExtents
  split
  · exact hy
  · omega

/-! ## The channel of an allocation (R77) -/

/-- One channel in the search for the one with the smallest queue depth. -/
def State.shallower (s : State) (best : Option Channel) (ch : Channel) : Option Channel :=
  if s.sealOpen ch then
    match best with
    | some b => if (s.queue ch).length < (s.queue b).length then some ch else some b
    | none => some ch
  else best

/-- The best of the channels seen: open to a seal, with the smallest depth, the lowest number where depths tie. -/
def State.shallowest (s : State) (seen : List Channel) : Option Channel → Prop
  | none => ∀ k ∈ seen, s.sealOpen k = false
  | some b => b ∈ seen ∧ s.sealOpen b = true ∧ ∀ k ∈ seen, s.sealOpen k = true →
      (s.queue b).length ≤ (s.queue k).length ∧ ((s.queue k).length = (s.queue b).length → b.val ≤ k.val)

theorem shallowest_shallower {seen : List Channel} {best : Option Channel} {ch : Channel} (h : s.shallowest seen best)
    (above : ∀ k ∈ seen, k.val < ch.val) : s.shallowest (seen ++ [ch]) (s.shallower best ch) := by
  unfold State.shallower
  cases ho : s.sealOpen ch with
  | false =>
    rw [if_neg Bool.false_ne_true]
    cases best with
    | none =>
      intro k hk
      rcases List.mem_append.mp hk with hk | hk
      · exact h k hk
      · rw [List.mem_singleton.mp hk]; exact ho
    | some b =>
      obtain ⟨mem, opened, least⟩ := h
      refine ⟨List.mem_append_left _ mem, opened, fun k hk hopen => ?_⟩
      rcases List.mem_append.mp hk with hk | hk
      · exact least k hk hopen
      · rw [List.mem_singleton.mp hk, ho] at hopen; cases hopen
  | true =>
    rw [if_pos rfl]
    have last : ch ∈ seen ++ [ch] := by simp
    cases best with
    | none =>
      refine ⟨last, ho, fun k hk hopen => ?_⟩
      rcases List.mem_append.mp hk with hk | hk
      · rw [h k hk] at hopen; cases hopen
      · rw [List.mem_singleton.mp hk]; exact ⟨Nat.le_refl _, fun _ => Nat.le_refl _⟩
    | some b =>
      obtain ⟨mem, opened, least⟩ := h
      have lower := above b mem
      dsimp only
      split
      · refine ⟨last, ho, fun k hk hopen => ?_⟩
        rcases List.mem_append.mp hk with hk | hk
        · have := (least k hk hopen).1
          exact ⟨by omega, fun e => by omega⟩
        · rw [List.mem_singleton.mp hk]; exact ⟨Nat.le_refl _, fun _ => Nat.le_refl _⟩
      · refine ⟨List.mem_append_left _ mem, opened, fun k hk hopen => ?_⟩
        rcases List.mem_append.mp hk with hk | hk
        · exact least k hk hopen
        · rw [List.mem_singleton.mp hk]; exact ⟨by omega, fun _ => by omega⟩

theorem shallowest_foldl {seen : List Channel} {best : Option Channel} (h : s.shallowest seen best) (left : List Channel)
    (ordered : (seen ++ left).Pairwise (·.val < ·.val)) : s.shallowest (seen ++ left) (left.foldl s.shallower best) := by
  induction left generalizing seen best with
  | nil => rwa [List.append_nil]
  | cons ch left ih =>
    rw [List.append_cons] at ordered ⊢
    have above : ∀ k ∈ seen, k.val < ch.val := fun k hk =>
      (List.pairwise_append.mp (List.pairwise_append.mp ordered).1).2.2 k hk ch (List.mem_singleton_self ch)
    exact ih (shallowest_shallower h above) ordered

theorem sealChannel_eq (s : State) : s.sealChannel = four.foldl s.shallower none := by
  unfold State.sealChannel
  congr 1

theorem sealChannel_shallowest (s : State) : s.shallowest four s.sealChannel := by
  rw [sealChannel_eq]
  exact shallowest_foldl (seen := []) (fun _ h => by cases h) four (by decide)

/-- The channel that an allocation takes. -/
theorem sealChannel_some {ch : Channel} (h : s.sealChannel = some ch) : s.sealOpen ch = true
    ∧ ∀ k, s.sealOpen k = true →
      (s.queue ch).length ≤ (s.queue k).length ∧ ((s.queue k).length = (s.queue ch).length → ch.val ≤ k.val) := by
  have best := sealChannel_shallowest s
  rw [h] at best
  obtain ⟨-, opened, least⟩ := best
  exact ⟨opened, fun k => least k (mem_four k)⟩

/-! ## The allocation (R77 to R79, R88) -/

/-- A seal has been allocated an extent of a channel: its WRITE joins the queue, its entry is WRITING, and the other seals
keep their places. -/
structure State.sealAllocated (s : State) (ch : Channel) (b x attempt : Nat) (rest : List Nat) (v : Staging) (h : SegHeader)
    (t : State) : Prop where
  buf : tget t.stager.bufs b = some { v with state := .sealing h attempt (some x) }
  bufs : sameAway b s.stager.bufs t.stager.bufs
  seals : t.stager.seals = rest
  entry : t.entry x = { Entry.free with state := .writing, seg := some h.seg }
  entries : ∀ y, y ≠ x → t.entry y = s.entry y
  queue : t.queue ch = s.queue ch ++ [.segWrite b x]
  queues : ∀ k, k ≠ ch → t.queue k = s.queue k
  full : t.store.full = false
  places : t.store.placeWait = s.store.placeWait.erase .seal
  frame : s.sameBut [.stager, .store, .catalogue] t

theorem sealAllocated_allocate {ch : Channel} {b x attempt : Nat} {rest : List Nat} {v : Staging} {h : SegHeader}
    {target : Option Nat} (hs : s.stager.seals = b :: rest) (hx : s.firstFree ch = some x)
    (hv : tget s.stager.bufs b = some v) (hst : v.state = .sealing h attempt target) :
    s.sealAllocated ch b x attempt rest v h (s.allocate ch) := by
  obtain ⟨-, data, -⟩ := firstFree_some hx
  have taken : s.allocate ch =
      ((((((s.setStager { s.stager with seals := rest }).setBuf b { v with state := .sealing h attempt (some x) }).setEntry x
        { Entry.free with state := .writing, seg := some h.seg }).setStore
        { s.store with placeWait := s.store.placeWait.erase .seal, full := false })).setQueue ch
          (s.queue ch ++ [.segWrite b x])) := by
    unfold State.allocate
    rw [hs, hx]
    dsimp only
    rw [hv]
    dsimp only
    rw [hst]
    dsimp only
    have store : (((s.setStager { s.stager with seals := rest }).setBuf b
        { v with state := .sealing h attempt (some x) }).setEntry x
          { Entry.free with state := .writing, seg := some h.seg }).store = s.store := (setEntry_frame _ _ _).store (by decide)
    rw [store]
    rfl
  have buffers : s.sameBut [.stager] ((s.setStager { s.stager with seals := rest }).setBuf b
      { v with state := .sealing h attempt (some x) }) := sameBut_trans (setStager_frame s _) (setBuf_frame _ _ _)
  have tbuf := tget_setBuf (s.setStager { s.stager with seals := rest }) b
  have seals : ((s.setStager { s.stager with seals := rest }).setBuf b
      { v with state := .sealing h attempt (some x) }).stager.seals = rest := rfl
  have entries := entry_setEntry ((s.setStager { s.stager with seals := rest }).setBuf b
    { v with state := .sealing h attempt (some x) }) x
  have marked := setEntry_frame ((s.setStager { s.stager with seals := rest }).setBuf b
    { v with state := .sealing h attempt (some x) }) x { Entry.free with state := .writing, seg := some h.seg }
  generalize hu : ((s.setStager { s.stager with seals := rest }).setBuf b { v with state := .sealing h attempt (some x) }).setEntry
    x { Entry.free with state := .writing, seg := some h.seg } = w at *
  have stager := marked.stager (by decide)
  rw [taken]
  refine ⟨?_, fun k hk => ?_, ?_, ?_, fun y hy => ?_, ?_, fun k hk => ?_, rfl, rfl, ?_⟩
  · show tget w.stager.bufs b = _
    rw [stager, tbuf, if_pos rfl]
  · show tget w.stager.bufs k = _
    rw [stager, tbuf, if_neg hk]
    rfl
  · show w.stager.seals = rest
    rw [stager, seals]
  · show w.entry x = _
    rw [← hu, entries _ _ data, if_pos rfl]
  · show w.entry y = _
    rw [← hu, entries _ _ data, if_neg hy]
    rfl
  · rw [queue_setQueue, if_pos rfl]
  · rw [queue_setQueue, if_neg hk]
    rfl
  · refine sameBut_then (sameBut_then (m := [.stager, .catalogue]) buffers marked (by decide) (by decide))
      (sameBut_trans (setStore_frame w _) (setQueue_frame _ _ _)) (by decide) (by decide)

end Sys2Proof.Machine

open Sys2Proof Sys2Proof.Machine

/-- Settles O23: the channels are searched in their order for the smallest depth, and the allocation, the waiting and the full
store follow from what is found. -/
theorem sealTakesTheLeastLoadedChannel : Obligations.SealTakesTheLeastLoadedChannel := by
  unfold Obligations.SealTakesTheLeastLoadedChannel
  intro s b rest canonical seals
  have waiting : s.stager.seals.isEmpty = false := by rw [seals]; rfl
  have someFree : ∀ ch, (s.firstFree ch).isSome = true → four.all (fun k => (s.firstFree k).isNone) = false := fun ch hf => by
    rw [List.all_eq_false]
    exact ⟨ch, mem_four ch, by rw [Option.isNone_eq_false_iff.mpr hf]; exact Bool.false_ne_true⟩
  have run : exec .sealAllocation s = .next s.sealAllocation := rfl
  refine ⟨fun ch found => ⟨(sealChannel_some found).2, fun x v h attempt target free hv hst => ?_⟩, fun none free short => ?_,
    fun none notFull => ?_⟩
  · obtain ⟨isFree, least⟩ := firstFree_lowest canonical free
    have taken : s.sealAllocation = s.allocate ch := by
      unfold State.sealAllocation
      rw [waiting, someFree ch (by rw [free]; rfl), found]
      rfl
    have done := sealAllocated_allocate seals free hv hst
    rw [run, taken]
    exact ⟨isFree, least, _, rfl, done.buf, done.bufs, done.seals, done.entry, done.entries, done.queue, done.queues,
      done.full, done.places, done.frame⟩
  · obtain ⟨ch, x, hx⟩ := free
    have waits : s.sealAllocation = s.sealWaits := by
      unfold State.sealAllocation
      rw [waiting, someFree ch (by rw [hx]; rfl), none]
      rfl
    rw [run, waits]
    refine ⟨_, _, rfl, rfl, fun r hr => List.eq_of_mem_replicate hr, ?_, setStore_frame s _⟩
    show (s.store.placeWait ++ List.replicate _ PlaceReq.seal).count .seal = _
    rw [List.count_append, List.count_replicate_self]
    omega
  · have full : s.sealAllocation = (s.setStore { s.store with full := true }).noticeAll .storeFull .none := by
      unfold State.sealAllocation State.storeFull
      have all : four.all (fun k => (s.firstFree k).isNone) = true := by
        rw [List.all_eq_true]
        exact fun k _ => by rw [none k]; rfl
      rw [waiting, all, notFull]
      rfl
    rw [run, full]
    have told := noticeAll_frame (s.setStore { s.store with full := true }) .storeFull .none
    refine ⟨_, rfl, told.store (by decide), fun p => ?_, sameBut_then (setStore_frame s _) told (by decide) (by decide)⟩
    rw [noticeAll_port]
    rfl
end

section
/-!
SUPPORT. An ERASE that ends (R84, R85).
-/

namespace Sys2Proof.Machine

theorem completeErase_erased {s : State} {ch : Channel} {x : Nat} (h : s.inFlight ch = some (.erase x)) :
    s.completeErase ch true = ((s.popQueue ch).setContent x .erased).setEntry x Entry.free := by
  unfold State.completeErase
  rw [h]
  rfl

theorem completeErase_failed {s : State} {ch : Channel} {x : Nat} (h : s.inFlight ch = some (.erase x)) :
    s.completeErase ch false
      = (((s.popQueue ch).setContent x .incomplete).retireExtent x).ask (.badExtent x .eraseFailed none) .plain := by
  unfold State.completeErase
  rw [h]
  rfl

/-- What an operation that failed on an extent leaves before its BAD_EXTENT entry is asked for. -/
theorem retired_frame (s : State) (ch : Channel) (x : Nat) (c : ExtentContent) :
    s.sameBut [.store, .flash, .settings, .catalogue] (((s.popQueue ch).setContent x c).retireExtent x) :=
  sameBut_then (m := [.store, .flash, .settings, .catalogue])
    (sameBut_then (m := [.store, .flash]) (popQueue_frame s ch) (setContent_frame _ x c) (by decide) (by decide))
    (retireExtent_frame _ x) (by decide) (by decide)

end Sys2Proof.Machine

open Sys2Proof Sys2Proof.Machine

/-- Settles O25: the extent's content and entry are replaced, and after a failure the entry is appended. -/
theorem eraseFreesOrRetiresTheExtent : Obligations.EraseFreesOrRetiresTheExtent := by
  unfold Obligations.EraseFreesOrRetiresTheExtent
  intro s ch x flight data
  refine ⟨⟨s.completeErase ch true, rfl, ?_⟩, fun can => ⟨s.completeErase ch false, rfl, ?_⟩⟩
  · rw [completeErase_erased flight]
    generalize hu : (s.popQueue ch).setContent x .erased = u
    have freed := setEntry_frame u x Entry.free
    have emptied : s.sameBut [.store, .flash] u := by
      rw [← hu]
      exact sameBut_then (popQueue_frame s ch) (setContent_frame _ x _) (by decide) (by decide)
    have content : (u.setEntry x Entry.free).flash.extents = tdel s.flash.extents x := by
      rw [freed.flash (by decide), ← hu]
      rfl
    have queue : ∀ k, (u.setEntry x Entry.free).queue k = if k = ch then (s.queue ch).tail else s.queue k := fun k => by
      rw [queue_of_store (freed.store (by decide)), ← hu]
      exact queue_popQueue s ch k
    refine ⟨?_, fun y hy => ?_, ?_, fun y hy => ?_, ?_, fun k hk => ?_, sameBut_then emptied freed (by decide) (by decide)⟩
    · rw [entry_setEntry u x x _ data, if_pos rfl]
    · rw [entry_setEntry u x y _ data, if_neg hy]
      exact entry_of_catalogue (emptied.catalogue (by decide)) y
    · rw [content, tget_tdel, if_pos rfl]
    · rw [content]
      exact sameAway_tdel _ _ y hy
    · rw [queue, if_pos rfl]
    · rw [queue, if_neg hk]
  · rw [completeErase_failed flight]
    have retired := retired_frame s ch x .incomplete
    have entries := entry_retireExtent ((s.popQueue ch).setContent x .incomplete) data
    have bad := retireExtent_bad ((s.popQueue ch).setContent x .incomplete) x
    have release := retireExtent_release ((s.popQueue ch).setContent x .incomplete) x
    generalize ((s.popQueue ch).setContent x .incomplete).retireExtent x = u at *
    have journal := retired.journal (by decide)
    have asked := ask_plain_frame (s := u) (.badExtent x .eraseFailed none)
    have entered := entry_of_catalogue (asked.catalogue (by decide))
    refine ⟨?_, fun y hy => ?_, ?_, ?_, sameBut_then retired asked (by decide) (by decide)⟩
    · rw [entered, entries, if_pos rfl]
    · rw [entered, entries, if_neg hy]
      rfl
    · rw [asked.settings (by decide)]
      exact bad
    · have done := (ask_appendsOrWaits u (.badExtent x .eraseFailed none) plain_note).appended
        ((canAppend_of_release journal release 1).trans can)
      unfold State.appended at done ⊢
      rw [← journal]
      exact done
end

section
/-!
SUPPORT. A freed queue place (R76, R78).
-/

namespace Sys2Proof.Machine

variable {s t : State}

theorem placeGivenTo_frame (s : State) (op : StoreOp) : s.sameBut [.ports, .audit] (s.placeGivenTo op) := by
  unfold State.placeGivenTo
  split
  · exact sameBut_then (setPhase_frame _ _ _) (jobState_frame _ _ _) (by decide) (by decide)
  · exact sameBut_mono (setChainState_frame s _ _) (by decide)
  · exact sameBut_refl _ s

/-- A chain's segment in another phase, its chain left in its state. -/
theorem segJob_setPhase {c : ChainRef} {g : SegJob} (hg : s.segJob (.chain c) = some g) (p : SegPhase) :
    (s.setPhase (.chain c) p).segJob (.chain c) = some { g with phase := p } := by
  obtain ⟨j, hj, hseg⟩ := Option.bind_eq_some_iff.mp (show (s.job c).bind Job.seg = some g from hg)
  rw [setPhase_chain_eq hj hseg]
  exact segJob_of_job (job_setJob_of_job hj _) (seg_withSeg hseg _)

theorem segJob_setChainState (s : State) (c d : ChainRef) (st : ChainState) :
    (s.setChainState c st).segJob (.chain d) = s.segJob (.chain d) :=
  congrArg (fun j : Option Job => j.bind Job.seg) (job_setChainState s c d st)

theorem state_setChainState (s : State) (c : ChainRef) (st : ChainState) : ((s.setChainState c st).chain c).state = st := by
  unfold State.setChainState
  rw [chain_modChain, if_pos rfl]

/-- The job that waited with a segment READ goes on. -/
theorem placeGivenTo_segRead {c : ChainRef} {g : SegJob} (hg : s.segJob (.chain c) = some g) (x : Nat) (again : Bool) :
    (s.placeGivenTo (.segRead x (some (.chain c)) again)).segJob (.chain c) = some { g with phase := .reading }
      ∧ ((s.placeGivenTo (.segRead x (some (.chain c)) again)).chain c).state = .running :=
  ⟨(segJob_setChainState _ c c .running).trans (segJob_setPhase hg .reading), state_setChainState _ c .running⟩

theorem givePlace_op {ch c : Channel} {op : StoreOp} (room : (s.queue ch).length < 16)
    (oldest : s.store.placeWait.find? (s.canUse ch) = some (.op c op)) :
    s.givePlace ch = ((s.setStore { s.store with placeWait := s.store.placeWait.erase (.op c op) }).setQueue ch
      (s.queue ch ++ [op])).placeGivenTo op := by
  unfold State.givePlace
  rw [if_pos room, oldest]
  rfl

theorem givePlace_seal {ch : Channel} (room : (s.queue ch).length < 16)
    (oldest : s.store.placeWait.find? (s.canUse ch) = some .seal) : s.givePlace ch = s.allocate ch := by
  unfold State.givePlace
  rw [if_pos room, oldest]

end Sys2Proof.Machine

open Sys2Proof Sys2Proof.Machine

/-- Settles O26: the request found is taken off the list, and its operation or its seal joins the queue. -/
theorem freedPlaceGoesToTheOldestRequest : Obligations.FreedPlaceGoesToTheOldestRequest := by
  unfold Obligations.FreedPlaceGoesToTheOldestRequest
  intro s ch room
  refine ⟨fun c op oldest => ⟨?_, s.givePlace ch, rfl, ?_⟩,
    fun b rest x v h attempt target oldest seals free hv hst _ _ => ⟨s.givePlace ch, rfl, ?_⟩⟩
  · have usable : decide (c = ch) = true := List.find?_some (p := s.canUse ch) oldest
    exact of_decide_eq_true usable
  · rw [givePlace_op room oldest]
    generalize hu : (s.setStore { s.store with placeWait := s.store.placeWait.erase (.op c op) }).setQueue ch
      (s.queue ch ++ [op]) = u
    have given := placeGivenTo_frame u op
    have store := given.store (by decide)
    have queue : ∀ k, (u.placeGivenTo op).queue k = if k = ch then s.queue ch ++ [op] else s.queue k := fun k => by
      rw [queue_of_store store, ← hu]
      exact queue_setQueue _ ch k _
    have moved : s.sameBut [.store] u := by
      rw [← hu]
      exact sameBut_trans (setStore_frame s _) (setQueue_frame _ _ _)
    refine ⟨by rw [queue, if_pos rfl], fun k hk => by rw [queue, if_neg hk], by rw [store, ← hu]; rfl,
      by rw [store, ← hu]; rfl, fun y r again g read hg => ?_, sameBut_then moved given (by decide) (by decide)⟩
    subst read
    have waited : u.segJob (.chain r) = some g := by
      rw [← hu]
      exact hg
    exact placeGivenTo_segRead waited y again
  · rw [givePlace_seal room oldest]
    have done := sealAllocated_allocate seals free hv hst
    exact ⟨done.seals, done.buf, done.entry, done.entries, done.queue, done.queues, done.places, done.frame⟩
end

section
/-!
SUPPORT. A segment READ that ends: the test of its header, the wait for a lane, the retry and the read failure (R83, R128,
R130, R139, R144).
-/

namespace Sys2Proof.Machine

variable {s t : State} {ch : Channel} {x : Nat} {c : ChainRef} {g : SegJob}

/-! ## The test of a header (R73, R83) -/

theorem validHeader_iff (h : SegHeader) (check : Crc) :
    validHeader h check = true ↔ check = headerCheck h ∧ 1 ≤ h.seg.count ∧ h.seg.count ≤ 1048575 := by
  unfold validHeader recordLimit
  simp only [Bool.and_eq_true, decide_eq_true_eq]
  tauto

theorem goodRead_iff (serial : Option Nat) (content : Option ExtentContent) (h : SegHeader) (body : List Bool) :
    goodRead serial content = some (h, body) ↔
      ∃ check, content = some (.segment h check body) ∧ check = headerCheck h
        ∧ 1 ≤ h.seg.count ∧ h.seg.count ≤ 1048575 ∧ serial = some h.seg.serial := by
  constructor
  · intro good
    unfold goodRead at good
    split at good
    · rename_i h' check body'
      split at good
      · rename_i tested
        obtain ⟨rfl, rfl⟩ := Prod.mk.inj (Option.some.inj good)
        obtain ⟨checked, least, most⟩ := (validHeader_iff h' check).mp tested.1
        exact ⟨check, rfl, checked, least, most, tested.2⟩
      · cases good
    · cases good
  · rintro ⟨check, rfl, checked, least, most, carried⟩
    exact if_pos ⟨(validHeader_iff h check).mpr ⟨checked, least, most⟩, carried⟩

/-! ## The cases of a READ that ends -/

theorem completeSegRead_good {r : JobRef} {again : Bool} {outcome : ReadOutcome} {h : SegHeader} {body : List Bool}
    (flight : s.inFlight ch = some (.segRead x (some r) again))
    (good : goodRead ((s.entry x).seg.map (·.serial)) (s.returned x outcome) = some (h, body)) :
    s.completeSegRead ch outcome = (s.popQueue ch).readDone r h body := by
  unfold State.completeSegRead State.segReadDone
  rw [flight]
  dsimp only
  rw [show goodRead (((s.popQueue ch).entry x).seg.map (·.serial)) ((s.popQueue ch).returned x outcome) = some (h, body)
    from good]

theorem completeSegRead_bad {r : JobRef} {again : Bool} {outcome : ReadOutcome}
    (flight : s.inFlight ch = some (.segRead x (some r) again))
    (bad : goodRead ((s.entry x).seg.map (·.serial)) (s.returned x outcome) = none) :
    s.completeSegRead ch outcome = if again then (s.popQueue ch).segEnded r (.failed .readFailure)
      else (s.popQueue ch).startRead r x true := by
  unfold State.completeSegRead State.segReadDone
  rw [flight]
  dsimp only
  rw [show goodRead (((s.popQueue ch).entry x).seg.map (·.serial)) ((s.popQueue ch).returned x outcome) = none from bad]

/-- The retry of a READ on a channel that nothing waits for takes the place that the first READ leaves. -/
theorem startRead_popQueue {op : StoreOp} (flight : s.inFlight ch = some op) (own : channelOf x = ch)
    (nobody : s.store.placeWait = []) (full : (s.queue ch).length ≤ 16) (r : JobRef) :
    (s.popQueue ch).startRead r x true
      = ((((s.popQueue ch).setQueue ch ((s.queue ch).tail ++ [.segRead x (some r) true])).setPhase r .reading).jobState r
          .running) := by
  have queue : (s.popQueue ch).queue ch = (s.queue ch).tail := by rw [queue_popQueue, if_pos rfl]
  have room : ((s.popQueue ch).queue ch).length < 16 := by
    rw [queue, List.length_tail]
    have : s.queue ch ≠ [] := fun e => by
      rw [show s.inFlight ch = (s.queue ch).head? from rfl, e] at flight
      cases flight
    have := List.length_pos_iff.mpr this
    omega
  obtain ⟨opened, taken⟩ := request_of_open room (show (s.popQueue ch).store.placeWait = [] from nobody)
    (.segRead x (some r) true)
  unfold State.startRead
  rw [own]
  dsimp only
  rw [opened, taken, queue]
  rfl

theorem segJob_waitForLane (s : State) (c : ChainRef) : (s.waitForLane c).segJob (.chain c) = s.segJob (.chain c) := by
  have job : (s.waitForLane c).job c = s.job c := by
    unfold State.job
    rw [waitForLane_chain, if_pos rfl]
  exact congrArg (fun j : Option Job => j.bind Job.seg) job

theorem setPhase_chain_arbiter (s : State) (c : ChainRef) (p : SegPhase) :
    (s.setPhase (.chain c) p).arbiter = s.arbiter := (setPhase_chain_frame s c p).arbiter (by decide)

/-! ## What ends a segment, seen from before the READ left its queue -/

theorem pinReleased_popQueue {y : Nat} {r : JobRef} (h : (s.popQueue ch).pinReleased y r t) : s.pinReleased y r t :=
  ⟨h.granted, h.fallen, h.retested, h.others⟩

theorem appendsOrWaits_popQueue {body : JBody} {note : AppendNote} (h : (s.popQueue ch).appendsOrWaits body note t) :
    s.appendsOrWaits body note t := ⟨h.appended, h.waits⟩

theorem entryVerified_popQueue {y : Nat} {r : JobRef} {passes : Bool} (h : (s.popQueue ch).entryVerified y r passes t) :
    s.entryVerified y r passes t := ⟨h.entry, h.others⟩

theorem verdictJournaled_popQueue {y : Nat} {v : SegFields} {finder : Finder} {port : Option PortId} {journalPass : Bool}
    {outcomes : FieldOutcomes} {failure : Option SegFailure} {passes : Bool}
    (h : (s.popQueue ch).verdictJournaled y v finder port journalPass outcomes failure passes t) :
    s.verdictJournaled y v finder port journalPass outcomes failure passes t := by
  refine ⟨fun fails sound => ?_, fun pass damaged => appendsOrWaits_popQueue (h.restored pass damaged),
    fun pass sound asked => appendsOrWaits_popQueue (h.passed pass sound asked), h.silent⟩
  obtain ⟨asked, told⟩ := h.damaged fails sound
  exact ⟨appendsOrWaits_popQueue asked, told⟩

theorem retrievalEnds_popQueue {r : Retrieval} {e : SegEnd} {filled : Nat}
    (h : (s.popQueue ch).retrievalEnds c r g e filled t) : s.retrievalEnds c r g e filled t := by
  refine ⟨h.lanes, h.whole, h.failed, h.goesOn, fun last => ?_,
    sameBut_then (popQueue_frame s ch) h.frame (by decide) (by decide)⟩
  obtain ⟨job, pin, posted⟩ := h.done last
  exact ⟨job, pinReleased_popQueue pin, posted⟩

theorem verifyEnds_popQueue {v : Verify} {f : SegFields} {e : SegEnd} (h : (s.popQueue ch).verifyEnds c v f e t) :
    s.verifyEnds c v f e t := by
  obtain ⟨outcomes, failure, passes, judgement, passing, entry, journaled, retested, posted⟩ := h.outcome
  exact ⟨h.lanes, h.job, ⟨outcomes, failure, passes, judgement, passing, entryVerified_popQueue entry,
    fun still => verdictJournaled_popQueue (journaled still), retested, posted⟩,
    sameBut_then (popQueue_frame s ch) h.frame (by decide) (by decide)⟩

theorem scrubEnds_popQueue {f : SegFields} {e : SegEnd} (h : (s.popQueue ch).scrubEnds g f e t) :
    s.scrubEnds g f e t := by
  obtain ⟨outcomes, failure, passes, judgement, passing, entry, goesOn, passEnds⟩ := h.outcome
  refine ⟨h.lanes, ⟨outcomes, failure, passes, judgement, passing, entryVerified_popQueue entry, fun within => ?_, passEnds⟩,
    sameBut_then (popQueue_frame s ch) h.frame (by decide) (by decide)⟩
  obtain ⟨audit, journaled⟩ := goesOn within
  exact ⟨audit, fun still => verdictJournaled_popQueue (journaled still)⟩

end Sys2Proof.Machine

open Sys2Proof Sys2Proof.Machine

/-- Settles O27: the cases of a READ that ends, for a chain's job and for the scrub. -/
theorem segmentReadIsTestedAndRetried : Obligations.SegmentReadIsTestedAndRetried := by
  unfold Obligations.SegmentReadIsTestedAndRetried
  refine ⟨fun s ch x c again g outcome flight job => ⟨goodRead_iff _ _, fun h body good => ?_,
    fun bad first own nobody full => ?_, fun bad second reading => ?_⟩,
    fun s ch x again g f outcome flight scrub reading own fields => ?_⟩
  · refine ⟨s.completeSegRead ch outcome, rfl, ?_⟩
    rw [completeSegRead_good flight good, show (s.popQueue ch).readDone (.chain c) h body
      = ((s.popQueue ch).setPhase (.chain c) (.waitLane h body)).waitForLane c from rfl]
    have phase : ((s.popQueue ch).setPhase (.chain c) (.waitLane h body)).segJob (.chain c) = some _ :=
      segJob_setPhase (s := s.popQueue ch) job _
    have arbiter := setPhase_chain_arbiter (s.popQueue ch) c (.waitLane h body)
    have left : s.sameBut [.store, .ports] ((s.popQueue ch).setPhase (.chain c) (.waitLane h body)) :=
      sameBut_then (popQueue_frame s ch) (setPhase_chain_frame _ c _) (by decide) (by decide)
    have popped : ∀ k, ((s.popQueue ch).setPhase (.chain c) (.waitLane h body)).queue k
        = if k = ch then (s.queue ch).tail else s.queue k := fun k => by
      rw [queue_of_store ((setPhase_chain_frame _ c _).store (by decide))]
      exact queue_popQueue s ch k
    generalize (s.popQueue ch).setPhase (.chain c) (.waitLane h body) = u at *
    have waits := waitForLane_frame u c
    have queue := queue_of_store (waits.store (by decide))
    refine ⟨(segJob_waitForLane u c).trans phase, ?_, ?_, ?_, fun k hk => ?_,
      sameBut_then left waits (by decide) (by decide)⟩
    · show (u.waitForLane c).arbiter.waiting[c.port.val] = _
      simp only [waitForLane_arbiter, arbiter]
      exact vset_get_self _ _ _
    · show ((u.waitForLane c).chain c).state = _
      rw [waitForLane_chain, if_pos rfl]
    · exact (queue ch).trans ((popped ch).trans (if_pos rfl))
    · exact (queue k).trans ((popped k).trans (if_neg hk))
  · subst first
    refine ⟨s.completeSegRead ch outcome, rfl, ?_⟩
    rw [completeSegRead_bad flight bad, if_neg Bool.false_ne_true, startRead_popQueue flight own nobody full]
    generalize hu : (s.popQueue ch).setQueue ch ((s.queue ch).tail ++ [.segRead x (some (.chain c)) true]) = u
    have queue : u.queue ch = (s.queue ch).tail ++ [.segRead x (some (.chain c)) true] := by
      rw [← hu, queue_setQueue, if_pos rfl]
    have moved : s.sameBut [.store] u := by
      rw [← hu]
      exact sameBut_trans (popQueue_frame s ch) (setQueue_frame _ _ _)
    have waited : u.segJob (.chain c) = some g := by
      rw [← hu]
      exact job
    have phased : u.sameBut [.ports] ((u.setPhase (.chain c) .reading).jobState (.chain c) .running) :=
      sameBut_trans (setPhase_chain_frame u c _) (jobState_frame _ _ _)
    exact ⟨(queue_of_store (phased.store (by decide)) ch).trans queue,
      (segJob_setChainState _ c c .running).trans (segJob_setPhase waited .reading),
      sameBut_then moved phased (by decide) (by decide)⟩
  · subst second
    refine ⟨s.completeSegRead ch outcome, rfl, ?_⟩
    rw [completeSegRead_bad flight bad, if_pos rfl]
    have running : g.phase ≠ .waitPin := by rw [reading]; exact fun e => by cases e
    refine ⟨fun r hr => ?_, fun v f hv fields => ?_⟩
    · have current : r.current = some g := by
        rw [show s.segJob (.chain c) = (s.job c).bind Job.seg from rfl, hr] at job
        exact job
      exact retrievalEnds_popQueue (retrievalEnds_of_job (s := s.popQueue ch) hr current running _)
    · have current : v.seg = g := by
        rw [show s.segJob (.chain c) = (s.job c).bind Job.seg from rfl, hv] at job
        exact Option.some.inj job
      subst current
      exact verifyEnds_popQueue (verifyEnds_of_job (s := s.popQueue ch) hv running fields _)
  · have serial : (s.entry x).seg.map (·.serial) = some f.serial := by rw [fields]; rfl
    rw [← serial]
    refine ⟨fun h body good => ?_, fun bad => ⟨fun first channel nobody full => ?_, fun second => ?_⟩⟩
    · refine ⟨s.completeSegRead ch outcome, rfl, ?_⟩
      rw [completeSegRead_good flight good]
      unfold State.readDone
      dsimp only
      rw [setPhase_scrub (s := s.popQueue ch) scrub]
      have popped := queue_popQueue s ch
      refine ⟨rfl, rfl, (popped ch).trans (if_pos rfl), fun k hk => (popped k).trans (if_neg hk), ?_⟩
      exact sameBut_then (m := [.store, .audit, .arbiter]) (popQueue_frame s ch)
        (sameBut_then (m := [.audit, .arbiter]) (setAudit_frame _ _) (setArbiter_frame _ _) (by decide) (by decide))
        (by decide) (by decide)
    · subst first
      refine ⟨s.completeSegRead ch outcome, rfl, ?_⟩
      rw [completeSegRead_bad flight bad, if_neg Bool.false_ne_true, startRead_popQueue flight channel nobody full]
      generalize hu : (s.popQueue ch).setQueue ch ((s.queue ch).tail ++ [.segRead x (some .scrub) true]) = u
      have queue : u.queue ch = (s.queue ch).tail ++ [.segRead x (some .scrub) true] := by
        rw [← hu, queue_setQueue, if_pos rfl]
      have moved : s.sameBut [.store] u := by
        rw [← hu]
        exact sameBut_trans (popQueue_frame s ch) (setQueue_frame _ _ _)
      have audit := moved.audit (by decide)
      have kept : (u.setPhase .scrub .reading).jobState .scrub .running = u.setAudit u.audit := by
        show u.setPhase .scrub .reading = _
        rw [setPhase_scrub (by rw [audit]; exact scrub)]
        rw [← reading, ← scrub, ← audit]
      rw [kept]
      exact ⟨queue, audit, moved⟩
    · subst second
      refine ⟨s.completeSegRead ch outcome, rfl, ?_⟩
      rw [completeSegRead_bad flight bad, if_pos rfl]
      have running : g.phase ≠ .waitPin := by rw [reading]; exact fun e => by cases e
      subst own
      exact scrubEnds_popQueue (scrubEnds_of_job (s := s.popQueue ch) scrub running fields _)
end

section
/-!
SUPPORT. A segment WRITE that ends: what goes with its append, and the STORE halt of its file (R14, R44, R80 to R82, R89).
-/

namespace Sys2Proof.Machine

variable {s t u : State}

/-! ## Steps that take nothing from the Journal -/

/-- No serial is taken, and every entry that awaits durability still does. -/
structure State.journalKept (s t : State) : Prop where
  next : t.journal.next = s.journal.next
  awaits : ∀ e, s.journal.awaits e → t.journal.awaits e
  clock : t.clock = s.clock

theorem journalKept_trans (h : s.journalKept t) (k : t.journalKept u) : s.journalKept u :=
  ⟨k.next.trans h.next, fun e he => k.awaits e (h.awaits e he), k.clock.trans h.clock⟩

theorem journalKept_of_same (hj : t.journal = s.journal) (hc : t.clock = s.clock) : s.journalKept t :=
  ⟨by rw [hj], fun e he => by rw [hj]; exact he, hc⟩

theorem journalKept_of_frame {l : List Part} (h : s.sameBut l t) (hl : Part.journal ∉ l ∧ Part.clock ∉ l) : s.journalKept t :=
  journalKept_of_same (h.journal hl.1) (h.clock hl.2)

theorem journalKept_decideLow (s : State) : s.journalKept s.decideLow :=
  ⟨by rw [decideLow_journal], (rollKeeps_decideLow s).awaits, (decideLow_frame s).clock (by decide)⟩

theorem journalKept_leaveAppend (s : State) (c : ChainRef) : s.journalKept (s.leaveAppend c) := by
  unfold State.leaveAppend
  dsimp only
  split
  · exact journalKept_of_same rfl rfl
  · refine journalKept_trans (journalKept_trans ?_ ⟨(reserveWait_wait _).2, (rollKeeps_reserveWait _).awaits,
      (reserveWait_frame _).clock (by decide)⟩) (journalKept_decideLow _)
    exact ⟨rfl, fun _ he => awaits_of_same rfl rfl he, rfl⟩

theorem journalKept_leaveFeed (s : State) (c : ChainRef) : s.journalKept (s.leaveFeed c) := by
  unfold State.leaveFeed
  refine journalKept_trans ?_ (journalKept_leaveAppend _ c)
  exact journalKept_of_same rfl rfl

theorem journalKept_endFeedOf (s : State) (k : Nat) (st : Status) : s.journalKept (s.endFeedOf k st) := by
  unfold State.endFeedOf
  split
  · unfold State.endFeed
    split
    · exact journalKept_trans (journalKept_leaveFeed s _) (journalKept_of_frame (complete_frame _ _ _) (by decide))
    · exact journalKept_of_same rfl rfl
  · exact journalKept_of_same rfl rfl

/-- An entry appended at once, whatever goes with it that takes nothing from the Journal. -/
theorem ask_appended {body : JBody} {note : AppendNote} (can : s.canAppend 1 = true)
    (hn : (s.appendRaw body).journalKept ((s.appendRaw body).applyNote note s.journal.next)) :
    s.appended body (s.ask body note) := by
  rw [ask_of_canAppend can]
  obtain ⟨next, awaits⟩ := (appendRaw_spec s body).1
  refine appended_decideLow ⟨hn.next.trans next, ?_⟩
  rw [hn.clock]
  exact hn.awaits _ awaits

/-! ## Files of OPEN ports -/

/-- An OPEN port stays OPEN, and its files stay as they are. -/
structure State.openFilesKept (s t : State) : Prop where
  ports : ∀ q, (s.port q).state = .opened → (t.port q).state = .opened
  files : ∀ k f, tget s.files k = some f → (s.port f.owner).state = .opened → tget t.files k = some f

theorem openFilesKept_refl (s : State) : s.openFilesKept s := ⟨fun _ h => h, fun _ _ h _ => h⟩

theorem openFilesKept_trans (h : s.openFilesKept t) (k : t.openFilesKept u) : s.openFilesKept u :=
  ⟨fun q hq => k.ports q (h.ports q hq), fun n f hf hq => k.files n f (h.files n f hf hq) (h.ports _ hq)⟩

theorem openFilesKept_ite {c : Prop} [Decidable c] (h : s.openFilesKept t) (k : s.openFilesKept u) :
    s.openFilesKept (if c then t else u) := by
  split
  · exact h
  · exact k

theorem openFilesKept_of_files (hf : t.files = s.files) (hp : ∀ q, (t.port q).state = (s.port q).state) : s.openFilesKept t :=
  ⟨fun q hq => (hp q).trans hq, fun k f h _ => by rw [hf]; exact h⟩

theorem openFilesKept_notice (s : State) (p : PortId) (k : NoticeKind) (o : NoticeObject) : s.openFilesKept (s.notice p k o) :=
  openFilesKept_of_files ((notice_frame s p k o).files (by decide)) fun q => state_notice s p q k o

theorem openFilesKept_modChain (s : State) (c : ChainRef) (f : Chain → Chain) : s.openFilesKept (s.modChain c f) :=
  openFilesKept_of_files rfl fun q => state_modChain s c f q

theorem orphanFile_of_ne {p : PortId} {f : FileEntry} (h : f.owner ≠ p) : orphanFile p f = f := if_neg h

/-- The end of a drain closes a port that is not OPEN, and orphans only its files. -/
theorem openFilesKept_settleDrain (s : State) (p : PortId) : s.openFilesKept (s.settleDrain p) := by
  unfold State.settleDrain
  split
  · rename_i settles
    have other : ∀ q, (s.port q).state = .opened → q ≠ p := fun q hq e => by
      rw [e, settles.1] at hq
      cases hq
    refine ⟨fun q hq => ?_, fun k f hf hq => ?_⟩
    · rw [port_of_ports ((orphanFiles_frame _ _).ports (by decide)), port_modPort, if_neg (other q hq)]
      exact hq
    · refine (tget_map s.files (orphanFile p) k).trans ?_
      rw [hf, Option.map_some, orphanFile_of_ne (other _ hq)]
  · exact openFilesKept_refl s

theorem openFilesKept_idleChain (s : State) (c : ChainRef) : s.openFilesKept (s.idleChain c) :=
  openFilesKept_trans (openFilesKept_modChain s c _) (openFilesKept_settleDrain _ _)

theorem openFilesKept_complete (s : State) (c : ChainRef) (w : Completion) : s.openFilesKept (s.complete c w) := by
  unfold State.complete
  split
  · exact openFilesKept_refl s
  · rename_i d _
    have posted : s.openFilesKept (s.emit (.completion c.port (d.addr + 32) w)) := openFilesKept_of_files rfl fun _ => rfl
    have noticed := openFilesKept_ite (c := d.notify = true)
      (openFilesKept_trans posted (openFilesKept_notice _ c.port .descriptorDone (.chain c.chain d.addr))) posted
    have told : ∀ {u : State}, s.openFilesKept u → s.openFilesKept
        (if w.status = .fetchTimeout then u.notice c.port .fetchTimeout (.chain c.chain d.addr) else u) := fun h =>
      openFilesKept_ite (openFilesKept_trans h (openFilesKept_notice _ _ _ _)) h
    have idled := openFilesKept_trans noticed (openFilesKept_idleChain _ c)
    refine told (openFilesKept_ite (openFilesKept_trans idled (openFilesKept_notice _ _ _ _)) (openFilesKept_ite idled ?_))
    exact openFilesKept_trans noticed (openFilesKept_modChain _ c _)

theorem openFilesKept_endFeedOf (s : State) (k : Nat) (st : Status) : s.openFilesKept (s.endFeedOf k st) := by
  unfold State.endFeedOf
  split
  · unfold State.endFeed
    split
    · exact openFilesKept_trans (openFilesKept_of_files ((leaveFeed_frame s _).files (by decide)) (leaveFeed_state s _))
        (openFilesKept_complete _ _ _)
    · exact openFilesKept_refl s
  · exact openFilesKept_refl s

/-! ## STORE (R14, R44) -/

theorem raiseStore_journalKept (s : State) (slot : Nat) : s.journalKept (s.raiseStore slot) := by
  unfold State.raiseStore
  split
  · split
    · split
      · refine journalKept_trans ?_ (journalKept_endFeedOf _ _ _)
        split
        · refine journalKept_trans ?_ (journalKept_of_frame (notice_frame _ _ _ _) (by decide))
          exact journalKept_of_same rfl rfl
        · exact journalKept_of_same rfl rfl
      · exact journalKept_of_same rfl rfl
    · exact journalKept_of_same rfl rfl
  · exact journalKept_of_same rfl rfl

theorem raiseStore_bufs (s : State) (slot : Nat) : (s.raiseStore slot).stager.bufs = s.stager.bufs := by
  unfold State.raiseStore
  split
  · split
    · split
      · refine (endFeedOf_bufs _ _ _).1.trans ?_
        split
        · rw [(notice_frame _ _ _ _).stager (by decide)]
          rfl
        · rfl
      · rfl
    · rfl
  · rfl

/-- An OPEN file of an OPEN port halts with cause STORE. -/
theorem raiseStore_halts {slot k : Nat} {st : Stream} {f : FileEntry} (hst : tget s.streams slot = some st)
    (hk : st.file = some k) (hf : tget s.files k = some f) (opened : f.state = .opened)
    (owner : (s.port f.owner).state = .opened) :
    tget (s.raiseStore slot).files k = some { f with state := .halted, haltCause := some .store } := by
  have halt : storeHaltFile (decide ((s.port f.owner).state = .down) || decide ((s.port f.owner).state = .closed)) f
      = ({ f with state := .halted, haltCause := some .store }, true) := by
    unfold storeHaltFile
    rw [opened]
  unfold State.raiseStore
  rw [hst]
  dsimp only
  rw [hk]
  dsimp only
  rw [hf]
  dsimp only
  have ports : ∀ g, (s.modStream slot g).port f.owner = s.port f.owner := fun _ => rfl
  rw [ports, halt, if_pos rfl]
  generalize hu : (State.modFile _ k _) = u
  have halted : tget u.files k = some { f with state := .halted, haltCause := some .store } := by
    rw [← hu, tget_modFile, if_pos rfl]
    exact congrArg (Option.map _) hf
  have still : (u.port f.owner).state = .opened := by
    rw [← hu]
    exact owner
  have kept := openFilesKept_trans (openFilesKept_notice u f.owner .fileHalted (.file st.source f.fileNo))
    (openFilesKept_endFeedOf _ k .haltedFault)
  exact kept.files k _ halted still

/-! ## A segment WRITE that ends (R80 to R82) -/

theorem completeWrite_ok {ch : Channel} {b x attempt : Nat} {v : Staging} {h : SegHeader} {target : Option Nat}
    (flight : s.inFlight ch = some (.segWrite b x)) (hv : tget s.stager.bufs b = some v)
    (hst : v.state = .sealing h attempt target) : s.completeWrite ch true = (s.popQueue ch).segWritten b x v h := by
  unfold State.completeWrite
  rw [flight]
  dsimp only
  rw [show tget (s.popQueue ch).stager.bufs b = some v from hv]
  dsimp only
  rw [hst]
  rfl

theorem completeWrite_failed {ch : Channel} {b x attempt : Nat} {v : Staging} {h : SegHeader} {target : Option Nat}
    (flight : s.inFlight ch = some (.segWrite b x)) (hv : tget s.stager.bufs b = some v)
    (hst : v.state = .sealing h attempt target) : s.completeWrite ch false = (s.popQueue ch).segFailed b x v h attempt := by
  unfold State.completeWrite
  rw [flight]
  dsimp only
  rw [show tget (s.popQueue ch).stager.bufs b = some v from hv]
  dsimp only
  rw [hst]
  rfl

theorem modEntry_journalKept (s : State) (x : Nat) (f : Entry → Entry) : s.journalKept (s.modEntry x f) :=
  journalKept_of_frame (modEntry_frame s x f) (by decide)

/-- The buffer of a seal that failed twice is FAILED, and STORE is raised on its stream. -/
theorem applyNote_sealFailed {b n : Nat} {v : Staging} {h : SegHeader} (hv : tget s.stager.bufs b = some v)
    (hh : v.state.header = some h) :
    s.applyNote (.sealFailed b) n = (s.setBuf b { v with state := .failed h }).raiseStore v.stream := by
  unfold State.applyNote
  dsimp only
  rw [hv]
  dsimp only
  rw [hh]

/-- The SEALED entry appended at once stands with its serial in the entry of its extent. -/
theorem ask_sealEntry {x : Nat} (data : reservedExtents ≤ x) (can : s.canAppend 1 = true) (body : JBody) :
    s.appended body (s.ask body (.sealEntry x))
      ∧ (∀ y, (s.ask body (.sealEntry x)).entry y
          = if y = x then { s.entry x with sealJournal := some s.journal.next } else s.entry y)
      ∧ s.storeGrows (s.ask body (.sealEntry x))
      ∧ s.sameBut [.journal, .store, .catalogue, .scanner, .ports, .out] (s.ask body (.sealEntry x)) := by
  have raw := appendRaw_frame s body
  have noted := modEntry_journalKept (s.appendRaw body) x (fun e => { e with sealJournal := some s.journal.next })
  refine ⟨ask_appended can noted, fun y => ?_, ?_, ?_⟩
  · rw [ask_of_canAppend can, show s.appendWith body (.sealEntry x)
      = ((s.appendRaw body).modEntry x (fun e => { e with sealJournal := some s.journal.next })).decideLow from rfl,
      entry_of_catalogue ((decideLow_frame _).catalogue (by decide)), entry_modEntry _ x y _ data,
      entry_of_catalogue (raw.catalogue (by decide)), entry_of_catalogue (raw.catalogue (by decide))]
  · exact storeGrows_ask s body fun u n => storeGrows_of_store ((modEntry_frame u x _).store (by decide))
  · rw [ask_of_canAppend can]
    exact sameBut_then (m := [.journal, .store, .catalogue, .scanner, .ports, .out])
      (sameBut_then (m := [.journal, .store, .catalogue]) raw (modEntry_frame _ x _) (by decide) (by decide))
      (decideLow_frame _) (by decide) (by decide)

/-- A failed segment WRITE before its BAD_EXTENT entry is asked for. -/
structure State.writeLost (s : State) (b x : Nat) (w : Staging) (t : State) : Prop where
  entry : t.entry x = { Entry.free with state := .bad }
  entries : ∀ y, y ≠ x → t.entry y = s.entry y
  bad : x ∈ t.settings.bad
  buf : tget t.stager.bufs b = some w
  release : t.settings.release = s.settings.release
  frame : s.sameBut [.store, .flash, .settings, .catalogue, .stager] t

theorem writeLost_of_data (s : State) (ch : Channel) (b : Nat) {x : Nat} (data : reservedExtents ≤ x) (w : Staging) :
    s.writeLost b x w ((((s.popQueue ch).setContent x .incomplete).retireExtent x).setBuf b w) := by
  have retired := retired_frame s ch x .incomplete
  have entries := entry_retireExtent ((s.popQueue ch).setContent x .incomplete) data
  have bad := retireExtent_bad ((s.popQueue ch).setContent x .incomplete) x
  have release := retireExtent_release ((s.popQueue ch).setContent x .incomplete) x
  generalize ((s.popQueue ch).setContent x .incomplete).retireExtent x = u at *
  refine ⟨(entries x).trans (if_pos rfl), fun y hy => (entries y).trans (if_neg hy), bad, ?_, release,
    sameBut_then retired (setBuf_frame u b w) (by decide) (by decide)⟩
  rw [tget_setBuf, if_pos rfl]

theorem joinSeals_stager (s : State) (b : Nat) :
    (s.joinSeals b).stager.bufs = s.stager.bufs ∧ b ∈ (s.joinSeals b).stager.seals :=
  ⟨rfl, (mem_insertSeal _ b b _).mpr (.inl rfl)⟩

/-- The seal waits for its second attempt. -/
theorem ask_sealAgain {b : Nat} (can : s.canAppend 1 = true) (body : JBody) :
    s.appended body (s.ask body (.sealAgain b)) ∧ (s.ask body (.sealAgain b)).stager.bufs = s.stager.bufs
      ∧ b ∈ (s.ask body (.sealAgain b)).stager.seals
      ∧ s.sameBut [.journal, .store, .stager, .scanner, .ports, .out] (s.ask body (.sealAgain b)) := by
  have raw := appendRaw_frame s body
  have joins := joinSeals_frame (s := s.appendRaw body) b
  refine ⟨ask_appended can (journalKept_of_frame joins (by decide)), ?_⟩
  rw [ask_of_canAppend can, show s.appendWith body (.sealAgain b) = ((s.appendRaw body).joinSeals b).decideLow from rfl]
  have low := decideLow_frame ((s.appendRaw body).joinSeals b)
  obtain ⟨bufs, waits⟩ := joinSeals_stager (s.appendRaw body) b
  rw [low.stager (by decide), bufs, raw.stager (by decide)]
  refine ⟨rfl, waits, ?_⟩
  exact sameBut_then (m := [.journal, .store, .stager, .scanner, .ports, .out])
    (sameBut_then (m := [.journal, .store, .stager]) raw joins (by decide) (by decide)) low (by decide) (by decide)

/-- The seal is FAILED, and its file halts. -/
structure State.sealLost (s : State) (b : Nat) (v : Staging) (h : SegHeader) (t : State) : Prop where
  buf : tget t.stager.bufs b = some { v with state := .failed h }
  catalogue : t.catalogue = s.catalogue
  settings : t.settings = s.settings
  halts : ∀ st k f, tget s.streams v.stream = some st → st.file = some k → tget s.files k = some f →
    f.state = .opened → (s.port f.owner).state = .opened →
    tget t.files k = some { f with state := .halted, haltCause := some .store }

theorem ask_sealFailed {b : Nat} {v : Staging} {h : SegHeader} (can : s.canAppend 1 = true)
    (hv : tget s.stager.bufs b = some v) (hh : v.state.header = some h) (body : JBody) :
    s.appended body (s.ask body (.sealFailed b)) ∧ s.sealLost b v h (s.ask body (.sealFailed b)) := by
  have raw := appendRaw_frame s body
  have buf : tget (s.appendRaw body).stager.bufs b = some v := by rw [raw.stager (by decide)]; exact hv
  have noted := applyNote_sealFailed (n := s.journal.next) buf hh
  have marked := setBuf_frame (s := s.appendRaw body) b { v with state := .failed h }
  have before : s.sameBut [.journal, .store, .stager] ((s.appendRaw body).setBuf b { v with state := .failed h }) :=
    sameBut_then raw marked (by decide) (by decide)
  have failed : tget ((s.appendRaw body).setBuf b { v with state := .failed h }).stager.bufs b
      = some { v with state := .failed h } := by rw [tget_setBuf, if_pos rfl]
  refine ⟨ask_appended can ?_, ?_⟩
  · rw [noted]
    exact journalKept_trans (journalKept_of_frame marked (by decide)) (raiseStore_journalKept _ _)
  · rw [ask_of_canAppend can, show s.appendWith body (.sealFailed b)
      = ((s.appendRaw body).applyNote (.sealFailed b) s.journal.next).decideLow from rfl, noted]
    generalize (s.appendRaw body).setBuf b { v with state := .failed h } = u at *
    have low := decideLow_frame (u.raiseStore v.stream)
    have raised := raiseStore_frame (s := u) v.stream
    refine ⟨?_, ?_, ?_, fun st k f hst hk hf opened owner => ?_⟩
    · rw [low.stager (by decide), raiseStore_bufs]
      exact failed
    · rw [low.catalogue (by decide), raised.catalogue (by decide), before.catalogue (by decide)]
    · rw [low.settings (by decide), raised.settings (by decide), before.settings (by decide)]
    · rw [low.files (by decide)]
      refine raiseStore_halts (st := st) ?_ hk ?_ opened ?_
      · rw [before.streams (by decide)]; exact hst
      · rw [before.files (by decide)]; exact hf
      · rw [port_of_ports (before.ports (by decide))]; exact owner

end Sys2Proof.Machine

open Sys2Proof Sys2Proof.Machine

/-- Settles O24: the WRITE's outcome stands in the flash, the entry and the buffer, and its entry is appended. -/
theorem segmentWriteSealsOrFails : Obligations.SegmentWriteSealsOrFails := by
  unfold Obligations.SegmentWriteSealsOrFails
  intro s ch b x attempt v h target flight hv hst data can
  refine ⟨⟨s.completeWrite ch true, rfl, ?_⟩, ⟨s.completeWrite ch false, rfl, ?_⟩⟩
  · rw [completeWrite_ok flight hv hst]
    generalize hu : (((s.popQueue ch).setContent x (.segment h (headerCheck h) v.body)).modEntry x
      (fun e => { e with state := .journaling })).freeBuf b = u
    have written : s.sameBut [.flash, .catalogue, .stager, .store] u := by
      rw [← hu]
      have stored : s.sameBut [.flash, .store] ((s.popQueue ch).setContent x (.segment h (headerCheck h) v.body)) :=
        sameBut_then (popQueue_frame s ch) (setContent_frame _ x _) (by decide) (by decide)
      exact sameBut_then (m := [.flash, .catalogue, .stager, .store])
        (sameBut_then (m := [.flash, .catalogue, .store]) stored (modEntry_frame _ x _) (by decide) (by decide))
        (freeBuf_frame _ b) (by decide) (by decide)
    have entries : ∀ y, u.entry y = if y = x then { s.entry x with state := .journaling } else s.entry y := fun y => by
      rw [← hu]
      exact entry_modEntry _ x y _ data
    have content : u.flash.extents = tput s.flash.extents x (.segment h (headerCheck h) v.body) := by
      rw [← hu, (freeBuf_frame _ b).flash (by decide), (modEntry_frame _ x _).flash (by decide)]
      exact setContent_of_ne (s.popQueue ch) x (fun e => by cases e)
    have bufs : u.stager.bufs = tdel s.stager.bufs b := by
      rw [← hu]
      exact congrArg (fun g : Stager => tdel g.bufs b) ((modEntry_frame _ x _).stager (by decide))
    have queue : u.queue ch = (s.queue ch).tail := by
      rw [← hu]
      refine (queue_of_store ((modEntry_frame _ x _).store (by decide)) ch).trans ?_
      exact (queue_popQueue s ch ch).trans (if_pos rfl)
    have journal := written.journal (by decide)
    have room : u.canAppend 1 = true :=
      (canAppend_of_release journal (congrArg Settings.release (written.settings (by decide))) 1).trans can
    obtain ⟨done, sealed, grown, frame⟩ := ask_sealEntry data room (.sealed (sealFields x h.seg))
    rw [show (s.popQueue ch).segWritten b x v h = u.ask (.sealed (sealFields x h.seg)) (.sealEntry x) from by
      rw [← hu]; rfl]
    obtain ⟨more, joined⟩ := grown.queue ch
    refine ⟨?_, fun y hy => ?_, ?_, fun y hy => ?_, ?_, fun k hk => ?_, ?_, ⟨more, ?_⟩,
      sameBut_then written frame (by decide) (by decide)⟩
    · rw [sealed, if_pos rfl, entries, if_pos rfl, journal]
    · rw [sealed, if_neg hy, entries, if_neg hy]
    · rw [frame.flash (by decide), content]
      exact tget_tput_self _ _ _
    · rw [frame.flash (by decide), content]
      exact sameAway_tput _ _ _ y hy
    · rw [frame.stager (by decide), bufs]
      exact tget_tdel_self _ _
    · rw [frame.stager (by decide), bufs]
      exact sameAway_tdel _ _ k hk
    · unfold State.appended at done ⊢
      rw [← journal]
      exact done
    · rw [← queue]
      exact joined.symm
  · rw [completeWrite_failed flight hv hst]
    have lost := writeLost_of_data s ch b data { v with state := .sealing h 2 none }
    rw [show (s.popQueue ch).segFailed b x v h attempt
      = ((((s.popQueue ch).setContent x .incomplete).retireExtent x).setBuf b
          { v with state := .sealing h 2 none }).ask (.badExtent x .writeFailed (some h.seg.serial))
        (if attempt = 1 then .sealAgain b else .sealFailed b) from rfl]
    generalize (((s.popQueue ch).setContent x .incomplete).retireExtent x).setBuf b { v with state := .sealing h 2 none } = u
      at *
    have journal := lost.frame.journal (by decide)
    have room : u.canAppend 1 = true := (canAppend_of_release journal lost.release 1).trans can
    have since : ∀ {t}, u.appended (.badExtent x .writeFailed (some h.seg.serial)) t →
        s.appended (.badExtent x .writeFailed (some h.seg.serial)) t := fun done => by
      unfold State.appended at done ⊢
      rw [← journal]
      exact done
    by_cases first : attempt = 1
    · rw [if_pos first]
      obtain ⟨done, bufs, waits, frame⟩ := ask_sealAgain (b := b) room (.badExtent x .writeFailed (some h.seg.serial))
      have entries := entry_of_catalogue (frame.catalogue (by decide))
      refine ⟨(entries x).trans lost.entry, fun y hy => (entries y).trans (lost.entries y hy), ?_, since done,
        fun _ => ⟨?_, waits, sameBut_then lost.frame frame (by decide) (by decide)⟩, fun later => absurd first later⟩
      · rw [frame.settings (by decide)]
        exact lost.bad
      · rw [bufs]
        exact lost.buf
    · rw [if_neg first]
      obtain ⟨done, gone⟩ := ask_sealFailed room lost.buf rfl (.badExtent x .writeFailed (some h.seg.serial))
      have entries := entry_of_catalogue gone.catalogue
      refine ⟨(entries x).trans lost.entry, fun y hy => (entries y).trans (lost.entries y hy), ?_, since done,
        fun again => absurd again first, fun _ => ⟨gone.buf, fun st k f hstr hk hf opened owner => ?_⟩⟩
      · rw [gone.settings]
        exact lost.bad
      · refine gone.halts st k f ?_ hk ?_ opened ?_
        · rw [lost.frame.streams (by decide)]; exact hstr
        · rw [lost.frame.files (by decide)]; exact hf
        · rw [port_of_ports (lost.frame.ports (by decide))]; exact owner
end

section
/-!
SUPPORT. What the journal scan finds: the entries of the scanned pages, the newest written slot, the write position, the
archive day and the bad extents (R85, R103, R156).
-/

namespace Sys2Proof.Machine

/-! ## Folds -/

/-- What holds of the items folded so far holds of the whole list at the end. -/
theorem foldl_seen {α β : Type} {P : List α → β → Prop} {f : β → α → β} {l : List α}
    (step : ∀ seen b a, a ∈ l → P seen b → P (seen ++ [a]) (f b a)) {b : β} (start : P [] b) : P l (l.foldl f b) := by
  have key : ∀ left seen b, (∀ a ∈ left, a ∈ l) → P seen b → P (seen ++ left) (left.foldl f b) := by
    intro left
    induction left with
    | nil => intro seen b _ h; rwa [List.append_nil]
    | cons a left ih =>
      intro seen b within h
      rw [List.append_cons]
      exact ih _ _ (fun c hc => within c (List.mem_cons_of_mem a hc)) (step seen b a (within a List.mem_cons_self) h)
  exact key l [] b (fun _ h => h) start

theorem foldl_max {α : Type} (g : α → Nat) (l : List α) (m : Nat) :
    m ≤ l.foldl (fun m a => max m (g a)) m ∧ (∀ a ∈ l, g a ≤ l.foldl (fun m a => max m (g a)) m)
      ∧ (l.foldl (fun m a => max m (g a)) m = m ∨ ∃ a ∈ l, g a = l.foldl (fun m a => max m (g a)) m) := by
  induction l generalizing m with
  | nil => exact ⟨Nat.le_refl m, (fun _ h => by cases h), .inl rfl⟩
  | cons a l ih =>
    obtain ⟨least, each, met⟩ := ih (max m (g a))
    rw [List.foldl_cons]
    refine ⟨Nat.le_trans (Nat.le_max_left _ _) least, fun c hc => ?_, ?_⟩
    · rcases List.mem_cons.mp hc with rfl | hc
      · exact Nat.le_trans (Nat.le_max_right _ _) least
      · exact each c hc
    · rcases met with met | ⟨c, hc, met⟩
      · rcases Nat.le_total (g a) m with hle | hle
        · exact .inl (met.trans (Nat.max_eq_left hle))
        · exact .inr ⟨a, List.mem_cons_self, (met.trans (Nat.max_eq_right hle)).symm⟩
      · exact .inr ⟨c, List.mem_cons_of_mem a hc, met⟩

/-! ## The entries found -/

theorem mem_freshEntries {seen : List Nat} {page : List StoredEntry} {e : JEntry} (h : e ∈ freshEntries seen page) :
    ⟨e, true⟩ ∈ page := by
  induction page generalizing seen with
  | nil => cases h
  | cons p page ih =>
    unfold freshEntries at h
    split at h
    · rename_i fresh
      rcases List.mem_cons.mp h with rfl | h
      · rw [Bool.and_eq_true] at fresh
        exact List.mem_cons.mpr (.inl (by rw [← fresh.1]))
      · exact List.mem_cons_of_mem p (ih h)
    · exact List.mem_cons_of_mem p (ih h)

/-- Every serial of a page whose check holds is fresh or has been seen. -/
theorem freshEntries_covers {page : List StoredEntry} {e : JEntry} (h : ⟨e, true⟩ ∈ page) (seen : List Nat) :
    e.serial ∈ seen ∨ ∃ f ∈ freshEntries seen page, f.serial = e.serial := by
  induction page generalizing seen with
  | nil => cases h
  | cons p page ih =>
    unfold freshEntries
    rcases List.mem_cons.mp h with rfl | h
    · by_cases old : e.serial ∈ seen
      · exact .inl old
      · rw [if_pos (by simpa using old)]
        exact .inr ⟨e, List.mem_cons_self, rfl⟩
    · split
      · rcases ih h (p.entry.serial :: seen) with old | ⟨f, hf, hs⟩
        · rcases List.mem_cons.mp old with same | old
          · exact .inr ⟨p.entry, List.mem_cons_self, same.symm⟩
          · exact .inl old
        · exact .inr ⟨f, List.mem_cons_of_mem _ hf, hs⟩
      · exact ih h seen

/-- The pages found among some slots, without the serials already seen. -/
def foundFrom : List Nat → Table (List StoredEntry) → Table (List JEntry)
  | _, [] => []
  | seen, (k, page) :: rest =>
    (if (freshEntries seen page).isEmpty then [] else [(k, freshEntries seen page)])
      ++ foundFrom ((freshEntries seen page).map (·.serial) ++ seen) rest

theorem mem_foundEntries_cons (seen : List Nat) (k : Nat) (page : List StoredEntry) (rest : Table (List StoredEntry))
    (e : JEntry) : e ∈ foundEntries (foundFrom seen ((k, page) :: rest)) ↔ e ∈ freshEntries seen page
      ∨ e ∈ foundEntries (foundFrom ((freshEntries seen page).map (·.serial) ++ seen) rest) := by
  rw [foundFrom]
  unfold foundEntries
  rw [List.flatMap_append, List.mem_append]
  refine or_congr_left ?_
  split
  · rename_i none
    rw [List.isEmpty_iff.mp none]
    rfl
  · simp

theorem foundPages_eq (scanned : Table (List StoredEntry)) : foundPages scanned = foundFrom [] scanned := by
  have key : ∀ (l : Table (List StoredEntry)) (acc : Table (List JEntry) × List Nat),
      (l.foldl (fun (acc : Table (List JEntry) × List Nat) p =>
        let fresh := freshEntries acc.2 p.2
        (if fresh.isEmpty then acc.1 else acc.1 ++ [(p.1, fresh)], fresh.map (·.serial) ++ acc.2)) acc).1
        = acc.1 ++ foundFrom acc.2 l := by
    intro l
    induction l with
    | nil => intro acc; exact (List.append_nil _).symm
    | cons p l ih =>
      intro acc
      rw [List.foldl_cons, ih, foundFrom]
      dsimp only
      split
      · rw [List.nil_append]
      · rw [List.append_assoc]
  exact key scanned ([], [])

theorem mem_foundFrom {seen : List Nat} {l : Table (List StoredEntry)} {k : Nat} {es : List JEntry}
    (h : (k, es) ∈ foundFrom seen l) : es ≠ [] ∧ ∃ page, (k, page) ∈ l ∧ ∀ e ∈ es, ⟨e, true⟩ ∈ page := by
  induction l generalizing seen with
  | nil => cases h
  | cons p l ih =>
    obtain ⟨j, page⟩ := p
    rw [foundFrom] at h
    rcases List.mem_append.mp h with h | h
    · split at h
      · cases h
      · rename_i fresh
        obtain ⟨rfl, rfl⟩ := Prod.mk.inj (List.mem_singleton.mp h)
        exact ⟨fun e => fresh (List.isEmpty_iff.mpr e), page, List.mem_cons_self, fun e => mem_freshEntries⟩
    · obtain ⟨some, page', mem, all⟩ := ih h
      exact ⟨some, page', List.mem_cons_of_mem _ mem, all⟩

theorem foundFrom_covers {l : Table (List StoredEntry)} {k : Nat} {page : List StoredEntry} (hk : (k, page) ∈ l) {e : JEntry}
    (he : ⟨e, true⟩ ∈ page) (seen : List Nat) :
    e.serial ∈ seen ∨ ∃ f ∈ foundEntries (foundFrom seen l), f.serial = e.serial := by
  induction l generalizing seen with
  | nil => cases hk
  | cons p l ih =>
    obtain ⟨j, q⟩ := p
    have fresh : ∀ f ∈ freshEntries seen q, f ∈ foundEntries (foundFrom seen ((j, q) :: l)) := fun f hf =>
      (mem_foundEntries_cons seen j q l f).mpr (.inl hf)
    rcases List.mem_cons.mp hk with same | hk
    · obtain ⟨rfl, rfl⟩ := Prod.mk.inj same
      exact (freshEntries_covers he seen).imp_right fun ⟨f, hf, hs⟩ => ⟨f, fresh f hf, hs⟩
    · rcases ih hk ((freshEntries seen q).map (·.serial) ++ seen) with old | ⟨f, hf, hs⟩
      · rcases List.mem_append.mp old with old | old
        · obtain ⟨f, hf, hs⟩ := List.mem_map.mp old
          exact .inr ⟨f, fresh f hf, hs⟩
        · exact .inl old
      · exact .inr ⟨f, (mem_foundEntries_cons seen j q l f).mpr (.inr hf), hs⟩

section
variable {scanned : Table (List StoredEntry)} (rising : Table.rising scanned = true) (agree : copiesAgree scanned)

theorem mem_foundPages {scanned : Table (List StoredEntry)} (rising : Table.rising scanned = true) {k : Nat}
    {es : List JEntry} (h : (k, es) ∈ foundPages scanned) : es ≠ [] ∧ ∀ e ∈ es, foundAt scanned k e := by
  rw [foundPages_eq] at h
  obtain ⟨some, page, mem, all⟩ := mem_foundFrom h
  exact ⟨some, fun e he => ⟨page, tget_of_mem rising mem, all e he⟩⟩

include rising agree in
/-- The entries found are those whose checks hold. -/
theorem mem_foundEntries (e : JEntry) : e ∈ foundEntries (foundPages scanned) ↔ ∃ slot, foundAt scanned slot e := by
  have found : ∀ f ∈ foundEntries (foundPages scanned), ∃ slot, foundAt scanned slot f := fun f hf => by
    obtain ⟨⟨k, es⟩, mem, hf⟩ := List.mem_flatMap.mp hf
    exact ⟨k, (mem_foundPages rising mem).2 f hf⟩
  refine ⟨found e, fun ⟨slot, page, hp, he⟩ => ?_⟩
  rcases foundFrom_covers (mem_of_tget hp) he [] with old | ⟨f, hf, hs⟩
  · cases old
  · rw [← foundPages_eq] at hf
    obtain ⟨other, hother⟩ := found f hf
    rwa [← agree other slot f e hother ⟨page, hp, he⟩ hs]

/-! ## The newest serial and the newest slot (R156, steps 1 and 5) -/

include rising agree in
theorem newestFound_of_max (release : Nat) : newestFound scanned release
    (max release ((foundEntries (foundPages scanned)).foldl (fun m e => max m e.serial) 0)) := by
  obtain ⟨-, each, met⟩ := foldl_max JEntry.serial (foundEntries (foundPages scanned)) 0
  have member := mem_foundEntries rising agree
  generalize (foundEntries (foundPages scanned)).foldl (fun m e => max m e.serial) 0 = m at *
  refine ⟨Nat.le_max_left _ _, fun slot e he => Nat.le_trans (each e ((member e).mpr ⟨slot, he⟩)) (Nat.le_max_right _ _), ?_⟩
  rcases Nat.le_total m release with hle | hle
  · exact .inl (Nat.max_eq_left hle)
  · rw [Nat.max_eq_right hle]
    rcases met with rfl | ⟨e, he, hs⟩
    · exact .inl (Nat.le_zero.mp hle).symm
    · obtain ⟨slot, hslot⟩ := (member e).mp he
      exact .inr ⟨slot, e, hslot, hs⟩

/-- One page in the search for the slot that holds the greatest serial. -/
def newerSlot (best : Option (Nat × Nat)) (p : Nat × List JEntry) : Option (Nat × Nat) :=
  match (p.2.map (·.serial)).max?, best with
  | some n, some b => if b.1 < n then some (n, p.1) else best
  | some n, none => some (n, p.1)
  | none, _ => best

/-- The best of the pages seen: a slot that holds their greatest serial. -/
def newestOf (pages : List (Nat × List JEntry)) : Option (Nat × Nat) → Prop
  | none => pages = []
  | some b => (∃ es, (b.2, es) ∈ pages ∧ ∃ e ∈ es, e.serial = b.1) ∧ ∀ p ∈ pages, ∀ e ∈ p.2, e.serial ≤ b.1

theorem newestOf_newerSlot {seen : List (Nat × List JEntry)} {best : Option (Nat × Nat)} {p : Nat × List JEntry}
    (h : newestOf seen best) (some : p.2 ≠ []) : newestOf (seen ++ [p]) (newerSlot best p) := by
  obtain ⟨n, hn⟩ : ∃ n, (p.2.map (·.serial)).max? = Option.some n := by
    cases hm : (p.2.map (·.serial)).max? with
    | none => exact absurd (List.map_eq_nil_iff.mp (List.max?_eq_none_iff.mp hm)) some
    | some n => exact ⟨n, rfl⟩
  obtain ⟨mem, most⟩ := (List.max?_eq_some_iff (xs := p.2.map (·.serial))).mp hn
  obtain ⟨e, he, hs⟩ := List.mem_map.mp mem
  have taken : newestOf [p] (Option.some (n, p.1)) := by
    refine ⟨⟨p.2, List.mem_singleton_self p, e, he, hs⟩, fun q hq f hf => ?_⟩
    rw [List.mem_singleton.mp hq] at hf
    exact most _ (List.mem_map.mpr ⟨f, hf, rfl⟩)
  unfold newerSlot
  rw [hn]
  cases best with
  | none =>
    rw [show seen = [] from h]
    exact taken
  | some b =>
    obtain ⟨⟨es, hes, f, hf, hfs⟩, greatest⟩ := h
    obtain ⟨-, within⟩ := taken
    dsimp only
    split
    · refine ⟨⟨p.2, by simp, e, he, hs⟩, fun q hq g hg => ?_⟩
      rcases List.mem_append.mp hq with hq | hq
      · have := greatest q hq g hg
        dsimp only
        omega
      · exact within q hq g hg
    · refine ⟨⟨es, List.mem_append_left _ hes, f, hf, hfs⟩, fun q hq g hg => ?_⟩
      rcases List.mem_append.mp hq with hq | hq
      · exact greatest q hq g hg
      · have := within q hq g hg
        dsimp only at this
        omega

theorem newestSlot_eq (pages : Table (List JEntry)) :
    newestSlot pages = (pages.foldl newerSlot none).map Prod.snd := rfl

theorem newestSlot_newest (rising : Table.rising scanned = true) :
    newestOf (foundPages scanned) ((foundPages scanned).foldl newerSlot none) := by
  refine foldl_seen (P := newestOf) (fun seen best p hp h => ?_) rfl
  exact newestOf_newerSlot h (mem_foundPages rising hp).1

include rising agree in
theorem newestSlot_of_newestWritten {w : Nat} {e : JEntry} (h : newestWritten scanned w e) :
    newestSlot (foundPages scanned) = some w := by
  obtain ⟨found, greatest, alone⟩ := h
  have newest := newestSlot_newest rising
  rw [newestSlot_eq]
  obtain ⟨⟨k, es⟩, hk, he⟩ := List.mem_flatMap.mp ((mem_foundEntries rising agree e).mpr ⟨w, found⟩)
  cases hb : (foundPages scanned).foldl newerSlot none with
  | none =>
    rw [hb] at newest
    rw [show foundPages scanned = [] from newest] at hk
    cases hk
  | some b =>
    rw [hb] at newest
    obtain ⟨⟨es', hes, f, hf, hs⟩, most⟩ := newest
    have at_ := (mem_foundPages rising hes).2 f hf
    have above := most _ hk e he
    have below := greatest b.2 f at_
    exact congrArg some (alone b.2 f at_ (by omega))

theorem newestSlot_of_none (rising : Table.rising scanned = true) (h : ∀ slot e, ¬ foundAt scanned slot e) :
    newestSlot (foundPages scanned) = none := by
  have newest := newestSlot_newest rising
  rw [newestSlot_eq]
  cases hb : (foundPages scanned).foldl newerSlot none with
  | none => rfl
  | some b =>
    rw [hb] at newest
    obtain ⟨⟨es, hes, f, hf, -⟩, -⟩ := newest
    exact absurd ((mem_foundPages rising hes).2 f hf) (h _ f)

end

/-! ## The write position (R156, step 5) -/

theorem firstErased_some {scanned : Table (List StoredEntry)} {n slot k : Nat} (from_ : slot ≤ k) (within : k < slot + n)
    (erased : tget scanned k = none) (full : ∀ j, slot ≤ j → j < k → tget scanned j ≠ none) :
    firstErased scanned n slot = some k := by
  induction n generalizing slot with
  | zero => omega
  | succ n ih =>
    unfold firstErased erasedSlot
    by_cases same : slot = k
    · rw [same, erased]
      rfl
    · have written := full slot (Nat.le_refl _) (by omega)
      rw [if_neg (by simpa using written)]
      exact ih (by omega) (by omega) fun j hj => full j (by omega)

theorem firstErased_none {scanned : Table (List StoredEntry)} {n slot : Nat}
    (full : ∀ j, slot ≤ j → j < slot + n → tget scanned j ≠ none) : firstErased scanned n slot = none := by
  induction n generalizing slot with
  | zero => rfl
  | succ n ih =>
    unfold firstErased erasedSlot
    have written := full slot (Nat.le_refl _) (by omega)
    rw [if_neg (by simpa using written)]
    exact ih fun j hj hn => full j (by omega) (by omega)

theorem scanPosition_within {scanned : Table (List StoredEntry)} {w k : Nat} (after : w < k) (same : k / 8192 = w / 8192)
    (erased : tget scanned k = none) (full : ∀ j, w < j → j < k → tget scanned j ≠ none) :
    (scanPosition scanned (some w)).1 = k := by
  have first : firstErased scanned (8192 - 1 - w % 8192) (w + 1) = some k :=
    firstErased_some after (by omega) erased fun j hj => full j hj
  unfold scanPosition extentSlots
  dsimp only
  rw [first]

theorem scanPosition_beyond {scanned : Table (List StoredEntry)} {w : Nat}
    (full : ∀ k, w < k → k / 8192 = w / 8192 → tget scanned k ≠ none) :
    (scanPosition scanned (some w)).1 = (w / 8192 + 1) * 8192 % 32768 := by
  have none : firstErased scanned (8192 - 1 - w % 8192) (w + 1) = none :=
    firstErased_none fun j hj hn => full j hj (by omega)
  unfold scanPosition slotExtent journalSlots extentSlots
  dsimp only
  rw [none]
  dsimp only
  omega

/-! ## The archive day and the bad extents -/

theorem mem_badFromJournal (entries : List JEntry) (release x : Nat) : x ∈ badFromJournal entries release ↔
    ∃ e ∈ entries, ∃ cause serial, e.body = .badExtent x cause serial ∧ release < e.serial := by
  refine foldl_seen (P := fun (seen : List JEntry) (l : List Nat) => x ∈ l ↔
    ∃ e ∈ seen, ∃ cause serial, e.body = .badExtent x cause serial ∧ release < e.serial) (fun seen l e _ h => ?_) (by simp)
  have more : (∃ f ∈ seen ++ [e], ∃ cause serial, f.body = .badExtent x cause serial ∧ release < f.serial)
      ↔ x ∈ l ∨ ∃ cause serial, e.body = .badExtent x cause serial ∧ release < e.serial := by
    rw [h]
    simp only [List.mem_append, List.mem_singleton, or_and_right, exists_or, exists_eq_left]
  rw [more]
  split
  · rename_i y cause serial body
    rw [body]
    split
    · rename_i unreleased
      rw [mem_insertNat]
      constructor
      · rintro (rfl | old)
        · exact .inr ⟨cause, serial, rfl, unreleased⟩
        · exact .inl old
      · rintro (old | ⟨_, _, same, -⟩)
        · exact .inr old
        · exact .inl (JBody.badExtent.inj same).1.symm
    · rename_i released
      exact ⟨.inl, fun k => k.elim id fun ⟨_, _, _, now⟩ => absurd now released⟩
  · rename_i other
    exact ⟨.inl, fun k => k.elim id fun ⟨cause, serial, body, _⟩ => absurd body (other x cause serial)⟩

theorem dayFromJournal_greatest (entries : List JEntry) :
    (∀ e ∈ entries, e.time / 86400 ≤ dayFromJournal entries)
      ∧ (dayFromJournal entries = 0 ∨ ∃ e ∈ entries, e.time / 86400 = dayFromJournal entries) :=
  (foldl_max (fun e : JEntry => dayOf e.time) entries 0).2

end Sys2Proof.Machine
end

section
/-!
SUPPORT. The settings records restored at the end of the journal scan: the policy rows and the hold slots (R108, R110, R115).
-/

namespace Sys2Proof.Machine

variable {s t u : State}

/-! ## What start-up's later steps keep -/

/-- The clock and the scan's findings stand, and what has been asked for is appended or waits. -/
structure State.startKept (s t : State) : Prop where
  clock : t.clock = s.clock
  next : s.journal.next ≤ t.journal.next
  durable : t.journal.durable = s.journal.durable
  writePos : t.journal.writePos = s.journal.writePos
  lastSlot : t.journal.lastSlot = s.journal.lastSlot
  awaits : ∀ e, s.journal.awaits e → t.journal.awaits e
  waits : ∀ r ∈ s.journal.wait, r ∈ t.journal.wait

theorem startKept_of_same (hj : t.journal = s.journal) (hc : t.clock = s.clock) : s.startKept t :=
  ⟨hc, by rw [hj], by rw [hj], by rw [hj], by rw [hj], fun e he => by rw [hj]; exact he, fun r hr => by rw [hj]; exact hr⟩

theorem startKept_refl (s : State) : s.startKept s := startKept_of_same rfl rfl

theorem startKept_of_frame {l : List Part} (h : s.sameBut l t) (hl : Part.journal ∉ l ∧ Part.clock ∉ l) : s.startKept t :=
  startKept_of_same (h.journal hl.1) (h.clock hl.2)

theorem startKept_trans (h : s.startKept t) (k : t.startKept u) : s.startKept u :=
  ⟨k.clock.trans h.clock, Nat.le_trans h.next k.next, k.durable.trans h.durable, k.writePos.trans h.writePos,
    k.lastSlot.trans h.lastSlot, fun e he => k.awaits e (h.awaits e he), fun r hr => k.waits r (h.waits r hr)⟩

theorem asked_of_startKept {body : JBody} {note : AppendNote} (h : s.startKept t) (k : s.asked body note) :
    t.asked body note := by
  rcases k with ⟨n, hn⟩ | waits
  · exact .inl ⟨n, by rw [h.clock]; exact h.awaits _ hn⟩
  · exact .inr (h.waits _ waits)

theorem startKept_appendRaw (s : State) (body : JBody) : s.startKept (s.appendRaw body) := by
  obtain ⟨-, awaits, rest⟩ := appendRaw_spec s body
  refine ⟨(appendRaw_frame s body).clock (by decide), ?_, rest.durable, rest.writePos, rest.lastSlot, awaits, fun r hr => ?_⟩
  · exact Nat.le_trans (Nat.le_succ _) (Nat.le_of_eq rest.next.symm)
  · rw [rest.wait]
    exact hr

theorem startKept_decideLow (s : State) : s.startKept s.decideLow := by
  have awaits := (rollKeeps_decideLow s).awaits
  have clock := (decideLow_frame s).clock (by decide)
  refine ⟨clock, ?_, ?_, ?_, ?_, awaits, fun r hr => ?_⟩
  all_goals rw [decideLow_journal]
  exact hr

theorem startKept_reserveWait (s : State) : s.startKept s.reserveWait := by
  refine ⟨(reserveWait_frame s).clock (by decide), Nat.le_of_eq (reserveWait_wait s).2.symm, ?_, ?_, ?_,
    (rollKeeps_reserveWait s).awaits, fun r hr => by rw [(reserveWait_wait s).1]; exact hr⟩
  all_goals
    unfold State.reserveWait
    split
    · rfl
    · rfl

theorem startKept_joinAppend (s : State) (r : AppendReq) : s.startKept (s.joinAppend r) := by
  unfold State.joinAppend
  refine startKept_trans (startKept_trans ?_ (startKept_reserveWait _)) (startKept_decideLow _)
  exact ⟨rfl, Nat.le_refl _, rfl, rfl, rfl, fun _ he => awaits_of_same rfl rfl he, fun _ hr => List.mem_append_left _ hr⟩

/-- An append asked for, whose effect leaves the Journal and the clock. -/
theorem startKept_ask (s : State) (body : JBody) {note : AppendNote}
    (hn : ∀ (u : State) n, (u.applyNote note n).journal = u.journal ∧ (u.applyNote note n).clock = u.clock) :
    s.startKept (s.ask body note) := by
  unfold State.ask
  split
  · have noted := hn (s.appendRaw body) s.journal.next
    exact startKept_trans (startKept_trans (startKept_appendRaw s body) (startKept_of_same noted.1 noted.2))
      (startKept_decideLow _)
  · exact startKept_joinAppend s _

theorem asked_plain (s : State) (body : JBody) : (s.ask body .plain).asked body .plain :=
  asked_of_appendsOrWaits (ask_appendsOrWaits s body plain_note)

/-! ## Damaged records -/

theorem isDamaged_iff (g : Settings) (id : SettingsId) : g.isDamaged id = true ↔ id ∈ g.damaged := List.contains_iff_mem

theorem mem_writtenBack (g : Settings) (id d : SettingsId) : d ∈ (g.writtenBack id).damaged ↔ d ∈ g.damaged ∧ d ≠ id := by
  unfold Settings.writtenBack
  simp [List.mem_filter]

/-- Whether a record found damaged at power-on is written back by a step that restores it where it is damaged. -/
theorem mem_damaged_restored {g : Settings} {id d : SettingsId} (h : id ∉ g.damaged) :
    d ∈ g.damaged ↔ d ∈ g.damaged ∧ d ≠ id :=
  ⟨fun hd => ⟨hd, fun e => h (e ▸ hd)⟩, And.left⟩

/-! ## A policy row (R108) -/

/-- A row changed, with its entry asked for. -/
def State.putRow (s : State) (i : Fin 8) (n : Nat) (cause : RestoreCause) : State :=
  ((s.setSettings { s.settings with rows := vset s.settings.rows i n }).restoredOne (.row i)).ask
    (.policyRestored i.val n cause) .plain

theorem restoreRow_eq (s : State) (i : Fin 8) : s.restoreRow i =
    if s.settings.isDamaged (.row i) then s.putRow i 0 .checkFailed
    else if daysRead s.settings.rows[i.val] < floorRead s.straps.floor then
      s.putRow i (floorRead s.straps.floor) .floor
    else s := rfl

/-- The parts that the restoring of a row can change. -/
def rowParts : List Part := [.settings, .boot, .journal, .store, .scanner, .ports, .out]

theorem restoredOne_frame (s : State) (id : SettingsId) : s.sameBut [.settings, .boot] (s.restoredOne id) :=
  sameBut_then (setSettings_frame s _) (setBoot_frame _ _) (by decide) (by decide)

/-- What the restoring of settings records keeps beside what it restores. -/
structure State.restoring (s t : State) : Prop where
  kept : s.startKept t
  frame : s.sameBut rowParts t
  scanned : t.boot.scanned = s.boot.scanned
  holds : t.settings.holds = s.settings.holds
  savedDay : t.settings.savedDay = s.settings.savedDay
  release : t.settings.release = s.settings.release
  bad : t.settings.bad = s.settings.bad

theorem restoring_refl (s : State) : s.restoring s := ⟨startKept_refl s, sameBut_refl _ s, rfl, rfl, rfl, rfl, rfl⟩

theorem restoring_trans (h : s.restoring t) (k : t.restoring u) : s.restoring u :=
  ⟨startKept_trans h.kept k.kept, sameBut_trans h.frame k.frame, k.scanned.trans h.scanned, k.holds.trans h.holds,
    k.savedDay.trans h.savedDay, k.release.trans h.release, k.bad.trans h.bad⟩

/-- What a row put leaves and sets. -/
structure State.rowPut (s : State) (i : Fin 8) (n : Nat) (cause : RestoreCause) (t : State) : Prop where
  restoring : s.restoring t
  rows : t.settings.rows = vset s.settings.rows i n
  damaged : ∀ d, d ∈ t.settings.damaged ↔ d ∈ s.settings.damaged ∧ d ≠ .row i
  asked : t.asked (.policyRestored i.val n cause) .plain

theorem rowPut_putRow (s : State) (i : Fin 8) (n : Nat) (cause : RestoreCause) : s.rowPut i n cause (s.putRow i n cause) := by
  unfold State.putRow
  generalize hu : (s.setSettings { s.settings with rows := vset s.settings.rows i n }).restoredOne (.row i) = u
  have put : s.sameBut [.settings, .boot] u := by
    rw [← hu]
    exact sameBut_then (setSettings_frame s _) (restoredOne_frame _ _) (by decide) (by decide)
  have asked := ask_plain_frame (s := u) (.policyRestored i.val n cause)
  have settings := asked.settings (by decide)
  have damaged := mem_writtenBack { s.settings with rows := vset s.settings.rows i n } (.row i)
  refine ⟨⟨startKept_trans (startKept_of_frame put (by decide)) (startKept_ask u _ plain_note),
    sameBut_then put asked (by decide) (by decide), ?_, ?_, ?_, ?_, ?_⟩, ?_, fun d => ?_, asked_plain u _⟩
  · rw [asked.boot (by decide), ← hu]
    rfl
  all_goals
    rw [settings, ← hu]
  · rfl
  · rfl
  · rfl
  · rfl
  · rfl
  · exact damaged d

/-- The rows restored so far. -/
structure State.rowsRestored (s : State) (seen : List (Fin 8)) (t : State) : Prop where
  restoring : s.restoring t
  done : ∀ i ∈ seen, s.rowRestored i t
  still : ∀ i, i ∉ seen → t.settings.rows[i.val] = s.settings.rows[i.val]
  damaged : ∀ d, d ∈ t.settings.damaged ↔ d ∈ s.settings.damaged ∧ ∀ i ∈ seen, d ≠ .row i
  next : (∀ i : Fin 8, SettingsId.row i ∉ s.settings.damaged) →
    (∀ i : Fin 8, floorRead s.straps.floor ≤ daysRead s.settings.rows[i.val]) → t.journal.next = s.journal.next

theorem rowRestored_of_same {i : Fin 8} (h : s.rowRestored i t) (hr : u.settings.rows[i.val] = t.settings.rows[i.val])
    (hk : t.startKept u) : s.rowRestored i u := by
  obtain ⟨failed, low, as_⟩ := h
  refine ⟨fun d => ?_, fun d b => ?_, fun d b => hr.trans (as_ d b)⟩
  · exact ⟨hr.trans (failed d).1, asked_of_startKept hk (failed d).2⟩
  · exact ⟨hr.trans (low d b).1, asked_of_startKept hk (low d b).2⟩

theorem row_vset_of_ne {i j : Fin 8} (h : j ≠ i) (rows : Vector Nat 8) (n : Nat) : (vset rows i n)[j.val] = rows[j.val] :=
  vset_get_of_ne _ h _

/-- A row put where its record failed or lay below the floor. -/
theorem rowsRestored_put {seen : List (Fin 8)} {i : Fin 8} {n : Nat} {cause : RestoreCause} (h : s.rowsRestored seen t)
    (new : i ∉ seen) (hput : t.rowPut i n cause u)
    (ends : u.settings.rows[i.val] = n → u.asked (.policyRestored i.val n cause) .plain → s.rowRestored i u)
    (busy : ¬ ((∀ j : Fin 8, SettingsId.row j ∉ s.settings.damaged)
      ∧ ∀ j : Fin 8, floorRead s.straps.floor ≤ daysRead s.settings.rows[j.val])) :
    s.rowsRestored (seen ++ [i]) u := by
  have other : ∀ j : Fin 8, j ≠ i → u.settings.rows[j.val] = t.settings.rows[j.val] := fun j hj => by
    rw [hput.rows]
    exact row_vset_of_ne hj _ _
  refine ⟨restoring_trans h.restoring hput.restoring, fun j hj => ?_, fun j hj => ?_, fun d => ?_,
    fun sound above => absurd ⟨sound, above⟩ busy⟩
  · rcases List.mem_append.mp hj with hj | hj
    · exact rowRestored_of_same (h.done j hj) (other j fun e => new (e ▸ hj)) hput.restoring.kept
    · obtain rfl := List.mem_singleton.mp hj
      refine ends ?_ hput.asked
      rw [hput.rows]
      exact vset_get_self _ _ _
  · rw [List.mem_append, not_or, List.mem_singleton] at hj
    obtain ⟨unseen, ne⟩ := hj
    exact (other j ne).trans (h.still j unseen)
  · rw [hput.damaged, h.damaged]
    constructor
    · rintro ⟨⟨hd, all⟩, hi⟩
      refine ⟨hd, fun j hj => ?_⟩
      rcases List.mem_append.mp hj with hj | hj
      · exact all j hj
      · rwa [List.mem_singleton.mp hj]
    · rintro ⟨hd, all⟩
      exact ⟨⟨hd, fun j hj => all j (List.mem_append_left _ hj)⟩, all i (by simp)⟩

theorem rowsRestored_restoreRow {seen : List (Fin 8)} {i : Fin 8} (h : s.rowsRestored seen t) (new : i ∉ seen) :
    s.rowsRestored (seen ++ [i]) (t.restoreRow i) := by
  have days := h.still i new
  have straps := h.restoring.frame.straps (by decide)
  have damaged : t.settings.isDamaged (.row i) = true ↔ SettingsId.row i ∈ s.settings.damaged := by
    rw [isDamaged_iff, h.damaged]
    exact ⟨And.left, fun hd => ⟨hd, fun j hj e => new (SettingsId.row.inj e ▸ hj)⟩⟩
  rw [restoreRow_eq, straps, days]
  by_cases failed : SettingsId.row i ∈ s.settings.damaged
  · rw [if_pos (damaged.mpr failed)]
    refine rowsRestored_put h new (rowPut_putRow t i 0 .checkFailed) (fun hn ask => ?_) fun sound => sound.1 i failed
    exact ⟨fun _ => ⟨hn, ask⟩, fun ok => absurd failed ok, fun ok => absurd failed ok⟩
  · rw [if_neg (fun e => failed (damaged.mp e))]
    by_cases below : daysRead s.settings.rows[i.val] < floorRead s.straps.floor
    · rw [if_pos below]
      refine rowsRestored_put h new (rowPut_putRow t i (floorRead s.straps.floor) .floor) (fun hn ask => ?_)
        fun sound => absurd below (Nat.not_lt.mpr (sound.2 i))
      exact ⟨fun bad => absurd bad failed, fun _ _ => ⟨hn, ask⟩, fun _ ok => absurd below ok⟩
    · rw [if_neg below]
      refine ⟨h.restoring, fun j hj => ?_, fun j hj => h.still j fun e => hj (List.mem_append_left _ e), fun d => ?_, h.next⟩
      · rcases List.mem_append.mp hj with hj | hj
        · exact h.done j hj
        · obtain rfl := List.mem_singleton.mp hj
          exact ⟨fun bad => absurd bad failed, fun _ low => absurd low below, fun _ _ => days⟩
      · rw [h.damaged]
        refine ⟨fun ⟨hd, all⟩ => ⟨hd, fun j hj => ?_⟩, fun ⟨hd, all⟩ => ⟨hd, fun j hj => all j (List.mem_append_left _ hj)⟩⟩
        rcases List.mem_append.mp hj with hj | hj
        · exact all j hj
        · rw [List.mem_singleton.mp hj]
          exact fun e => failed (e ▸ hd)

theorem rowsRestored_classes (s : State) : s.rowsRestored classes (classes.foldl State.restoreRow s) := by
  have step : ∀ (todo seen : List (Fin 8)) (t : State), s.rowsRestored seen t → (seen ++ todo).Nodup →
      s.rowsRestored (seen ++ todo) (todo.foldl State.restoreRow t) := by
    intro todo
    induction todo with
    | nil => intro seen t h _; rwa [List.append_nil]
    | cons i todo ih =>
      intro seen t h distinct
      rw [List.append_cons] at distinct ⊢
      have new : i ∉ seen := fun hi =>
        (List.nodup_append.mp (List.nodup_append.mp distinct).1).2.2 i hi i (List.mem_singleton_self i) rfl
      exact ih _ _ (rowsRestored_restoreRow h new) distinct
  refine step classes [] s ⟨restoring_refl s, (fun _ h => by cases h), fun _ _ => rfl, fun d => ?_, fun _ _ => rfl⟩ (by decide)
  exact ⟨fun hd => ⟨hd, fun _ h => by cases h⟩, And.left⟩

theorem mem_classes (i : Fin 8) : i ∈ classes := by revert i; decide

end Sys2Proof.Machine
end

section
/-!
SUPPORT. The hold slots at the end of the journal scan (R110, R115).
-/

namespace Sys2Proof.Machine

variable {s t u : State} {g : Settings} {today : Nat}

/-! ## The damaged hold slots -/

theorem holdDamage_none_iff (g : Settings) (slot : Nat) :
    g.holdDamage slot = none ↔ ∀ k id, SettingsId.hold k id ∈ g.damaged → k.val ≠ slot := by
  unfold Settings.holdDamage
  rw [List.findSome?_eq_none_iff]
  constructor
  · intro h k id hd e
    have none : (if k.val = slot then some id else Option.none) = Option.none := h _ hd
    rw [if_pos e] at none
    cases none
  · intro h d hd
    split
    · rename_i k id
      exact if_neg (h k id hd)
    · rfl

theorem mem_of_holdDamage {slot id : Nat} (h : g.holdDamage slot = some id) :
    ∃ k : Fin 64, k.val = slot ∧ SettingsId.hold k id ∈ g.damaged := by
  unfold Settings.holdDamage at h
  obtain ⟨d, hd, hsome⟩ := List.exists_of_findSome?_eq_some h
  split at hsome
  · rename_i k id'
    split at hsome
    · rename_i e
      obtain rfl := Option.some.inj hsome
      exact ⟨k, e, hd⟩
    · cases hsome
  · cases hsome

theorem holdDamage_of_mem {k : Fin 64} {id : Nat} (h : SettingsId.hold k id ∈ g.damaged) :
    ∃ id', g.holdDamage k.val = some id' := by
  cases hd : g.holdDamage k.val with
  | none => exact absurd rfl ((holdDamage_none_iff g k.val).mp hd k id h)
  | some id' => exact ⟨id', rfl⟩

theorem mem_holdSlots (k : Fin 64) : k.val ∈ holdSlots := List.mem_range.mpr k.isLt

theorem tget_filter_keys {α : Type} (t : Table α) (q : Nat → Bool) (n : Nat) :
    tget (t.filter (fun p => q p.1)) n = if q n = true then tget t n else none := by
  induction t with
  | nil => split <;> rfl
  | cons p t ih =>
    obtain ⟨k, v⟩ := p
    rw [List.filter_cons]
    by_cases hk : q k = true
    · rw [if_pos hk, tget_cons, tget_cons, ih]
      by_cases e : n = k
      · rw [if_pos e, if_pos e, e, if_pos hk]
      · rw [if_neg e, if_neg e]
    · rw [if_neg hk, ih, tget_cons]
      by_cases e : n = k
      · rw [e, if_neg hk, if_neg hk]
      · rw [if_neg e]

theorem carriesId_iff (holds : Table Hold) (id : Nat) : carriesId holds id = true ↔ ∃ p ∈ holds, p.2.id = id := by
  unfold carriesId
  simp [List.any_eq_true]

theorem nextHoldId_range (holds : Table Hold) (n last : Nat) :
    1 ≤ nextHoldId holds n last ∧ nextHoldId holds n last ≤ 65535 := by
  induction n generalizing last with
  | zero =>
    unfold nextHoldId
    omega
  | succ n ih =>
    unfold nextHoldId
    split
    · exact ih _
    · omega

/-! ## The ids that can be kept -/

/-- What the keeping of ids has done with the slots seen. -/
structure idsKept (g : Settings) (today : Nat) (holds : Table Hold) (seen : List Nat) (t : Table Hold) : Prop where
  rising : Table.rising t = true
  undamaged : ∀ k, g.holdDamage k = none → tget t k = tget holds k
  origin : ∀ p ∈ t, p ∈ holds ∨ g.holdDamage p.1 = some p.2.id ∧ 1 ≤ p.2.id ∧ p.2.id ≤ 65535
    ∧ p.2 = unknownHold p.2.id today
  keeps : ∀ k ∈ seen, ∀ id, g.holdDamage k = some id → 1 ≤ id → id ≤ 65535 →
    (∀ j, g.holdDamage j = some id → j = k) → (∀ p ∈ holds, p.2.id ≠ id) → tget t k = some (unknownHold id today)

theorem idsKept_put {holds t : Table Hold} {seen : List Nat} {k id : Nat} (h : idsKept g today holds seen t)
    (damage : g.holdDamage k = some id) (least : 1 ≤ id) (most : id ≤ 65535) :
    idsKept g today holds (seen ++ [k]) (tput t k (unknownHold id today)) := by
  refine ⟨rising_tput h.rising _ _, fun j hj => ?_, fun p hp => ?_, fun j hj id' damage' least' most' own free => ?_⟩
  · rw [tget_tput_of_ne (fun e => by rw [e, damage] at hj; cases hj)]
    exact h.undamaged j hj
  · rcases mem_tput hp with rfl | hp
    · exact .inr ⟨damage, least, most, rfl⟩
    · exact h.origin p hp
  · by_cases same : j = k
    · subst same
      obtain rfl := Option.some.inj (damage.symm.trans damage')
      exact tget_tput_self _ _ _
    · rw [tget_tput_of_ne same]
      refine h.keeps j ?_ id' damage' least' most' own free
      rcases List.mem_append.mp hj with hj | hj
      · exact hj
      · exact absurd (List.mem_singleton.mp hj) same

theorem idsKept_skip {holds t : Table Hold} {seen : List Nat} {k : Nat} (h : idsKept g today holds seen t)
    (skip : ∀ id, g.holdDamage k = some id → 1 ≤ id → id ≤ 65535 → ∃ p ∈ t, p.2.id = id) :
    idsKept g today holds (seen ++ [k]) t := by
  refine ⟨h.rising, h.undamaged, h.origin, fun j hj id damage least most own free => ?_⟩
  rcases List.mem_append.mp hj with hj | hj
  · exact h.keeps j hj id damage least most own free
  · obtain rfl := List.mem_singleton.mp hj
    obtain ⟨p, hp, carried⟩ := skip id damage least most
    rcases h.origin p hp with old | ⟨given, -, -, made⟩
    · exact absurd carried (free p old)
    · rw [carried] at given made
      rw [← own p.1 given, ← made]
      exact tget_of_mem h.rising hp

theorem idsKept_keepIds (g : Settings) (today : Nat) {holds : Table Hold} (rising : Table.rising holds = true) :
    idsKept g today holds holdSlots (g.keepIds today holds) := by
  unfold Settings.keepIds
  refine foldl_seen (P := idsKept g today holds) (fun seen t k _ h => ?_)
    ⟨rising, fun _ _ => rfl, fun _ => .inl, fun _ hk => by cases hk⟩
  split
  · rename_i id damage
    split
    · rename_i valid
      exact idsKept_put h damage valid.1 valid.2.1
    · rename_i invalid
      refine idsKept_skip h fun id' damage' least most => (carriesId_iff t id').mp ?_
      obtain rfl := Option.some.inj (damage.symm.trans damage')
      by_contra free
      exact invalid ⟨least, most, free⟩
  · rename_i none
    refine idsKept_skip h fun id' damage' => ?_
    rw [none] at damage'
    cases damage'

/-! ## New ids -/

/-- What the giving of new ids has done with the slots seen. -/
structure idsGiven (g : Settings) (today : Nat) (before : Table Hold) (last : Nat) (seen : List Nat) (r : Table Hold × Nat) :
    Prop where
  kept : ∀ k h, tget before k = some h → tget r.1 k = some h
  undamaged : ∀ k, g.holdDamage k = none → tget r.1 k = tget before k
  origin : ∀ k h, tget r.1 k = some h → tget before k = some h ∨ 1 ≤ h.id ∧ h.id ≤ 65535 ∧ h = unknownHold h.id today
  filled : ∀ k ∈ seen, g.holdDamage k ≠ none → ∃ h, tget r.1 k = some h
  last : (∀ k, g.holdDamage k = none) → r.2 = last

theorem idsGiven_put {before t : Table Hold} {last last' : Nat} {seen : List Nat} {k : Nat}
    (h : idsGiven g today before last seen (t, last')) (damaged : g.holdDamage k ≠ none) (free : tget t k = none) {id : Nat}
    (least : 1 ≤ id) (most : id ≤ 65535) :
    idsGiven g today before last (seen ++ [k]) (tput t k (unknownHold id today), id) := by
  have other : ∀ j v, tget t j = some v → j ≠ k := fun j v hj e => by rw [e, free] at hj; cases hj
  refine ⟨fun j v hj => ?_, fun j hj => ?_, fun j v hv => ?_, fun j hj damage => ?_, fun all => absurd (all k) damaged⟩
  · have stood := h.kept j v hj
    exact (tget_tput_of_ne (other j v stood) _ _).trans stood
  · exact (tget_tput_of_ne (fun e => damaged (by rw [← e]; exact hj)) _ _).trans (h.undamaged j hj)
  · rw [tget_tput] at hv
    split at hv
    · obtain rfl := Option.some.inj hv
      exact .inr ⟨least, most, rfl⟩
    · exact h.origin j v hv
  · rcases List.mem_append.mp hj with hj | hj
    · obtain ⟨v, hv⟩ := h.filled j hj damage
      exact ⟨v, (tget_tput_of_ne (other j v hv) _ _).trans hv⟩
    · obtain rfl := List.mem_singleton.mp hj
      exact ⟨_, tget_tput_self _ _ _⟩

theorem idsGiven_giveIds (g : Settings) (today : Nat) (before : Table Hold) (last : Nat) :
    idsGiven g today before last holdSlots (g.giveIds today before last) := by
  unfold Settings.giveIds
  refine foldl_seen (P := idsGiven g today before last) (fun seen r k _ h => ?_)
    ⟨fun _ _ hk => hk, fun _ _ => rfl, fun _ _ => .inl, (fun _ hk => by cases hk), fun _ => rfl⟩
  obtain ⟨t, last'⟩ := r
  dsimp only
  split
  · rename_i takes
    rw [Bool.and_eq_true, Option.isNone_iff_eq_none, Option.isSome_iff_ne_none] at takes
    obtain ⟨least, most⟩ := nextHoldId_range t 64 last'
    exact idsGiven_put h takes.1 takes.2 least most
  · rename_i stays
    refine ⟨h.kept, h.undamaged, h.origin, fun j hj damage => ?_, h.last⟩
    rcases List.mem_append.mp hj with hj | hj
    · exact h.filled j hj damage
    · obtain rfl := List.mem_singleton.mp hj
      refine Option.ne_none_iff_exists'.mp fun free => stays ?_
      rw [free, Bool.and_eq_true]
      exact ⟨Option.isSome_iff_ne_none.mpr damage, rfl⟩

/-! ## The slots restored -/

/-- The holds of the slots that are not damaged. -/
def Settings.goodHolds (g : Settings) : Table Hold := g.holds.filter (fun p => (g.holdDamage p.1).isNone)

/-- The holds as start-up leaves them, with the last id given. -/
def Settings.restoredHolds (g : Settings) (today : Nat) : Table Hold × Nat :=
  g.giveIds today (g.keepIds today g.goodHolds) (greatestId (g.keepIds today g.goodHolds))

theorem restoreHolds_eq (s : State) : s.restoreHolds =
    ((s.setSettings { s.settings with holds := (s.settings.restoredHolds s.today).1,
                                      damaged := s.settings.damaged.filter (fun d => !isHoldSlot d) }).setRetention
      { s.retention with lastHoldId := (s.settings.restoredHolds s.today).2 }).setBoot
      { s.boot with restored := s.boot.restored + holdSlots.countP (fun k => (s.settings.holdDamage k).isSome) } := rfl

theorem tget_goodHolds (g : Settings) (k : Nat) :
    tget g.goodHolds k = if g.holdDamage k = none then tget g.holds k else none := by
  unfold Settings.goodHolds
  rw [tget_filter_keys g.holds (fun k => (g.holdDamage k).isNone) k]
  simp only [Option.isNone_iff_eq_none]

theorem rising_goodHolds (h : Table.rising g.holds = true) : Table.rising g.goodHolds = true := rising_filter h _

/-- A slot that is not damaged stays as it was. -/
theorem restoredHolds_undamaged (rising : Table.rising g.holds = true) (today : Nat) {k : Nat} (h : g.holdDamage k = none) :
    tget (g.restoredHolds today).1 k = tget g.holds k := by
  have given := idsGiven_giveIds g today (g.keepIds today g.goodHolds) (greatestId (g.keepIds today g.goodHolds))
  have kept := idsKept_keepIds g today (rising_goodHolds rising)
  unfold Settings.restoredHolds
  rw [given.undamaged k h, kept.undamaged k h, tget_goodHolds, if_pos h]

/-- A damaged slot becomes an unknown hold. -/
theorem restoredHolds_damaged (rising : Table.rising g.holds = true) (today : Nat) {k : Fin 64}
    (damaged : g.holdDamage k.val ≠ none) : ∃ h, tget (g.restoredHolds today).1 k.val = some h
      ∧ h = unknownHold h.id today ∧ 1 ≤ h.id ∧ h.id ≤ 65535 := by
  have given := idsGiven_giveIds g today (g.keepIds today g.goodHolds) (greatestId (g.keepIds today g.goodHolds))
  have kept := idsKept_keepIds g today (rising_goodHolds rising)
  obtain ⟨h, hh⟩ := given.filled k.val (mem_holdSlots k) damaged
  refine ⟨h, hh, ?_⟩
  rcases given.origin k.val h hh with old | ⟨least, most, made⟩
  · rcases kept.origin (k.val, h) (mem_of_tget old) with good | ⟨-, least, most, made⟩
    · have none := tget_goodHolds g k.val
      rw [if_neg damaged, tget_of_mem (rising_goodHolds rising) good] at none
      cases none
    · exact ⟨made, least, most⟩
  · exact ⟨made, least, most⟩

/-- A damaged slot keeps a valid id that no other slot has. -/
theorem restoredHolds_keeps (rising : Table.rising g.holds = true) (today : Nat) {k : Fin 64} {id : Nat}
    (damage : g.holdDamage k.val = some id) (least : 1 ≤ id) (most : id ≤ 65535)
    (own : ∀ j, g.holdDamage j = some id → j = k.val) (free : ∀ p ∈ g.holds, p.2.id = id → p.1 = k.val) :
    tget (g.restoredHolds today).1 k.val = some (unknownHold id today) := by
  have given := idsGiven_giveIds g today (g.keepIds today g.goodHolds) (greatestId (g.keepIds today g.goodHolds))
  have kept := idsKept_keepIds g today (rising_goodHolds rising)
  refine given.kept k.val _ (kept.keeps k.val (mem_holdSlots k) id damage least most own fun p hp carried => ?_)
  obtain ⟨hp, good⟩ := List.mem_filter.mp hp
  rw [free p hp carried, damage] at good
  cases good

/-- With no slot damaged the last id is the greatest. -/
theorem restoredHolds_last (rising : Table.rising g.holds = true) (today : Nat) (h : ∀ k, g.holdDamage k = none) :
    (∀ p ∈ g.holds, p.2.id ≤ (g.restoredHolds today).2)
      ∧ ((g.restoredHolds today).2 = 0 ∨ ∃ p ∈ g.holds, p.2.id = (g.restoredHolds today).2) := by
  have given := idsGiven_giveIds g today (g.keepIds today g.goodHolds) (greatestId (g.keepIds today g.goodHolds))
  have kept := idsKept_keepIds g today (rising_goodHolds rising)
  have same : ∀ p, p ∈ g.keepIds today g.goodHolds ↔ p ∈ g.holds := fun p => by
    obtain ⟨k, v⟩ := p
    rw [mem_iff_tget kept.rising, mem_iff_tget rising, kept.undamaged k (h k), tget_goodHolds, if_pos (h k)]
  obtain ⟨-, each, met⟩ := foldl_max (fun p : Nat × Hold => p.2.id) (g.keepIds today g.goodHolds) 0
  rw [show (g.restoredHolds today).2 = _ from given.last h]
  exact ⟨fun p hp => each p ((same p).mpr hp), met.imp_right fun ⟨p, hp, hid⟩ => ⟨p, (same p).mp hp, hid⟩⟩

/-- A state after the restoring of its hold slots, with the clock and the holds that it leaves. -/
theorem holdsRestored_of_holds (rising : Table.rising s.settings.holds = true)
    (holds : t.settings.holds = (s.settings.restoredHolds t.today).1)
    (last : t.retention.lastHoldId = (s.settings.restoredHolds t.today).2) : s.holdsRestored t := by
  refine ⟨fun slot sound => ?_, fun k id hd => ?_, fun sound => ?_⟩
  · rw [holds]
    exact restoredHolds_undamaged rising _ ((holdDamage_none_iff _ _).mpr sound)
  · rw [holds]
    obtain ⟨id', damage⟩ := holdDamage_of_mem hd
    have failed : s.settings.holdDamage k.val ≠ none := by
      rw [damage]
      exact Option.some_ne_none _
    obtain ⟨h, hh, made, least, most⟩ := restoredHolds_damaged rising t.today failed
    refine ⟨h, hh, made, least, most, fun valid top own free => ?_⟩
    have carried : ∀ {slot : Nat}, s.settings.holdDamage slot = some id → slot = k.val := fun hslot => by
      obtain ⟨j, rfl, hj⟩ := mem_of_holdDamage hslot
      rw [(own j id hj).mpr rfl]
    obtain ⟨j, hj, hmem⟩ := mem_of_holdDamage damage
    obtain rfl := (own j id' hmem).mp (Fin.ext hj)
    have keeps := restoredHolds_keeps rising t.today damage valid top (fun slot => carried) free
    rw [hh] at keeps
    rw [Option.some.inj keeps]
    rfl
  · have none : ∀ k, s.settings.holdDamage k = none := fun k =>
      (holdDamage_none_iff _ _).mpr fun j id hd => absurd hd (sound j id)
    rw [last]
    exact restoredHolds_last rising t.today none

end Sys2Proof.Machine
end

section
/-!
SUPPORT. The end of the journal scan, step by step (R85, R96, R103, R108, R115, R156, R169, R170).
-/

namespace Sys2Proof.Machine

variable {s t u : State}

/-! ## A record restored where it is damaged (R169) -/

/-- A record restored where it is damaged, the settings then standing at a value with that record put right. -/
def State.recordRestored (s : State) (id : SettingsId) (v : Settings) : State :=
  if s.settings.isDamaged id then (s.setSettings v).restoredOne id else s

/-- What the restoring of a record where it is damaged does and leaves. -/
structure State.recordDone (s : State) (id : SettingsId) (v : Settings) (t : State) : Prop where
  sound : id ∉ s.settings.damaged → t = s
  failed : id ∈ s.settings.damaged → t.settings = v.writtenBack id
  keeps : ∀ {α : Type} (f : Settings → α), f v = f s.settings → (∀ g : Settings, f (g.writtenBack id) = f g) →
    f t.settings = f s.settings
  damaged : ∀ d, d ∈ t.settings.damaged ↔ d ∈ s.settings.damaged ∧ d ≠ id
  boot : ∃ n, t.boot = { s.boot with restored := n }
  frame : s.sameBut [.settings, .boot] t

theorem recordDone_recordRestored {id : SettingsId} {v : Settings} (hv : v.damaged = s.settings.damaged) :
    s.recordDone id v (s.recordRestored id v) := by
  unfold State.recordRestored
  by_cases h : id ∈ s.settings.damaged
  · rw [if_pos ((isDamaged_iff _ _).mpr h)]
    refine ⟨fun sound => absurd h sound, fun _ => rfl, fun f fv fw => (fw v).trans fv, fun d => ?_, ⟨_, rfl⟩,
      sameBut_then (setSettings_frame s v) (restoredOne_frame _ _) (by decide) (by decide)⟩
    exact (mem_writtenBack v id d).trans (by rw [hv])
  · rw [if_neg fun e => h ((isDamaged_iff _ _).mp e)]
    exact ⟨fun _ => rfl, fun failed => absurd failed h, fun _ _ _ => rfl, fun d => mem_damaged_restored h, ⟨_, rfl⟩,
      sameBut_refl _ s⟩

/-! ## The Journal after its scan (R156, steps 1 to 5) -/

/-- The newest serial that the scan finds. -/
def newestSerial (release : Nat) (pages : Table (List JEntry)) : Nat :=
  max release ((foundEntries pages).foldl (fun m e => max m e.serial) 0)

/-- The states of the journal extents after the scan. -/
def State.scannedExtents (s : State) (pages : Table (List JEntry)) : Vector JExtState 4 :=
  Vector.ofFn (scanExtent s.boot.scanned pages s.settings.release (scanPosition s.boot.scanned (newestSlot pages)))

/-- The Journal's values at the end of its scan, before the ERASEs of extents are requested. -/
def State.journalSet (s : State) (pages : Table (List JEntry)) : State :=
  let n := newestSerial s.settings.release pages
  (s.setBoot { s.boot with
      newestFound := n,
      lost := n - s.settings.release
        - (foundEntries pages).countP (fun e => decide (s.settings.release < e.serial)) }).setJournal
    { s.journal with
      next := n + 1, durable := n, writePos := (scanPosition s.boot.scanned (newestSlot pages)).1,
      lastSlot := newestSlot pages, extents := s.scannedExtents pages,
      pageMap := pages.map (fun p => (p.1, p.2.map (·.serial))) }

/-- The extents found to be erased have their ERASEs requested. -/
def State.eraseScanned (s : State) (states : Vector JExtState 4) : State :=
  four.foldl (fun s x => if states[x.val] = .erasing then s.eraseJournal x else s) s

theorem recordRestored_scanned (s : State) (id : SettingsId) (v : Settings) :
    (s.recordRestored id v).boot.scanned = s.boot.scanned := by
  unfold State.recordRestored
  split
  · rfl
  · rfl

theorem scanJournal_eq (s : State) (pages : Table (List JEntry)) :
    let u := s.recordRestored .release { s.settings with release := releaseFromMap pages }
    s.scanJournal pages = (u.journalSet pages).eraseScanned (u.scannedExtents pages) := by
  intro u
  have scanned : u.boot.scanned = s.boot.scanned := recordRestored_scanned s _ _
  unfold State.journalSet State.scannedExtents
  rw [scanned]
  rfl

/-- The Journal's numbers stand beside the extents erased. -/
theorem eraseScanned_journal (s : State) (states : Vector JExtState 4) :
    ∃ x, (s.eraseScanned states).journal = { s.journal with extents := x } := by
  unfold State.eraseScanned
  refine foldl_seen (P := fun _ (t : State) => ∃ x, t.journal = { s.journal with extents := x }) (fun _ t x _ h => ?_) ⟨_, rfl⟩
  obtain ⟨y, hy⟩ := h
  split
  · refine ⟨vset y x .erasing, ?_⟩
    unfold State.eraseJournal
    rw [(request_frame _ _ _).journal (by decide)]
    show { t.journal with extents := vset t.journal.extents x .erasing } = _
    rw [hy]
  · exact ⟨y, hy⟩

theorem eraseScanned_frame (s : State) (states : Vector JExtState 4) :
    s.sameBut [.journal, .store] (s.eraseScanned states) :=
  sameBut_foldl (fun s x => sameBut_ite (eraseJournal_frame s x) (sameBut_refl _ s)) four s

/-- The Journal as the scan leaves it. -/
structure State.journalScanned (s t : State) : Prop where
  found : newestFound s.boot.scanned t.settings.release t.journal.durable
  next : t.journal.next = t.journal.durable + 1
  writePos : t.journal.writePos = (scanPosition s.boot.scanned (newestSlot (foundPages s.boot.scanned))).1
  lastSlot : t.journal.lastSlot = newestSlot (foundPages s.boot.scanned)
  release : SettingsId.release ∉ s.settings.damaged → t.settings.release = s.settings.release
  records : t.settings.rows = s.settings.rows ∧ t.settings.holds = s.settings.holds
    ∧ t.settings.savedDay = s.settings.savedDay ∧ t.settings.bad = s.settings.bad
  damaged : ∀ d, d ∈ t.settings.damaged ↔ d ∈ s.settings.damaged ∧ d ≠ .release
  scanned : t.boot.scanned = s.boot.scanned
  frame : s.sameBut [.settings, .boot, .journal, .store] t

theorem journalScanned_scanJournal (rising : Table.rising s.boot.scanned = true) (agree : copiesAgree s.boot.scanned) :
    s.journalScanned (s.scanJournal (foundPages s.boot.scanned)) := by
  rw [scanJournal_eq]
  dsimp only
  have restored := recordDone_recordRestored (s := s) (id := .release)
    (v := { s.settings with release := releaseFromMap (foundPages s.boot.scanned) }) rfl
  have scanned := recordRestored_scanned s .release { s.settings with release := releaseFromMap (foundPages s.boot.scanned) }
  generalize s.recordRestored .release { s.settings with release := releaseFromMap (foundPages s.boot.scanned) } = u at *
  obtain ⟨x, journal⟩ := eraseScanned_journal (u.journalSet (foundPages s.boot.scanned))
    (u.scannedExtents (foundPages s.boot.scanned))
  have erased := eraseScanned_frame (u.journalSet (foundPages s.boot.scanned)) (u.scannedExtents (foundPages s.boot.scanned))
  have settings : _ = u.settings := erased.settings (by decide)
  have boot := erased.boot (by decide)
  have set : u.sameBut [.boot, .journal] (u.journalSet (foundPages s.boot.scanned)) :=
    sameBut_then (setBoot_frame u _) (setJournal_frame _ _) (by decide) (by decide)
  generalize (u.journalSet (foundPages s.boot.scanned)).eraseScanned (u.scannedExtents (foundPages s.boot.scanned)) = t at *
  refine ⟨?_, ?_, ?_, ?_, fun h => ?_, ?_, fun d => ?_, ?_, ?_⟩
  · rw [settings, journal]
    exact newestFound_of_max rising agree u.settings.release
  · rw [journal]
    rfl
  · rw [journal, ← scanned]
    rfl
  · rw [journal]
    rfl
  · rw [settings, restored.sound h]
  · rw [settings]
    exact ⟨restored.keeps Settings.rows rfl fun _ => rfl, restored.keeps Settings.holds rfl fun _ => rfl,
      restored.keeps Settings.savedDay rfl fun _ => rfl, restored.keeps Settings.bad rfl fun _ => rfl⟩
  · rw [settings]
    exact restored.damaged d
  · rw [boot, ← scanned]
    rfl
  · exact sameBut_then (m := [.settings, .boot, .journal, .store]) restored.frame
      (sameBut_then (m := [.boot, .journal, .store]) set erased (by decide) (by decide)) (by decide) (by decide)

/-- The write position and the last slot found follow from the newest written slot. -/
theorem journalFound_of_scan {scanned : Table (List StoredEntry)} (rising : Table.rising scanned = true)
    (agree : copiesAgree scanned) (durable : newestFound scanned t.settings.release t.journal.durable)
    (next : t.journal.durable < t.journal.next)
    (writePos : t.journal.writePos = (scanPosition scanned (newestSlot (foundPages scanned))).1)
    (lastSlot : t.journal.lastSlot = newestSlot (foundPages scanned)) : t.journalFound scanned := by
  refine ⟨durable, next, fun nothing => ?_, fun w e newest => ?_, fun w e k newest after same erased full => ?_,
    fun w e newest full => ?_⟩
  · rw [writePos, lastSlot, newestSlot_of_none rising nothing]
    exact ⟨rfl, rfl⟩
  · rw [lastSlot, newestSlot_of_newestWritten rising agree newest]
  · rw [writePos, newestSlot_of_newestWritten rising agree newest]
    exact scanPosition_within after same erased full
  · rw [writePos, newestSlot_of_newestWritten rising agree newest]
    exact scanPosition_beyond full

/-! ## The saved day and the table of bad extents (R85, R103) -/

theorem scanSettings_eq (s : State) (pages : Table (List JEntry)) :
    let a := s.recordRestored .savedDay { s.settings with savedDay := dayFromJournal (foundEntries pages) }
    let b := a.recordRestored .badTable
      { a.settings with bad := badFromJournal (foundEntries pages) a.settings.release }
    s.scanSettings pages = b.setClock { b.clock with value := b.settings.savedDay * 86400 } := rfl

/-- The saved day and the bad extents as the scan restores them, and the clock. -/
structure State.settingsScanned (s : State) (scanned : Table (List StoredEntry)) (t : State) : Prop where
  clock : t.clock.value = t.settings.savedDay * 86400
  savedDay : SettingsId.savedDay ∉ s.settings.damaged → t.settings.savedDay = s.settings.savedDay
  dayFound : SettingsId.savedDay ∈ s.settings.damaged →
    (∀ slot e, foundAt scanned slot e → e.time / 86400 ≤ t.settings.savedDay)
    ∧ (t.settings.savedDay = 0 ∨ ∃ slot e, foundAt scanned slot e ∧ e.time / 86400 = t.settings.savedDay)
  bad : SettingsId.badTable ∉ s.settings.damaged → t.settings.bad = s.settings.bad
  badFound : SettingsId.badTable ∈ s.settings.damaged → ∀ x, x ∈ t.settings.bad ↔
    ∃ slot e cause serial, foundAt scanned slot e ∧ e.body = .badExtent x cause serial ∧ s.settings.release < e.serial
  records : t.settings.rows = s.settings.rows ∧ t.settings.holds = s.settings.holds ∧ t.settings.release = s.settings.release
  damaged : ∀ d, d ∈ t.settings.damaged ↔ d ∈ s.settings.damaged ∧ d ≠ .savedDay ∧ d ≠ .badTable
  scanned : t.boot.scanned = s.boot.scanned
  frame : s.sameBut [.settings, .boot, .clock] t

theorem settingsScanned_scanSettings {scanned : Table (List StoredEntry)} (rising : Table.rising scanned = true)
    (agree : copiesAgree scanned) (s : State) : s.settingsScanned scanned (s.scanSettings (foundPages scanned)) := by
  have member := mem_foundEntries rising agree
  obtain ⟨each, met⟩ := dayFromJournal_greatest (foundEntries (foundPages scanned))
  have bads := mem_badFromJournal (foundEntries (foundPages scanned))
  rw [scanSettings_eq]
  dsimp only
  generalize foundEntries (foundPages scanned) = entries at *
  have day := recordDone_recordRestored (s := s) (id := .savedDay)
    (v := { s.settings with savedDay := dayFromJournal entries }) rfl
  have dayScanned := recordRestored_scanned s .savedDay { s.settings with savedDay := dayFromJournal entries }
  generalize s.recordRestored .savedDay { s.settings with savedDay := dayFromJournal entries } = a at *
  have release := day.keeps Settings.release rfl fun _ => rfl
  have bad := recordDone_recordRestored (s := a) (id := .badTable)
    (v := { a.settings with bad := badFromJournal entries a.settings.release }) rfl
  have badScanned := recordRestored_scanned a .badTable { a.settings with bad := badFromJournal entries a.settings.release }
  generalize a.recordRestored .badTable { a.settings with bad := badFromJournal entries a.settings.release } = b at *
  have sameDay := bad.keeps Settings.savedDay rfl fun _ => rfl
  have badDamaged : SettingsId.badTable ∈ a.settings.damaged ↔ SettingsId.badTable ∈ s.settings.damaged := by
    rw [day.damaged]
    exact ⟨And.left, fun h => ⟨h, fun e => by cases e⟩⟩
  refine ⟨rfl, fun h => ?_, fun h => ?_, fun h => ?_, fun h x => ?_, ⟨?_, ?_, ?_⟩, fun d => ?_,
    badScanned.trans dayScanned, ?_⟩
  · exact sameDay.trans (by rw [day.sound h])
  · have found : b.settings.savedDay = dayFromJournal entries := sameDay.trans (by rw [day.failed h]; rfl)
    show (∀ slot e, _ → _ ≤ b.settings.savedDay) ∧ (b.settings.savedDay = 0 ∨ ∃ slot e, _ ∧ _ = b.settings.savedDay)
    rw [found]
    refine ⟨fun slot e he => each e ((member e).mpr ⟨slot, he⟩), met.imp_right fun ⟨e, he, hd⟩ => ?_⟩
    obtain ⟨slot, hslot⟩ := (member e).mp he
    exact ⟨slot, e, hslot, hd⟩
  · show b.settings.bad = s.settings.bad
    rw [bad.sound fun e => h (badDamaged.mp e)]
    exact day.keeps Settings.bad rfl fun _ => rfl
  · have found : b.settings.bad = badFromJournal entries s.settings.release := by
      rw [bad.failed (badDamaged.mpr h), ← release]
      rfl
    show x ∈ b.settings.bad ↔ _
    rw [found, bads]
    constructor
    · rintro ⟨e, he, cause, serial, body, unreleased⟩
      obtain ⟨slot, hslot⟩ := (member e).mp he
      exact ⟨slot, e, cause, serial, hslot, body, unreleased⟩
    · rintro ⟨slot, e, cause, serial, hslot, body, unreleased⟩
      exact ⟨e, (member e).mpr ⟨slot, hslot⟩, cause, serial, body, unreleased⟩
  · exact (bad.keeps Settings.rows rfl fun _ => rfl).trans (day.keeps Settings.rows rfl fun _ => rfl)
  · exact (bad.keeps Settings.holds rfl fun _ => rfl).trans (day.keeps Settings.holds rfl fun _ => rfl)
  · exact (bad.keeps Settings.release rfl fun _ => rfl).trans release
  · show d ∈ b.settings.damaged ↔ _
    rw [bad.damaged, day.damaged, and_assoc]
  · exact sameBut_then (m := [.settings, .boot, .clock]) (sameBut_trans day.frame bad.frame) (setClock_frame b _)
      (by decide) (by decide)

end Sys2Proof.Machine
end

section
/-!
SUPPORT. The rebuild begins, and the journal scan ends (R96, R156, R170).
-/

namespace Sys2Proof.Machine

variable {s t u : State}

/-! ## The next header (R96) -/

theorem skipBad_ge (bad : List Nat) (n x : Nat) : x ≤ skipBad bad n x := by
  induction n generalizing x with
  | zero => exact Nat.le_refl x
  | succ n ih =>
    unfold skipBad
    split
    · exact Nat.le_trans (Nat.le_succ x) (ih (x + 1))
    · exact Nat.le_refl x

/-- No extent that is not marked BAD is skipped. -/
theorem skipBad_le {bad : List Nat} {y : Nat} (sound : y ∉ bad) (n : Nat) {x : Nat} (h : x ≤ y) : skipBad bad n x ≤ y := by
  induction n generalizing x with
  | zero => exact h
  | succ n ih =>
    unfold skipBad
    split
    · rename_i marked
      have : x ≠ y := fun e => sound (by simpa [e] using marked)
      exact ih (by omega)
    · exact h

theorem skipBad_sound {bad : List Nat} {x : Nat} (sound : x ∉ bad) (n : Nat) : skipBad bad n x = x :=
  Nat.le_antisymm (skipBad_le sound n (Nat.le_refl x)) (skipBad_ge bad n x)

/-- The extent whose header a channel reads next, from an extent on. -/
def State.headerFrom (s : State) (x : Nat) : Nat := skipBad s.settings.bad (s.settings.bad.length + 1) x

theorem nextHeader_eq (s : State) (ch : Channel) (x : Nat) : s.nextHeader ch x =
    let t := s.setBoot { s.boot with nextHeader := vset s.boot.nextHeader ch (s.headerFrom x) }
    if s.headerFrom x < (ch.val + 1) * 32768 then t.request ch (.headerRead (s.headerFrom x) false) else t := rfl

theorem nextHeader_boot (s : State) (ch : Channel) (x : Nat) :
    (s.nextHeader ch x).boot = { s.boot with nextHeader := vset s.boot.nextHeader ch (s.headerFrom x) } := by
  rw [nextHeader_eq]
  dsimp only
  split
  · exact (request_frame _ _ _).boot (by decide)
  · rfl

theorem nextHeader_frame (s : State) (ch : Channel) (x : Nat) : s.sameBut [.boot, .store] (s.nextHeader ch x) := by
  rw [nextHeader_eq]
  dsimp only
  have set := setBoot_frame s { s.boot with nextHeader := vset s.boot.nextHeader ch (s.headerFrom x) }
  exact sameBut_ite (sameBut_then set (request_frame _ _ _) (by decide) (by decide)) (sameBut_mono set (by decide))

theorem headersDone_iff (b : Boot) :
    b.headersDone = true ↔ ∀ ch : Channel, (ch.val + 1) * 32768 ≤ b.nextHeader[ch.val] := by
  unfold Boot.headersDone channelExtents
  simp only [List.all_eq_true, decide_eq_true_eq]
  exact ⟨fun h ch => h ch (mem_four ch), fun h ch _ => h ch⟩

/-! ## The first headers (R96) -/

/-- Every extent marked BAD takes its state. -/
def State.markBad (s : State) : State := s.settings.bad.foldl (fun s x => s.setEntry x { Entry.free with state := .bad }) s

/-- The first header of each channel is requested. -/
def State.firstHeaders (s : State) : State := four.foldl (fun s ch => s.nextHeader ch (firstExtent ch)) s

theorem beginRebuild_eq (s : State) : s.beginRebuild =
    let t := ((s.setBoot { s.boot with stage := .rebuild }).markBad).firstHeaders
    if t.boot.headersDone then t.rebuildEnd else t := rfl

theorem markBad_frame (s : State) : s.sameBut [.catalogue] s.markBad :=
  sameBut_foldl (fun s x => setEntry_frame s x _) _ s

theorem entry_markBad (s : State) {x : Nat} (data : reservedExtents ≤ x) :
    s.markBad.entry x = if x ∈ s.settings.bad then { Entry.free with state := .bad } else s.entry x := by
  unfold State.markBad
  refine foldl_seen (P := fun (seen : List Nat) (t : State) =>
    t.entry x = if x ∈ seen then { Entry.free with state := .bad } else s.entry x) (fun seen t y _ h => ?_) rfl
  by_cases low : y < reservedExtents
  · rw [show t.setEntry y _ = t from if_pos low, h]
    have other : x ≠ y := by omega
    simp [other]
  · rw [entry_setEntry t y x _ (Nat.le_of_not_lt low), h]
    by_cases same : x = y
    · simp [same]
    · simp [same]

/-- The channels seen stand at their first extents, each passing over those marked BAD. -/
structure State.headersBegun (s : State) (seen : List Channel) (t : State) : Prop where
  frame : s.sameBut [.boot, .store] t
  next : ∀ ch ∈ seen, t.boot.nextHeader[ch.val] = s.headerFrom (firstExtent ch)
  stage : t.boot.stage = s.boot.stage
  scanned : t.boot.scanned = s.boot.scanned

theorem headersBegun_nextHeader {seen : List Channel} (h : s.headersBegun seen t) (ch : Channel) :
    s.headersBegun (seen ++ [ch]) (t.nextHeader ch (firstExtent ch)) := by
  have from_ : t.headerFrom (firstExtent ch) = s.headerFrom (firstExtent ch) := by
    unfold State.headerFrom
    rw [h.frame.settings (by decide)]
  have boot := nextHeader_boot t ch (firstExtent ch)
  rw [from_] at boot
  refine ⟨sameBut_trans h.frame (nextHeader_frame t ch _), fun k hk => ?_, by rw [boot]; exact h.stage,
    by rw [boot]; exact h.scanned⟩
  rw [boot]
  by_cases same : k = ch
  · rw [same]
    exact vset_get_self _ _ _
  · refine (vset_get_of_ne _ same _).trans (h.next k ?_)
    rcases List.mem_append.mp hk with hk | hk
    · exact hk
    · exact absurd (List.mem_singleton.mp hk) same

theorem headersBegun_firstHeaders (s : State) : s.headersBegun four s.firstHeaders :=
  foldl_seen (P := s.headersBegun) (fun _ _ ch _ h => headersBegun_nextHeader h ch)
    ⟨sameBut_refl _ s, (fun _ h => by cases h), rfl, rfl⟩

/-- With a data extent that is not marked BAD the rebuild has headers to read. -/
theorem beginRebuild_spec (some : ∃ x, reservedExtents ≤ x ∧ x < 131072 ∧ x ∉ s.settings.bad) :
    s.sameBut [.boot, .catalogue, .store] s.beginRebuild ∧ s.beginRebuild.boot.stage = .rebuild
      ∧ s.beginRebuild.boot.scanned = s.boot.scanned
      ∧ ∀ x, reservedExtents ≤ x →
        s.beginRebuild.entry x = if x ∈ s.settings.bad then { Entry.free with state := .bad } else s.entry x := by
  rw [beginRebuild_eq]
  dsimp only
  have begun := setBoot_frame s { s.boot with stage := .rebuild }
  have marked := markBad_frame (s.setBoot { s.boot with stage := .rebuild })
  have entries : ∀ x, reservedExtents ≤ x → ((s.setBoot { s.boot with stage := .rebuild }).markBad).entry x
      = if x ∈ s.settings.bad then { Entry.free with state := .bad } else s.entry x := fun x hx =>
    entry_markBad (s.setBoot { s.boot with stage := .rebuild }) hx
  have boot : ((s.setBoot { s.boot with stage := .rebuild }).markBad).boot = { s.boot with stage := .rebuild } :=
    marked.boot (by decide)
  have before : s.sameBut [.boot, .catalogue] ((s.setBoot { s.boot with stage := .rebuild }).markBad) :=
    sameBut_then begun marked (by decide) (by decide)
  generalize (s.setBoot { s.boot with stage := .rebuild }).markBad = u at *
  obtain ⟨frame, next, stage, scanned⟩ := headersBegun_firstHeaders u
  have reads : ¬ u.firstHeaders.boot.headersDone = true := fun done => by
    obtain ⟨x, data, within, sound⟩ := some
    have least : firstExtent (channelOf x) ≤ x := by
      unfold firstExtent channelOf reservedExtents channelExtents
      unfold reservedExtents at data
      dsimp only
      split
      · exact data
      · omega
    have above := (headersDone_iff _).mp done (channelOf x)
    rw [next _ (mem_four _)] at above
    have below : u.headerFrom (firstExtent (channelOf x)) ≤ x :=
      skipBad_le (by rw [before.settings (by decide)]; exact sound) _ least
    have number : (channelOf x).val = x / 32768 % 4 := rfl
    omega
  rw [if_neg reads]
  refine ⟨sameBut_then before frame (by decide) (by decide), ?_, ?_, fun x hx => ?_⟩
  · rw [stage, boot]
  · rw [scanned, boot]
  · rw [entry_of_catalogue (frame.catalogue (by decide)), entries x hx]

/-! ## The end of the scan -/

theorem scanEnd_eq (s : State) : s.scanEnd =
    let c := (s.scanJournal (foundPages s.boot.scanned)).scanSettings (foundPages s.boot.scanned)
    let u := c.setJournal { c.journal with low := decide (c.freePlaces < lowMark) }
    (classes.foldl State.restoreRow u).restoreHolds.beginRebuild := rfl

/-- The records of Settings Memory as the scan's end has them when the rows are still to be restored. -/
structure State.scanRead (s t : State) : Prop where
  found : newestFound s.boot.scanned t.settings.release t.journal.durable
  next : t.journal.next = t.journal.durable + 1
  writePos : t.journal.writePos = (scanPosition s.boot.scanned (newestSlot (foundPages s.boot.scanned))).1
  lastSlot : t.journal.lastSlot = newestSlot (foundPages s.boot.scanned)
  release : SettingsId.release ∉ s.settings.damaged → t.settings.release = s.settings.release
  clock : t.clock.value = t.settings.savedDay * 86400
  savedDay : SettingsId.savedDay ∉ s.settings.damaged → t.settings.savedDay = s.settings.savedDay
  dayFound : SettingsId.savedDay ∈ s.settings.damaged →
    (∀ slot e, foundAt s.boot.scanned slot e → e.time / 86400 ≤ t.settings.savedDay)
    ∧ (t.settings.savedDay = 0 ∨ ∃ slot e, foundAt s.boot.scanned slot e ∧ e.time / 86400 = t.settings.savedDay)
  bad : SettingsId.badTable ∉ s.settings.damaged → t.settings.bad = s.settings.bad
  badFound : SettingsId.badTable ∈ s.settings.damaged → ∀ x, x ∈ t.settings.bad ↔
    ∃ slot e cause serial, foundAt s.boot.scanned slot e ∧ e.body = .badExtent x cause serial ∧ t.settings.release < e.serial
  records : t.settings.rows = s.settings.rows ∧ t.settings.holds = s.settings.holds
  damaged : ∀ d, d ∈ t.settings.damaged ↔
    d ∈ s.settings.damaged ∧ d ≠ .release ∧ d ≠ .savedDay ∧ d ≠ .badTable
  scanned : t.boot.scanned = s.boot.scanned
  frame : s.sameBut [.settings, .boot, .journal, .store, .clock] t

theorem scanRead_of_steps (rising : Table.rising s.boot.scanned = true) (agree : copiesAgree s.boot.scanned) :
    let c := (s.scanJournal (foundPages s.boot.scanned)).scanSettings (foundPages s.boot.scanned)
    s.scanRead (c.setJournal { c.journal with low := decide (c.freePlaces < lowMark) }) := by
  intro c
  have journal := journalScanned_scanJournal (s := s) rising agree
  have records := settingsScanned_scanSettings rising agree (s.scanJournal (foundPages s.boot.scanned))
  change State.settingsScanned _ _ c at records
  have same : c.journal = (s.scanJournal (foundPages s.boot.scanned)).journal := records.frame.journal (by decide)
  generalize s.scanJournal (foundPages s.boot.scanned) = a at *
  obtain ⟨rows, holds, release⟩ := records.records
  obtain ⟨rows', holds', day', bad'⟩ := journal.records
  have still : ∀ {d : SettingsId}, d ≠ .release → (d ∈ a.settings.damaged ↔ d ∈ s.settings.damaged) := fun hd => by
    rw [journal.damaged]
    exact ⟨And.left, fun h => ⟨h, hd⟩⟩
  have dayStill := still (d := .savedDay) fun e => by cases e
  have badStill := still (d := .badTable) fun e => by cases e
  clear_value c
  refine ⟨?_, ?_, ?_, ?_, fun h => release.trans (journal.release h), records.clock,
    fun h => (records.savedDay fun e => h (dayStill.mp e)).trans day', fun h => records.dayFound (dayStill.mpr h),
    fun h => (records.bad fun e => h (badStill.mp e)).trans bad', fun h x => ?_, ⟨rows.trans rows', holds.trans holds'⟩,
    fun d => ?_, records.scanned.trans journal.scanned, ?_⟩
  · show newestFound _ c.settings.release c.journal.durable
    rw [release, same]
    exact journal.found
  · show c.journal.next = c.journal.durable + 1
    rw [same]
    exact journal.next
  · show c.journal.writePos = _
    rw [same]
    exact journal.writePos
  · show c.journal.lastSlot = _
    rw [same]
    exact journal.lastSlot
  · show x ∈ c.settings.bad ↔ ∃ slot e cause serial, _ ∧ _ ∧ c.settings.release < _
    rw [release]
    exact records.badFound (badStill.mpr h) x
  · show d ∈ c.settings.damaged ↔ _
    rw [records.damaged, journal.damaged, and_assoc]
  · exact sameBut_then (m := [.settings, .boot, .journal, .store, .clock])
      (sameBut_then (m := [.settings, .boot, .journal, .store, .clock]) journal.frame records.frame (by decide) (by decide))
      (setJournal_frame c _) (by decide) (by decide)

end Sys2Proof.Machine
end

section
/-!
SUPPORT. The end of the journal scan as a whole (R156, R170).
-/

namespace Sys2Proof.Machine

variable {s t u d : State}

/-- The restored rows seen from the state before the scan's end. -/
theorem rowRestored_from {i : Fin 8} (h : u.rowRestored i t) (rows : u.settings.rows = s.settings.rows)
    (straps : u.straps = s.straps) (damaged : SettingsId.row i ∈ u.settings.damaged ↔ SettingsId.row i ∈ s.settings.damaged) :
    s.rowRestored i t := by
  unfold State.rowRestored at h ⊢
  rw [rows, straps, damaged] at h
  exact h

/-- The restored hold slots seen from the state before the scan's end. -/
theorem holdsRestored_from (h : d.holdsRestored t) (holds : d.settings.holds = s.settings.holds)
    (damaged : ∀ k id, SettingsId.hold k id ∈ d.settings.damaged ↔ SettingsId.hold k id ∈ s.settings.damaged) :
    s.holdsRestored t := by
  obtain ⟨kept, unknown, last⟩ := h
  simp only [holds, damaged] at kept unknown last
  exact ⟨kept, unknown, last⟩

theorem restoreHolds_frame (s : State) : s.sameBut [.settings, .retention, .boot] s.restoreHolds := by
  rw [restoreHolds_eq]
  have set := setSettings_frame s { s.settings with
    holds := (s.settings.restoredHolds s.today).1, damaged := s.settings.damaged.filter (fun d => !isHoldSlot d) }
  exact sameBut_then (m := [.settings, .retention, .boot])
    (sameBut_then (m := [.settings, .retention]) set (setRetention_frame _ _) (by decide) (by decide)) (setBoot_frame _ _)
    (by decide) (by decide)

/-- What is restored of Settings Memory at the scan's end, the hold slots' records put right. -/
theorem mem_restoreHolds (s : State) (d : SettingsId) :
    d ∈ s.restoreHolds.settings.damaged ↔ d ∈ s.settings.damaged ∧ isHoldSlot d = false := by
  rw [restoreHolds_eq]
  show d ∈ s.settings.damaged.filter (fun d => !isHoldSlot d) ↔ _
  rw [List.mem_filter, Bool.not_eq_true']

theorem holdsRestored_restoreHolds (rising : Table.rising s.settings.holds = true)
    (settings : t.settings.holds = s.restoreHolds.settings.holds)
    (retention : t.retention = s.restoreHolds.retention) (clock : t.clock = s.clock) : s.holdsRestored t := by
  have today : t.today = s.today := by
    unfold State.today
    rw [clock]
  refine holdsRestored_of_holds rising ?_ ?_
  · rw [settings, today]
    rfl
  · rw [retention, today]
    rfl

/-- The records still damaged when the scan has ended. -/
theorem damaged_after_scan (d : SettingsId) :
    ((d ≠ .release ∧ d ≠ .savedDay ∧ d ≠ .badTable) ∧ ∀ i ∈ classes, d ≠ .row i) ∧ isHoldSlot d = false
      ↔ d = .sealCounter ∨ d = .lastSeal := by
  cases d with
  | row i =>
    constructor
    · rintro ⟨⟨-, other⟩, -⟩
      exact absurd rfl (other i (mem_classes i))
    · rintro (h | h)
      · cases h
      · cases h
  | hold k id => simp [isHoldSlot]
  | _ => simp [isHoldSlot]

theorem scanEnds_scanEnd (starting : s.power = .starting) (scanned : Table.rising s.boot.scanned = true)
    (holds : Table.rising s.settings.holds = true) (agree : copiesAgree s.boot.scanned)
    (some : ∃ x, reservedExtents ≤ x ∧ x < 131072 ∧ x ∉ s.settings.bad
      ∧ ∀ slot e cause n, foundAt s.boot.scanned slot e → e.body ≠ .badExtent x cause n) :
    s.scanEnds s.boot.scanned s.scanEnd := by
  have read := scanRead_of_steps (s := s) scanned agree
  rw [scanEnd_eq]
  dsimp only at read ⊢
  generalize State.setJournal _ _ = u at *
  obtain ⟨restoring, done, -, rowsDamaged, quiet⟩ := rowsRestored_classes u
  generalize classes.foldl State.restoreRow u = d at *
  obtain ⟨records, recordsHolds⟩ := read.records
  have damaged : ∀ id, id ∈ d.settings.damaged ↔
      (id ∈ s.settings.damaged ∧ id ≠ .release ∧ id ≠ .savedDay ∧ id ≠ .badTable) ∧ ∀ i ∈ classes, id ≠ .row i := fun id => by
    rw [rowsDamaged, read.damaged]
  have holdsDamaged : ∀ k id, SettingsId.hold k id ∈ d.settings.damaged ↔ SettingsId.hold k id ∈ s.settings.damaged :=
    fun k id => by
      rw [damaged]
      exact ⟨fun h => h.1.1, fun h => ⟨⟨h, (fun e => by cases e), (fun e => by cases e), fun e => by cases e⟩,
        fun _ _ e => by cases e⟩⟩
  have sameHolds : d.settings.holds = s.settings.holds := restoring.holds.trans recordsHolds
  have rising : Table.rising d.settings.holds = true := by rw [sameHolds]; exact holds
  have held := restoreHolds_frame d
  have heldDamaged := mem_restoreHolds d
  have heldRecords : d.restoreHolds.settings.rows = d.settings.rows ∧ d.restoreHolds.settings.savedDay = d.settings.savedDay
      ∧ d.restoreHolds.settings.release = d.settings.release ∧ d.restoreHolds.settings.bad = d.settings.bad
      ∧ d.restoreHolds.boot.scanned = d.boot.scanned := ⟨rfl, rfl, rfl, rfl, rfl⟩
  have restored : ∀ t : State, t.settings.holds = d.restoreHolds.settings.holds → t.retention = d.restoreHolds.retention →
      t.clock = d.clock → d.holdsRestored t := fun t => holdsRestored_restoreHolds rising
  generalize d.restoreHolds = e at *
  obtain ⟨heldRows, heldDay, heldRelease, heldBad, heldScanned⟩ := heldRecords
  have sound : ∃ x, reservedExtents ≤ x ∧ x < 131072 ∧ x ∉ e.settings.bad := by
    obtain ⟨x, data, within, notBad, unnamed⟩ := some
    refine ⟨x, data, within, ?_⟩
    rw [heldBad, restoring.bad]
    by_cases failed : SettingsId.badTable ∈ s.settings.damaged
    · rw [read.badFound failed]
      rintro ⟨slot, f, cause, n, found, body, -⟩
      exact unnamed slot f cause n found body
    · rw [read.bad failed]
      exact notBad
  obtain ⟨frame, stage, begunScanned, entries⟩ := beginRebuild_spec sound
  generalize e.beginRebuild = t at *
  have kept : d.startKept t := startKept_trans (startKept_of_frame held (by decide)) (startKept_of_frame frame (by decide))
  have since : u.startKept t := startKept_trans restoring.kept kept
  have settings := frame.settings (by decide)
  have release : t.settings.release = u.settings.release := by rw [settings, heldRelease, restoring.release]
  have day : t.settings.savedDay = u.settings.savedDay := by rw [settings, heldDay, restoring.savedDay]
  have bad : t.settings.bad = u.settings.bad := by rw [settings, heldBad, restoring.bad]
  refine ⟨journalFound_of_scan scanned agree ?_ ?_ ?_ ?_, fun quietRows above => ?_, fun h => release.trans (read.release h),
    ?_, fun h => day.trans (read.savedDay h), fun h => ?_, fun i => ?_, ?_, fun h => bad.trans (read.bad h), fun h x => ?_,
    fun id => ?_, fun x hx => ?_, ?_, stage, ?_⟩
  · rw [release, since.durable]
    exact read.found
  · rw [since.durable]
    exact Nat.lt_of_lt_of_le (by rw [read.next]; exact Nat.lt_succ_self _) since.next
  · rw [since.writePos, read.writePos]
  · rw [since.lastSlot, read.lastSlot]
  · have unasked : d.journal.next = u.journal.next := by
      refine quiet (fun i => ?_) fun i => ?_
      · rw [read.damaged]
        exact fun h => quietRows i h.1
      · rw [read.frame.straps (by decide), records]
        exact above i
    rw [since.durable, frame.journal (by decide), held.journal (by decide), unasked, read.next]
  · rw [since.clock, day, read.clock]
  · rw [day]
    exact read.dayFound h
  · have row : u.rowRestored i t := rowRestored_of_same (done i (mem_classes i)) (by rw [settings, heldRows]) kept
    refine rowRestored_from row records (read.frame.straps (by decide)) ?_
    rw [read.damaged]
    exact ⟨And.left, fun h => ⟨h, (fun e => by cases e), (fun e => by cases e), fun e => by cases e⟩⟩
  · exact holdsRestored_from (restored t (by rw [settings]) (frame.retention (by decide)) kept.clock) sameHolds holdsDamaged
  · rw [bad, release]
    exact read.badFound h x
  · rw [settings, heldDamaged, damaged, ← damaged_after_scan id]
    tauto
  · rw [entries x hx, settings, entry_of_catalogue (held.catalogue (by decide)),
      entry_of_catalogue (restoring.frame.catalogue (by decide)), entry_of_catalogue (read.frame.catalogue (by decide))]
  · rw [frame.power (by decide), held.power (by decide), restoring.frame.power (by decide), read.frame.power (by decide)]
    exact starting
  · rw [begunScanned, heldScanned, restoring.scanned, read.scanned]

end Sys2Proof.Machine
end

section
/-!
SUPPORT. The headers that keep their segments, and what the rebuild makes of each extent (R96 to R98).
-/

namespace Sys2Proof.Machine

variable {s t u : State}

/-! ## The headers that keep their segments (R96) -/

/-- The valid headers that keep their segments, those with a serial already seen displaced. -/
def keptFrom : List Nat → Table (Option SegHeader) → Table SegHeader
  | _, [] => []
  | seen, (_, none) :: rest => keptFrom seen rest
  | seen, (x, some h) :: rest =>
    if h.seg.serial ∈ seen then keptFrom seen rest else (x, h) :: keptFrom (h.seg.serial :: seen) rest

theorem keptHeaders_eq (headers : Table (Option SegHeader)) : keptHeaders headers = keptFrom [] headers := by
  have key : ∀ (l : Table (Option SegHeader)) (acc : Table SegHeader × List Nat),
      (l.foldl (fun (acc : Table SegHeader × List Nat) p =>
        match p.2 with
        | some h => if acc.2.contains h.seg.serial then acc else (acc.1 ++ [(p.1, h)], h.seg.serial :: acc.2)
        | none => acc) acc).1 = acc.1 ++ keptFrom acc.2 l := by
    intro l
    induction l with
    | nil => intro acc; exact (List.append_nil _).symm
    | cons p l ih =>
      intro acc
      obtain ⟨x, r⟩ := p
      rw [List.foldl_cons, ih]
      cases r with
      | none => rfl
      | some h =>
        rw [keptFrom]
        dsimp only
        by_cases old : h.seg.serial ∈ acc.2
        · rw [if_pos (by simpa using old), if_pos old]
        · rw [if_neg (by simpa using old), if_neg old, List.append_assoc]
          rfl
  exact key headers ([], [])

/-- What a kept header is: a valid one whose serial is neither seen nor carried by a lower extent's. -/
theorem mem_keptFrom {l : Table (Option SegHeader)} (rising : Table.rising l = true) (seen : List Nat) (x : Nat)
    (h : SegHeader) : (x, h) ∈ keptFrom seen l ↔ (x, some h) ∈ l ∧ h.seg.serial ∉ seen
      ∧ ∀ y k, y < x → (y, some k) ∈ l → k.seg.serial ≠ h.seg.serial := by
  induction l generalizing seen with
  | nil => simp [keptFrom]
  | cons p l ih =>
    obtain ⟨z, r⟩ := p
    have pairs := (rising_iff_pairwise _).mp rising
    rw [List.map_cons, List.pairwise_cons] at pairs
    obtain ⟨first, rest⟩ := pairs
    have above : ∀ y (q : Option SegHeader), (y, q) ∈ l → z < y := fun y q hq => first y (List.mem_map.mpr ⟨(y, q), hq, rfl⟩)
    have rec_ := ih ((rising_iff_pairwise l).mpr rest)
    cases r with
    | none =>
      rw [keptFrom, rec_]
      simp
    | some k =>
      rw [keptFrom]
      split
      · rename_i old
        rw [rec_]
        constructor
        · rintro ⟨mem, new, least⟩
          refine ⟨List.mem_cons_of_mem _ mem, new, fun y q hy hq => ?_⟩
          rcases List.mem_cons.mp hq with same | hq
          · obtain ⟨-, same⟩ := Prod.mk.inj same
            obtain rfl := Option.some.inj same
            exact fun e => new (e ▸ old)
          · exact least y q hy hq
        · rintro ⟨mem, new, least⟩
          refine ⟨?_, new, fun y q hy hq => least y q hy (List.mem_cons_of_mem _ hq)⟩
          rcases List.mem_cons.mp mem with same | mem
          · obtain ⟨-, same⟩ := Prod.mk.inj same
            obtain rfl := Option.some.inj same
            exact absurd old new
          · exact mem
      · rename_i fresh
        rw [List.mem_cons, rec_]
        constructor
        · rintro (same | ⟨mem, new, least⟩)
          · obtain ⟨rfl, rfl⟩ := Prod.mk.inj same
            refine ⟨List.mem_cons_self, fresh, fun y q hy hq => ?_⟩
            rcases List.mem_cons.mp hq with same | hq
            · rw [(Prod.mk.inj same).1] at hy
              exact absurd hy (Nat.lt_irrefl _)
            · exact absurd (above y _ hq) (Nat.not_lt.mpr (Nat.le_of_lt hy))
          · refine ⟨List.mem_cons_of_mem _ mem, fun old => new (List.mem_cons_of_mem _ old), fun y q hy hq => ?_⟩
            rcases List.mem_cons.mp hq with same | hq
            · obtain ⟨-, same⟩ := Prod.mk.inj same
              obtain rfl := Option.some.inj same
              exact fun e => new (List.mem_cons.mpr (.inl e.symm))
            · exact least y q hy hq
        · rintro ⟨mem, new, least⟩
          rcases List.mem_cons.mp mem with same | mem
          · obtain ⟨rfl, alike⟩ := Prod.mk.inj same
            obtain rfl := Option.some.inj alike
            exact .inl rfl
          · refine .inr ⟨mem, fun old => ?_, fun y q hy hq => least y q hy (List.mem_cons_of_mem _ hq)⟩
            rcases List.mem_cons.mp old with same | old
            · exact least z k (above x _ mem) List.mem_cons_self same.symm
            · exact new old

section
variable {headers : Table (Option SegHeader)} (rising : Table.rising headers = true)

include rising in
theorem mem_keptHeaders (x : Nat) (h : SegHeader) : (x, h) ∈ keptHeaders headers ↔ keepsSegment headers x h := by
  rw [keptHeaders_eq, mem_keptFrom rising]
  unfold keepsSegment
  simp only [mem_iff_tget rising]
  exact ⟨fun ⟨mem, _, least⟩ => ⟨mem, least⟩, fun ⟨mem, least⟩ => ⟨mem, List.not_mem_nil, least⟩⟩

theorem keepsSegment_unique {x : Nat} {h k : SegHeader} (hh : keepsSegment headers x h) (hk : keepsSegment headers x k) :
    h = k := Option.some.inj (Option.some.inj (hh.1.symm.trans hk.1))

include rising in
theorem mem_incompleteExtents (x : Nat) : x ∈ incompleteExtents headers (keptHeaders headers) ↔
    (∃ r, tget headers x = some r) ∧ ∀ h, ¬ keepsSegment headers x h := by
  have none : tget (keptHeaders headers) x = none ↔ ∀ h, ¬ keepsSegment headers x h := by
    rw [tget_none_iff]
    constructor
    · exact fun all h keeps => all (x, h) ((mem_keptHeaders rising x h).mpr keeps) rfl
    · rintro all ⟨y, h⟩ mem rfl
      exact all h ((mem_keptHeaders rising y h).mp mem)
  unfold incompleteExtents
  rw [List.mem_map, ← none]
  constructor
  · rintro ⟨⟨y, r⟩, mem, rfl⟩
    obtain ⟨mem, absent⟩ := List.mem_filter.mp mem
    exact ⟨⟨r, tget_of_mem rising mem⟩, Option.isNone_iff_eq_none.mp absent⟩
  · rintro ⟨⟨r, hr⟩, absent⟩
    exact ⟨(x, r), List.mem_filter.mpr ⟨mem_of_tget hr, Option.isNone_iff_eq_none.mpr absent⟩, rfl⟩

end

/-! ## Seals that had been made durable (R97) -/

theorem mem_sealSerials (entries : List JEntry) (n : Nat) : n ∈ sealSerials entries ↔
    ∃ e ∈ entries, ∃ f, (e.body = .sealed f ∨ e.body = .recoveredSeal f) ∧ f.serial = n := by
  unfold sealSerials
  rw [List.mem_filterMap]
  refine exists_congr fun e => and_congr_right fun _ => ?_
  constructor
  · intro h
    split at h
    · rename_i f body
      exact ⟨f, .inl body, Option.some.inj h⟩
    · rename_i f body
      exact ⟨f, .inr body, Option.some.inj h⟩
    · cases h
  · rintro ⟨f, body | body, rfl⟩
    · rw [body]
    · rw [body]

theorem sealWasDurable_iff (rising : Table.rising s.boot.scanned = true) (agree : copiesAgree s.boot.scanned) (v : SegFields) :
    s.sealWasDurable (foundEntries (foundPages s.boot.scanned)) v = true ↔ s.wasDurable v := by
  have member := mem_foundEntries rising agree
  unfold State.sealWasDurable State.wasDurable
  by_cases failed : SettingsId.lastSeal ∈ s.settings.damaged
  · rw [if_pos ((isDamaged_iff _ _).mpr failed), List.contains_iff_mem, mem_sealSerials]
    constructor
    · rintro ⟨e, he, f, body, same⟩
      obtain ⟨he, unreleased⟩ := List.mem_filter.mp he
      obtain ⟨slot, found⟩ := (member e).mp he
      exact ⟨fun sound => absurd failed sound, fun _ => ⟨slot, e, f, found, body, of_decide_eq_true unreleased, same⟩⟩
    · rintro ⟨-, carried⟩
      obtain ⟨slot, e, f, found, body, unreleased, same⟩ := carried failed
      exact ⟨e, List.mem_filter.mpr ⟨(member e).mpr ⟨slot, found⟩, decide_eq_true unreleased⟩, f, body, same⟩
  · rw [if_neg fun e => failed ((isDamaged_iff _ _).mp e), decide_eq_true_iff]
    exact ⟨fun h => ⟨fun _ => h, fun k => absurd k failed⟩, fun h => h.1 failed⟩

theorem mem_insertHeader (p q : Nat × SegHeader) (l : List (Nat × SegHeader)) :
    q ∈ insertHeader p l ↔ q = p ∨ q ∈ l := by
  induction l with
  | nil => simp [insertHeader]
  | cons r l ih =>
    unfold insertHeader
    split
    · simp
    · simp only [List.mem_cons, ih]
      tauto

theorem mem_sortedHeaders (l : List (Nat × SegHeader)) (q : Nat × SegHeader) :
    q ∈ l.foldl (fun l p => insertHeader p l) [] ↔ q ∈ l := by
  refine foldl_seen (P := fun (seen : List (Nat × SegHeader)) (r : List (Nat × SegHeader)) => q ∈ r ↔ q ∈ seen)
    (fun seen r p _ h => ?_) Iff.rfl
  rw [mem_insertHeader, h, List.mem_append, List.mem_singleton]
  tauto

/-! ## What each step of the rebuild keeps -/

/-- The parts that the rebuild's steps can change. -/
def rebuildParts : List Part := [.catalogue, .boot, .journal, .store, .scanner, .ports, .out]

/-- What a step of the rebuild keeps beside the entry of its extent. -/
structure State.rebuilding (s t : State) : Prop where
  kept : s.startKept t
  grows : s.storeGrows t
  headers : t.boot.headers = s.boot.headers
  found : t.boot.newestFound = s.boot.newestFound ∧ t.boot.lost = s.boot.lost
  frame : s.sameBut rebuildParts t

theorem rebuilding_refl (s : State) : s.rebuilding s :=
  ⟨startKept_refl s, storeGrows_refl s, rfl, ⟨rfl, rfl⟩, sameBut_refl _ s⟩

theorem rebuilding_trans (h : s.rebuilding t) (k : t.rebuilding u) : s.rebuilding u :=
  ⟨startKept_trans h.kept k.kept, storeGrows_trans h.grows k.grows, k.headers.trans h.headers,
    ⟨k.found.1.trans h.found.1, k.found.2.trans h.found.2⟩, sameBut_trans h.frame k.frame⟩

theorem rebuilding_foldl {α : Type} {f : State → α → State} {l : List α} (h : ∀ t : State, ∀ a ∈ l, t.rebuilding (f t a))
    (s : State) : s.rebuilding (l.foldl f s) :=
  foldl_seen (P := fun _ (t : State) => s.rebuilding t) (fun _ t a ha k => rebuilding_trans k (h t a ha)) (rebuilding_refl s)

theorem rebuilding_setEntry (s : State) (x : Nat) (e : Entry) : s.rebuilding (s.setEntry x e) := by
  have frame := setEntry_frame s x e
  exact ⟨startKept_of_frame frame (by decide), storeGrows_of_store (frame.store (by decide)), by rw [frame.boot (by decide)],
    ⟨by rw [frame.boot (by decide)], by rw [frame.boot (by decide)]⟩, sameBut_mono frame (by decide)⟩

theorem entry_setEntry_of_ne (s : State) {x y : Nat} (h : x ≠ y) (e : Entry) : (s.setEntry y e).entry x = s.entry x := by
  by_cases low : y < reservedExtents
  · rw [show s.setEntry y e = s from if_pos low]
  · rw [entry_setEntry s y x e (Nat.le_of_not_lt low), if_neg h]

/-- A durable seal's extent is SEALED, with the number of holds that cover its segment (R92, R97). -/
def State.sealHeader (s : State) (p : Nat × SegHeader) : State :=
  s.setEntry p.1 { Entry.free with state := .sealed, seg := some p.2.seg, holds := s.coverCount p.2.seg }

theorem rebuilding_sealHeader (s : State) (p : Nat × SegHeader) : s.rebuilding (s.sealHeader p) := rebuilding_setEntry s p.1 _

/-- The SEALED or RECOVERED_SEAL entry of an extent asked for keeps all but its entry's journal serial. -/
theorem rebuilding_ask_sealEntry (s : State) (body : JBody) (x : Nat) : s.rebuilding (s.ask body (.sealEntry x)) := by
  have noted : ∀ (u : State) n, u.sameBut [.catalogue] (u.applyNote (.sealEntry x) n) := fun u n =>
    modEntry_frame u x (fun e => { e with sealJournal := some n })
  have frame : s.sameBut [.catalogue, .journal, .store, .scanner, .ports, .out] (s.ask body (.sealEntry x)) := by
    unfold State.ask
    refine sameBut_ite ?_ (sameBut_mono (joinAppend_frame s _) (by decide))
    exact sameBut_then (m := [.catalogue, .journal, .store, .scanner, .ports, .out])
      (sameBut_then (m := [.catalogue, .journal, .store]) (appendRaw_frame s body) (noted _ _) (by decide) (by decide))
      (decideLow_frame _) (by decide) (by decide)
  have boot := frame.boot (by decide)
  exact ⟨startKept_ask s body fun u n => ⟨(noted u n).journal (by decide), (noted u n).clock (by decide)⟩,
    storeGrows_ask s body fun u n => storeGrows_of_store ((noted u n).store (by decide)), by rw [boot],
    ⟨by rw [boot], by rw [boot]⟩, sameBut_mono frame (by decide)⟩

theorem entry_ask_sealEntry (s : State) (body : JBody) {x : Nat} (data : reservedExtents ≤ x) :
    (∃ j, (s.ask body (.sealEntry x)).entry x = { s.entry x with sealJournal := j })
      ∧ ∀ y, y ≠ x → (s.ask body (.sealEntry x)).entry y = s.entry y := by
  cases can : s.canAppend 1 with
  | true =>
    obtain ⟨-, entries, -, -⟩ := ask_sealEntry data can body
    exact ⟨⟨_, (entries x).trans (if_pos rfl)⟩, fun y hy => (entries y).trans (if_neg hy)⟩
  | false =>
    rw [ask_of_not_canAppend can]
    have entries := entry_of_catalogue ((joinAppend_frame s (.entry body (.sealEntry x))).catalogue (by decide))
    exact ⟨⟨_, entries x⟩, fun y _ => entries y⟩

theorem asked_sealEntry (s : State) (body : JBody) (x : Nat) : (s.ask body (.sealEntry x)).asked body (.sealEntry x) :=
  asked_of_appendsOrWaits (ask_appendsOrWaits s body fun u _ =>
    ⟨(modEntry_frame u x _).journal (by decide), (modEntry_frame u x _).clock (by decide)⟩)

/-- A seal that may not have been made durable: JOURNALING, with its RECOVERED_SEAL entry asked for. -/
structure State.sealRecovered (x : Nat) (h : SegHeader) (t : State) : Prop where
  state : (t.entry x).state = .journaling
  seg : (t.entry x).seg = some h.seg
  asked : t.asked (.recoveredSeal (sealFields x h.seg)) (.sealEntry x)

theorem rebuilding_setRecovered (s : State) (n : Nat) : s.rebuilding (s.setBoot { s.boot with recovered := n }) :=
  ⟨startKept_of_same rfl rfl, storeGrows_of_store rfl, rfl, ⟨rfl, rfl⟩, sameBut_mono (setBoot_frame s _) (by decide)⟩

theorem rebuilding_recoverSeal (s : State) (p : Nat × SegHeader) : s.rebuilding (s.recoverSeal p) :=
  rebuilding_trans (rebuilding_trans (rebuilding_setEntry s p.1 _) (rebuilding_setRecovered _ _))
    (rebuilding_ask_sealEntry _ _ p.1)

theorem recoverSeal_entries (s : State) {p : Nat × SegHeader} (data : reservedExtents ≤ p.1) :
    (s.recoverSeal p).sealRecovered p.1 p.2 ∧ ∀ y, y ≠ p.1 → (s.recoverSeal p).entry y = s.entry y := by
  obtain ⟨x, h⟩ := p
  unfold State.recoverSeal
  dsimp only at data ⊢
  have own := entry_setEntry s x x { Entry.free with state := .journaling, seg := some h.seg } data
  have others : ∀ y, y ≠ x → (s.setEntry x { Entry.free with state := .journaling, seg := some h.seg }).entry y = s.entry y :=
    fun y hy => entry_setEntry_of_ne s hy _
  generalize s.setEntry x { Entry.free with state := .journaling, seg := some h.seg } = u at *
  have entries : ∀ y, (u.setBoot { u.boot with recovered := u.boot.recovered + 1 }).entry y = u.entry y := fun _ => rfl
  generalize u.setBoot { u.boot with recovered := u.boot.recovered + 1 } = w at *
  obtain ⟨⟨j, mine⟩, rest⟩ := entry_ask_sealEntry w (.recoveredSeal (sealFields x h.seg)) data
  rw [entries, own, if_pos rfl] at mine
  refine ⟨⟨?_, ?_, asked_sealEntry w _ x⟩, fun y hy => (rest y hy).trans ((entries y).trans (others y hy))⟩
  · rw [mine]
  · rw [mine]

/-- An extent with incomplete contents: ERASING, its ERASE requested. -/
structure State.eraseRequested (x : Nat) (t : State) : Prop where
  entry : t.entry x = { Entry.free with state := .erasing }
  erase : .erase x ∈ t.queue (channelOf x) ∨ .op (channelOf x) (.erase x) ∈ t.store.placeWait

theorem eraseIncomplete_spec (s : State) {x : Nat} (data : reservedExtents ≤ x) :
    s.rebuilding (s.eraseIncomplete x) ∧ (s.eraseIncomplete x).eraseRequested x
      ∧ ∀ y, y ≠ x → (s.eraseIncomplete x).entry y = s.entry y := by
  unfold State.eraseIncomplete
  dsimp only
  have set := rebuilding_setEntry s x { Entry.free with state := .erasing }
  have own := entry_setEntry s x x { Entry.free with state := .erasing } data
  have others : ∀ y, y ≠ x → (s.setEntry x { Entry.free with state := .erasing }).entry y = s.entry y :=
    fun y hy => entry_setEntry_of_ne s hy _
  generalize s.setEntry x { Entry.free with state := .erasing } = u at *
  generalize hw : u.setBoot { u.boot with incomplete := u.boot.incomplete + 1 } = w
  have counted : u.rebuilding w := by
    rw [← hw]
    exact ⟨startKept_of_same rfl rfl, storeGrows_of_store rfl, rfl, ⟨rfl, rfl⟩, sameBut_mono (setBoot_frame u _) (by decide)⟩
  have entries : ∀ y, w.entry y = u.entry y := fun y => by rw [← hw]; rfl
  have frame := request_frame w (channelOf x) (.erase x)
  have boot := frame.boot (by decide)
  have requested : w.rebuilding (w.request (channelOf x) (.erase x)) :=
    ⟨startKept_of_frame frame (by decide), storeGrows_request w _ _, by rw [boot], ⟨by rw [boot], by rw [boot]⟩,
      sameBut_mono frame (by decide)⟩
  have same := entry_of_catalogue (frame.catalogue (by decide))
  refine ⟨rebuilding_trans (rebuilding_trans set counted) requested, ⟨?_, ?_⟩,
    fun y hy => (same y).trans ((entries y).trans (others y hy))⟩
  · rw [same, entries, own, if_pos rfl]
  · rcases request_cases w (channelOf x) (.erase x) with ⟨-, h⟩ | ⟨-, h⟩
    · rw [h, queue_setQueue, if_pos rfl]
      exact .inl (by simp)
    · rw [h]
      exact .inr (List.mem_append_right _ (List.mem_singleton_self _))

/-! ## Folds over extents -/

/-- A fold whose items leave every entry but their own extents' leaves the entry of an extent that is none of theirs. -/
theorem entry_foldl_of_ne {α : Type} {f : State → α → State} {key : α → Nat} {x : Nat} {l : List α}
    (other : ∀ t : State, ∀ a ∈ l, x ≠ key a → (f t a).entry x = t.entry x) (absent : ∀ a ∈ l, x ≠ key a) (s : State) :
    (l.foldl f s).entry x = s.entry x :=
  foldl_seen (P := fun _ (t : State) => t.entry x = s.entry x)
    (fun _ t a ha h => (other t a ha (absent a ha)).trans h) rfl

/-- What the one item of an extent makes of it stands when the fold has ended, where the other items leave it. -/
theorem foldl_makes {α : Type} {f : State → α → State} {key : α → Nat} {x : Nat} {l : List α} {Q : State → Prop}
    (steps : ∀ t : State, ∀ a ∈ l, t.rebuilding (f t a))
    (other : ∀ t : State, ∀ a ∈ l, x ≠ key a → (f t a).entry x = t.entry x)
    (keep : ∀ t u : State, t.rebuilding u → u.entry x = t.entry x → Q t → Q u) {a : α} (mem : a ∈ l)
    (own : ∀ c ∈ l, key c = x → c = a) {s : State} (make : ∀ t, s.rebuilding t → Q (f t a)) : Q (l.foldl f s) := by
  have all := foldl_seen (f := f) (l := l) (b := s) (P := fun (seen : List α) (t : State) => s.rebuilding t ∧ (a ∈ seen → Q t))
    (fun seen t c hc ⟨rebuilt, made⟩ => ⟨rebuilding_trans rebuilt (steps t c hc), fun ha => ?_⟩)
    ⟨rebuilding_refl s, fun h => by cases h⟩
  · exact all.2 mem
  · by_cases same : key c = x
    · rw [own c hc same]
      exact make t rebuilt
    · have before : a ∈ seen ∨ a = c := by simpa using ha
      rcases before with before | rfl
      · exact keep t _ (steps t c hc) (other t c hc fun e => same e.symm) (made before)
      · exact make t rebuilt

end Sys2Proof.Machine
end

section
/-!
SUPPORT. The end of the rebuild (R72, R90, R91, R96 to R99, R156, R169, R170).
-/

namespace Sys2Proof.Machine

variable {s t u : State}

/-! ## The extents (R96 to R98) -/

/-- The kept headers whose seals had been made durable. -/
def State.durableHeaders (s : State) : Table SegHeader :=
  (keptHeaders s.boot.headers).filter (fun p => s.sealWasDurable (foundEntries (foundPages s.boot.scanned)) p.2.seg)

/-- The other kept headers, in increasing seal serial. -/
def State.doubtfulHeaders (s : State) : List (Nat × SegHeader) :=
  ((keptHeaders s.boot.headers).filter
    (fun p => !s.sealWasDurable (foundEntries (foundPages s.boot.scanned)) p.2.seg)).foldl (fun l p => insertHeader p l) []

/-- The kept headers' extents as the rebuild makes them. -/
def State.rebuildSeals (s : State) : State :=
  s.doubtfulHeaders.foldl State.recoverSeal (s.durableHeaders.foldl State.sealHeader s)

/-- The extents with incomplete contents. -/
def State.incompleteList (s : State) : List Nat := incompleteExtents s.boot.headers (keptHeaders s.boot.headers)

/-- The extents as the rebuild makes them. -/
def State.rebuildExtents (s : State) : State := s.incompleteList.foldl State.eraseIncomplete s.rebuildSeals

theorem rebuilding_rebuildSeals (s : State) : s.rebuilding s.rebuildSeals :=
  rebuilding_trans (rebuilding_foldl (fun t p _ => rebuilding_sealHeader t p) s)
    (rebuilding_foldl (fun t p _ => rebuilding_recoverSeal t p) _)

/-- The rebuild's start-up tables, and the extents that its headers name. -/
structure State.headersLawful (s : State) : Prop where
  headers : Table.rising s.boot.headers = true
  scanned : Table.rising s.boot.scanned = true
  agree : copiesAgree s.boot.scanned
  data : ∀ p ∈ s.boot.headers, reservedExtents ≤ p.1

theorem mem_durableHeaders (h : s.headersLawful) (x : Nat) (v : SegHeader) :
    (x, v) ∈ s.durableHeaders ↔ keepsSegment s.boot.headers x v ∧ s.wasDurable v.seg := by
  unfold State.durableHeaders
  rw [List.mem_filter, mem_keptHeaders h.headers, sealWasDurable_iff h.scanned h.agree]

theorem mem_doubtfulHeaders (h : s.headersLawful) (x : Nat) (v : SegHeader) :
    (x, v) ∈ s.doubtfulHeaders ↔ keepsSegment s.boot.headers x v ∧ ¬ s.wasDurable v.seg := by
  unfold State.doubtfulHeaders
  rw [mem_sortedHeaders, List.mem_filter, mem_keptHeaders h.headers, Bool.not_eq_true', ← Bool.not_eq_true,
    sealWasDurable_iff h.scanned h.agree]

theorem data_of_tget (h : s.headersLawful) {x : Nat} {r : Option SegHeader} (hr : tget s.boot.headers x = some r) :
    reservedExtents ≤ x := h.data (x, r) (mem_of_tget hr)

/-- What the rebuild makes of each extent. -/
structure State.extentsRebuilt (s t : State) : Prop where
  rebuilt : s.rebuilding t
  untouched : ∀ x, tget s.boot.headers x = none → t.entry x = s.entry x
  sealed : ∀ x h, keepsSegment s.boot.headers x h → s.wasDurable h.seg →
    t.entry x = { Entry.free with state := .sealed, seg := some h.seg, holds := s.coverCount h.seg }
  recovered : ∀ x h, keepsSegment s.boot.headers x h → ¬ s.wasDurable h.seg → t.sealRecovered x h
  incomplete : ∀ x r, tget s.boot.headers x = some r → (∀ h, ¬ keepsSegment s.boot.headers x h) → t.eraseRequested x

theorem sealRecovered_kept {x : Nat} {h : SegHeader} (k : s.rebuilding t) (same : t.entry x = s.entry x)
    (r : s.sealRecovered x h) : t.sealRecovered x h :=
  ⟨by rw [same]; exact r.state, by rw [same]; exact r.seg, asked_of_startKept k.kept r.asked⟩

theorem eraseRequested_of_grows {x : Nat} (k : s.storeGrows t) (same : t.entry x = s.entry x) (r : s.eraseRequested x) :
    t.eraseRequested x :=
  ⟨by rw [same]; exact r.entry, r.erase.imp (fun h => (k.queue _).subset h) (fun h => k.places.subset h)⟩

section
variable (h : s.headersLawful)

include h

theorem mem_incompleteList (x : Nat) : x ∈ s.incompleteList ↔
    (∃ r, tget s.boot.headers x = some r) ∧ ∀ v, ¬ keepsSegment s.boot.headers x v := mem_incompleteExtents h.headers x

theorem recovering_step (t : State) : ∀ p ∈ s.doubtfulHeaders, (t.recoverSeal p).sealRecovered p.1 p.2
    ∧ ∀ y, y ≠ p.1 → (t.recoverSeal p).entry y = t.entry y := fun p hp =>
  recoverSeal_entries t (data_of_tget h ((mem_doubtfulHeaders h p.1 p.2).mp hp).1.1)

theorem erasing_step (t : State) : ∀ x ∈ s.incompleteList, t.rebuilding (t.eraseIncomplete x)
    ∧ (t.eraseIncomplete x).eraseRequested x ∧ ∀ y, y ≠ x → (t.eraseIncomplete x).entry y = t.entry y := fun x hx => by
  obtain ⟨⟨r, hr⟩, -⟩ := (mem_incompleteList h x).mp hx
  exact eraseIncomplete_spec t (data_of_tget h hr)

/-- An extent that keeps no segment is none of those that the first two folds mark. -/
theorem entry_of_not_kept {x : Nat} (none : ∀ v, ¬ keepsSegment s.boot.headers x v) :
    s.rebuildSeals.entry x = s.entry x := by
  have doubtful : ∀ p ∈ s.doubtfulHeaders, x ≠ p.1 := fun p hp e => none p.2 (e ▸ ((mem_doubtfulHeaders h p.1 p.2).mp hp).1)
  have durable : ∀ p ∈ s.durableHeaders, x ≠ p.1 := fun p hp e => none p.2 (e ▸ ((mem_durableHeaders h p.1 p.2).mp hp).1)
  refine (entry_foldl_of_ne (fun t p hp hx => (recovering_step h t p hp).2 x hx) doubtful _).trans ?_
  exact entry_foldl_of_ne (fun t p _ hx => entry_setEntry_of_ne t hx _) durable s

/-- An extent that keeps its segment is none of those erased. -/
theorem entry_of_kept {x : Nat} {v : SegHeader} (keeps : keepsSegment s.boot.headers x v) (t : State) :
    (s.incompleteList.foldl State.eraseIncomplete t).entry x = t.entry x := by
  refine entry_foldl_of_ne (fun t y hy hx => (erasing_step h t y hy).2.2 x hx) (fun y hy e => ?_) t
  exact ((mem_incompleteList h y).mp hy).2 v (e ▸ keeps)

theorem entry_of_durable {x : Nat} {v : SegHeader} (keeps : keepsSegment s.boot.headers x v) (durable : s.wasDurable v.seg) :
    s.rebuildExtents.entry x = { Entry.free with state := .sealed, seg := some v.seg, holds := s.coverCount v.seg } := by
  refine (entry_of_kept h keeps _).trans ?_
  have notDoubtful : ∀ p ∈ s.doubtfulHeaders, x ≠ p.1 := fun p hp e => by
    obtain ⟨keeps', lost⟩ := (mem_doubtfulHeaders h p.1 p.2).mp hp
    rw [← e] at keeps'
    exact lost (keepsSegment_unique keeps keeps' ▸ durable)
  refine (entry_foldl_of_ne (fun t p hp hx => (recovering_step h t p hp).2 x hx) notDoubtful _).trans ?_
  refine foldl_makes (key := Prod.fst) (Q := fun t => t.entry x = { Entry.free with
      state := .sealed, seg := some v.seg, holds := s.coverCount v.seg })
    (fun t p _ => rebuilding_sealHeader t p) (fun t p _ hx => entry_setEntry_of_ne t hx _)
    (fun t u _ same made => same.trans made)
    ((mem_durableHeaders h x v).mpr ⟨keeps, durable⟩) (fun p hp e => ?_) fun t rebuilt => ?_
  · obtain ⟨keeps', -⟩ := (mem_durableHeaders h p.1 p.2).mp hp
    rw [e] at keeps'
    exact Prod.ext e (keepsSegment_unique keeps' keeps)
  · have count : t.coverCount v.seg = s.coverCount v.seg := by
      unfold State.coverCount
      rw [rebuilt.frame.settings (by decide)]
    refine (entry_setEntry t x x _ (data_of_tget h keeps.1)).trans ?_
    rw [if_pos rfl, count]

theorem recovered_of_doubtful {x : Nat} {v : SegHeader} (keeps : keepsSegment s.boot.headers x v)
    (doubtful : ¬ s.wasDurable v.seg) : s.rebuildExtents.sealRecovered x v := by
  have erased : ∀ t : State, t.rebuilding (s.incompleteList.foldl State.eraseIncomplete t) := fun t =>
    rebuilding_foldl (fun t y hy => (erasing_step h t y hy).1) t
  refine sealRecovered_kept (erased _) (entry_of_kept h keeps _) ?_
  refine foldl_makes (key := Prod.fst) (Q := fun t => t.sealRecovered x v) (fun t p _ => rebuilding_recoverSeal t p)
    (fun t p hp hx => (recovering_step h t p hp).2 x hx) (fun t u k same made => sealRecovered_kept k same made)
    ((mem_doubtfulHeaders h x v).mpr ⟨keeps, doubtful⟩) (fun p hp e => ?_)
    fun t _ => (recovering_step h t (x, v) ((mem_doubtfulHeaders h x v).mpr ⟨keeps, doubtful⟩)).1
  obtain ⟨keeps', -⟩ := (mem_doubtfulHeaders h p.1 p.2).mp hp
  rw [e] at keeps'
  exact Prod.ext e (keepsSegment_unique keeps' keeps)

theorem erased_of_incomplete {x : Nat} {r : Option SegHeader} (read : tget s.boot.headers x = some r)
    (none : ∀ v, ¬ keepsSegment s.boot.headers x v) : s.rebuildExtents.eraseRequested x := by
  have mem : x ∈ s.incompleteList := (mem_incompleteList h x).mpr ⟨⟨r, read⟩, none⟩
  exact foldl_makes (key := id) (Q := fun t => t.eraseRequested x) (fun t y hy => (erasing_step h t y hy).1)
    (fun t y hy hx => (erasing_step h t y hy).2.2 x hx) (fun t u k same made => eraseRequested_of_grows k.grows same made)
    mem (fun y _ e => e) fun t _ => (erasing_step h t x mem).2.1

theorem extentsRebuilt_rebuildExtents : s.extentsRebuilt s.rebuildExtents := by
  refine ⟨?_, fun x unread => ?_, fun x v => entry_of_durable h, fun x v => recovered_of_doubtful h,
    fun x r => erased_of_incomplete h⟩
  · exact rebuilding_trans (rebuilding_rebuildSeals s) (rebuilding_foldl (fun t x hx => (erasing_step h t x hx).1) _)
  · have unkept : ∀ v, ¬ keepsSegment s.boot.headers x v := fun v keeps => by
      have read := keeps.1
      rw [unread] at read
      cases read
    refine (entry_foldl_of_ne (l := s.incompleteList) (fun t y hy hx => (erasing_step h t y hy).2.2 x hx) (fun y hy e => ?_)
      _).trans (entry_of_not_kept h unkept)
    obtain ⟨⟨r, hr⟩, -⟩ := (mem_incompleteList h y).mp hy
    rw [← e, unread] at hr
    cases hr

end

/-! ## The records restored (R72, R91) -/

/-- The records that the rebuild restores, and L recomputed. -/
def State.rebuildRecords (s : State) (entries : List JEntry) : State :=
  let t := s.recordRestored .sealCounter { s.settings with
    sealCounter := (s.boot.headers.filterMap (fun p => p.2.map (·.seg.serial)) ++ sealSerials entries).foldl max 0 + 1 }
  (t.recordRestored .lastSeal t.settings).recomputeL

/-- L lies below the serial of every outstanding seal. -/
theorem recomputeL_below {n : Nat} (h : n ∈ s.outstanding) : s.recomputeL.settings.lastSeal ≤ n - 1 := by
  unfold State.recomputeL
  dsimp only
  cases hm : s.outstanding.min? with
  | none => rw [List.min?_eq_none_iff.mp hm] at h; cases h
  | some m =>
    have least := ((List.min?_eq_some_iff (xs := s.outstanding)).mp hm).2 n h
    show min _ (m - 1) ≤ n - 1
    omega

theorem mem_outstanding {x : Nat} {v : SegFields} (data : reservedExtents ≤ x) (state : (s.entry x).state = .journaling)
    (seg : (s.entry x).seg = some v) : v.serial ∈ s.outstanding := by
  rw [entry_of_table data] at state seg
  cases he : tget s.catalogue x with
  | none => rw [he] at seg; cases seg
  | some e =>
    rw [he] at state seg
    unfold State.outstanding
    refine List.mem_append_right _ (List.mem_filterMap.mpr ⟨(x, e), mem_of_tget he, ?_⟩)
    rw [if_pos (.inr state)]
    exact congrArg (Option.map _) seg

/-- What the records restored leave and set. -/
structure State.recordsRebuilt (s t : State) : Prop where
  frame : s.sameBut [.settings, .boot] t
  found : t.boot.newestFound = s.boot.newestFound ∧ t.boot.lost = s.boot.lost
  counter : SettingsId.sealCounter ∉ s.settings.damaged → t.settings.sealCounter = s.settings.sealCounter
  counted : SettingsId.sealCounter ∈ s.settings.damaged →
    ∀ x h, tget s.boot.headers x = some (some h) → h.seg.serial < t.settings.sealCounter
  damaged : ∀ d, d ∈ t.settings.damaged ↔ d ∈ s.settings.damaged ∧ d ≠ .sealCounter ∧ d ≠ .lastSeal
  below : ∀ n ∈ s.outstanding, t.settings.lastSeal ≤ n - 1

theorem recordsRebuilt_rebuildRecords (s : State) (entries : List JEntry) : s.recordsRebuilt (s.rebuildRecords entries) := by
  unfold State.rebuildRecords
  dsimp only
  generalize hserials : s.boot.headers.filterMap (fun p => p.2.map (·.seg.serial)) ++ sealSerials entries = serials
  have greatest := (foldl_max (fun n : Nat => n) serials 0).2.1
  have counter := recordDone_recordRestored (s := s) (id := .sealCounter)
    (v := { s.settings with sealCounter := serials.foldl max 0 + 1 }) rfl
  generalize s.recordRestored .sealCounter { s.settings with sealCounter := serials.foldl max 0 + 1 } = a at *
  have last := recordDone_recordRestored (s := a) (id := .lastSeal) (v := a.settings) rfl
  generalize a.recordRestored .lastSeal a.settings = b at *
  obtain ⟨l, recomputed⟩ := recomputeL_settings (s := b)
  have same : b.settings.sealCounter = a.settings.sealCounter := last.keeps Settings.sealCounter rfl fun _ => rfl
  obtain ⟨n, bootCounter⟩ := counter.boot
  obtain ⟨m, bootLast⟩ := last.boot
  have frame := recomputeL_frame (s := b)
  have before : s.sameBut [.settings, .boot] b := sameBut_trans counter.frame last.frame
  have boot : b.recomputeL.boot = b.boot := frame.boot (by decide)
  refine ⟨sameBut_then before frame (by decide) (by decide), ?_, fun h => ?_, fun h x k hk => ?_, fun d => ?_, fun n hn => ?_⟩
  · rw [boot, bootLast, bootCounter]
    exact ⟨rfl, rfl⟩
  · rw [recomputed]
    exact same.trans (by rw [counter.sound h])
  · have listed : k.seg.serial ∈ serials := by
      rw [← hserials]
      exact List.mem_append_left _ (List.mem_filterMap.mpr ⟨(x, some k), mem_of_tget hk, rfl⟩)
    rw [recomputed]
    show k.seg.serial < b.settings.sealCounter
    rw [same, counter.failed h]
    exact Nat.lt_succ_of_le (greatest _ listed)
  · rw [recomputed]
    show d ∈ b.settings.damaged ↔ _
    rw [last.damaged, counter.damaged, and_assoc]
  · refine recomputeL_below ?_
    unfold State.outstanding
    rw [before.stager (by decide), before.catalogue (by decide)]
    exact hn

/-! ## READY (R99, R170) -/

/-- The rebuild from the extents on: the records, the RESTART entry and READY. -/
def State.finishRebuild (s : State) (entries : List JEntry) : State :=
  let t := s.rebuildCounter entries
  let t := if t.settings.isDamaged .lastSeal then t.restoredOne .lastSeal else t
  let t := t.recomputeL
  (t.ask (.restart t.boot.newestFound t.stateCounts t.boot.recovered t.boot.incomplete t.boot.restored t.boot.lost)
    .plain).becomeReady

theorem rebuildCounter_eq (s : State) (entries : List JEntry) :
    let serials := s.boot.headers.filterMap (fun p => p.2.map (·.seg.serial)) ++ sealSerials entries
    s.rebuildCounter entries
      = s.recordRestored .sealCounter { s.settings with sealCounter := serials.foldl max 0 + 1 } := rfl

theorem lastSealRestored_eq (s : State) : (if s.settings.isDamaged .lastSeal then s.restoredOne .lastSeal else s)
    = s.recordRestored .lastSeal s.settings := rfl

theorem finishRebuild_eq (s : State) (entries : List JEntry) : s.finishRebuild entries =
    let t := s.rebuildRecords entries
    (t.ask (.restart t.boot.newestFound t.stateCounts t.boot.recovered t.boot.incomplete t.boot.restored t.boot.lost)
      .plain).becomeReady := by
  unfold State.finishRebuild State.rebuildRecords
  dsimp only
  rw [rebuildCounter_eq, lastSealRestored_eq]

theorem rebuildEnd_eq (s : State) :
    s.rebuildEnd = s.rebuildExtents.finishRebuild (foundEntries (foundPages s.boot.scanned)) := by
  have list : s.incompleteList = incompleteExtents s.rebuildSeals.boot.headers (keptHeaders s.boot.headers) := by
    rw [(rebuilding_rebuildSeals s).headers]
    rfl
  unfold State.rebuildExtents
  rw [list]
  rfl

theorem becomeReady_frame (s : State) : s.sameBut [.power, .clock, .ports, .out] s.becomeReady := by
  unfold State.becomeReady
  have ready : s.sameBut [.power, .clock, .ports, .out] ((s.setPower .ready).setClock
      { s.clock with state := if s.straps.ext then .following else .internal, watchdog := 0,
                     commitPending := false, commitDays := 0 }) :=
    sameBut_then (setPower_frame s _) (setClock_frame _ _) (by decide) (by decide)
  exact sameBut_ite (sameBut_trans ready (sameBut_mono (noticeAll_frame _ _ _) (by decide))) ready

theorem becomeReady_power (s : State) : s.becomeReady.power = .ready ∧ s.becomeReady.clock = { s.clock with
    state := if s.straps.ext then .following else .internal, watchdog := 0, commitPending := false, commitDays := 0 } := by
  have told : ∀ u : State, (if u.journal.low then u.noticeAll .journalLow .none else u).power = u.power
      ∧ (if u.journal.low then u.noticeAll .journalLow .none else u).clock = u.clock := fun u => by
    have frame := noticeAll_frame u .journalLow .none
    split
    · exact ⟨frame.power (by decide), frame.clock (by decide)⟩
    · exact ⟨rfl, rfl⟩
  exact told _

theorem asked_becomeReady {body : JBody} {note : AppendNote} (h : s.asked body note) : s.becomeReady.asked body note := by
  unfold State.asked
  rw [(becomeReady_frame s).journal (by decide), (becomeReady_power s).2]
  exact h

/-! ## The end of the rebuild -/

theorem rebuildEnds_rebuildEnd (h : s.headersLawful) : s.rebuildEnds s.boot.headers s.rebuildEnd := by
  have extents := extentsRebuilt_rebuildExtents h
  have keeps : ∀ {x : Nat} {v : SegHeader}, keepsSegment s.boot.headers x v → reservedExtents ≤ x := fun k => data_of_tget h k.1
  rw [rebuildEnd_eq, finishRebuild_eq]
  dsimp only
  generalize s.rebuildExtents = a at *
  have records := recordsRebuilt_rebuildRecords a (foundEntries (foundPages s.boot.scanned))
  generalize a.rebuildRecords (foundEntries (foundPages s.boot.scanned)) = b at *
  generalize hr : JBody.restart b.boot.newestFound b.stateCounts b.boot.recovered b.boot.incomplete b.boot.restored b.boot.lost
    = restart
  have asked := asked_plain b restart
  have askedKept := startKept_ask b restart plain_note
  have askedGrows := storeGrows_ask b restart (note := .plain) fun u _ => storeGrows_refl u
  have askedFrame := ask_plain_frame (s := b) restart
  generalize b.ask restart .plain = c at *
  have readyFrame := becomeReady_frame c
  obtain ⟨power, clock⟩ := becomeReady_power c
  have finished : ∀ {body : JBody} {note : AppendNote}, c.asked body note → c.becomeReady.asked body note := asked_becomeReady
  generalize c.becomeReady = t at *
  have settings : t.settings = b.settings := (readyFrame.settings (by decide)).trans (askedFrame.settings (by decide))
  have kept : a.startKept c := startKept_trans (startKept_of_frame records.frame (by decide)) askedKept
  have grows : a.storeGrows t := storeGrows_trans (storeGrows_trans (storeGrows_of_store (records.frame.store (by decide)))
    askedGrows) (storeGrows_of_store (readyFrame.store (by decide)))
  have entries : ∀ x, t.entry x = a.entry x := entry_of_catalogue ((readyFrame.catalogue (by decide)).trans
    ((askedFrame.catalogue (by decide)).trans (records.frame.catalogue (by decide))))
  have before := extents.rebuilt.frame.settings (by decide)
  have headers := extents.rebuilt.headers
  obtain ⟨newest, lost⟩ := records.found
  obtain ⟨newest', lost'⟩ := extents.rebuilt.found
  refine ⟨fun x unread => (entries x).trans (extents.untouched x unread),
    fun x v k durable => (entries x).trans (extents.sealed x v k durable), fun x v k doubtful => ?_, fun x r hr none => ?_,
    fun sound => ?_, fun failed => ?_, fun d => ?_, ⟨b.stateCounts, b.boot.recovered, b.boot.incomplete, b.boot.restored, ?_⟩,
    power, ?_, ?_, ?_⟩
  · obtain ⟨state, seg, recovered⟩ := extents.recovered x v k doubtful
    rw [entries, settings]
    exact ⟨state, seg, finished (asked_of_startKept kept recovered), records.below _ (mem_outstanding (keeps k) state seg)⟩
  · obtain ⟨entry, erase⟩ := eraseRequested_of_grows grows (entries x) (extents.incomplete x r hr none)
    exact ⟨entry, erase⟩
  · rw [settings, records.counter (by rw [before]; exact sound), before]
  · rw [settings, ← headers]
    exact records.counted (by rw [before]; exact failed)
  · rw [settings, records.damaged, before]
  · rw [← newest', ← lost', ← newest, ← lost, hr]
    exact finished asked
  · rw [clock, askedFrame.straps (by decide), records.frame.straps (by decide), extents.rebuilt.frame.straps (by decide)]
  · rw [clock, kept.clock, extents.rebuilt.kept.clock]
  · rw [clock]

end Sys2Proof.Machine
end

section
/-!
SUPPORT. Power, and the steps of start-up from one READ to the next (R83, R96, R156, R170).
-/

namespace Sys2Proof.Machine

variable {s t u : State}

/-! ## Power (R170) -/

theorem atPowerOn_powerOnValues (pending : List Instr) (out : List Output) (straps : StrapPins) (settings : Settings)
    (flash : Flash) : (State.powerOnValues pending out straps settings flash).atPowerOn := by
  have port : ∀ p, (State.powerOnValues pending out straps settings flash).port p = Port.reset := fun p =>
    Vector.getElem_replicate p.isLt
  have chains : ∀ c : ChainNo, Port.reset.chains[c.val] = Chain.idle := fun c => Vector.getElem_replicate c.isLt
  refine ⟨⟨rfl, rfl, rfl, rfl⟩, ⟨rfl, rfl, rfl⟩, rfl, ⟨rfl, fun i => Vector.getElem_replicate i.isLt⟩, ⟨rfl, rfl, rfl⟩,
    ⟨rfl, rfl, rfl, rfl, rfl⟩, ⟨rfl, rfl, rfl, rfl, fun i => Vector.getElem_replicate i.isLt⟩, fun p => ?_,
    ⟨rfl, rfl, fun l => Vector.getElem_replicate l.isLt, fun p => Vector.getElem_replicate p.isLt⟩, rfl⟩
  rw [port]
  exact ⟨rfl, rfl, rfl, rfl, rfl, rfl, chains⟩

theorem powerUp_eq (pins : StrapPins) (damaged : List SettingsId) (off : s.power = .off) : s.powerUp pins damaged =
    { State.powerOnValues s.pending s.out pins { s.settings with damaged := damaged ++ s.settings.damaged } s.flash with
      power := .starting,
      store := { queues := #v[[.pageRead 0 .scan false], [], [], []], placeWait := [], full := false } } := by
  unfold State.powerUp
  rw [if_pos off]
  rfl

theorem powerDown_flash (c0 c1 c2 c3 : Cut) (idle : ∀ ch, s.inFlight ch = none) :
    (s.powerDown c0 c1 c2 c3).flash = s.flash := by
  have uncut : ∀ f ch c, s.cutChannel f ch c = f := fun f ch c => by
    unfold State.cutChannel
    rw [idle ch]
  unfold State.powerDown
  simp only [uncut]
  rfl

theorem queue_powerDown (c0 c1 c2 c3 : Cut) (ch : Channel) : (s.powerDown c0 c1 c2 c3).queue ch = [] :=
  Vector.getElem_replicate ch.isLt

/-! ## One READ after another (R83, R96, R156) -/

theorem tail_length_lt {α : Type} {l : List α} {a : α} (h : l.head? = some a) (full : l.length ≤ 16) :
    l.tail.length < 16 := by
  cases l with
  | nil => cases h
  | cons b l => simpa using full

/-- The operation that follows the one whose READ has ended takes its place. -/
theorem request_popQueue {ch : Channel} {op : StoreOp} (flight : s.inFlight ch = some op) (nobody : s.store.placeWait = [])
    (full : (s.queue ch).length ≤ 16) (hu : u.store = (s.popQueue ch).store) (next : StoreOp) :
    (u.request ch next).boot = u.boot ∧ (u.request ch next).queue ch = (s.queue ch).tail ++ [next] := by
  have queue : u.queue ch = (s.queue ch).tail := (queue_of_store hu ch).trans ((queue_popQueue s ch ch).trans (if_pos rfl))
  have room : (u.queue ch).length < 16 := by
    rw [queue]
    exact tail_length_lt flight full
  rw [(request_of_open room (by rw [hu]; exact nobody) next).2, queue]
  exact ⟨rfl, (queue_setQueue _ _ _ _).trans (if_pos rfl)⟩

theorem completeScanRead_returned {slot : Nat} {again : Bool} {outcome : PageOutcome} {content : SlotContent}
    (starting : s.power = .starting) (stage : s.boot.stage = .scan)
    (flight : s.inFlight 0 = some (.pageRead slot .scan again)) (read : s.returnedPage slot outcome = some content) :
    s.completeScanRead outcome = (s.popQueue 0).scanned slot content := by
  unfold State.completeScanRead
  rw [flight]
  dsimp only
  rw [if_pos ⟨starting, stage⟩, show (s.popQueue 0).returnedPage slot outcome = some content from read]

theorem completeScanRead_failed {slot : Nat} {outcome : PageOutcome} (starting : s.power = .starting)
    (stage : s.boot.stage = .scan) (flight : s.inFlight 0 = some (.pageRead slot .scan true))
    (failed : s.returnedPage slot outcome = none) :
    s.completeScanRead outcome = ((s.popQueue 0).countFailure).scanned slot (.page []) := by
  unfold State.completeScanRead
  rw [flight]
  dsimp only
  rw [if_pos ⟨starting, stage⟩, show (s.popQueue 0).returnedPage slot outcome = none from failed]
  rfl

/-- A slot's entries noted. -/
theorem scanned_noted (s : State) (slot : Nat) (content : SlotContent) : s.scanned slot content =
    let u := s.setBoot { s.boot with scanned := s.scannedWith slot content }
    if slot + 1 < 32768 then
      (u.setBoot { u.boot with slot := slot + 1 }).request 0 (.pageRead (slot + 1) .scan false)
    else u.scanEnd := by
  cases content with
  | erased => rfl
  | page entries => rfl

theorem headerReported_noted (s : State) (ch : Channel) (x : Nat) (content : ExtentContent) :
    s.headerReported ch x (headerReport (some content)) =
      let u := (s.setBoot { s.boot with headers := s.headersWith x content }).nextHeader ch (x + 1)
      if u.boot.headersDone then u.rebuildEnd else u := by
  cases content with
  | erased => rfl
  | incomplete => rfl
  | segment h check body => rfl

/-- A slot before the last goes on to the next. -/
theorem scanned_next (s : State) {slot : Nat} (content : SlotContent) (more : slot + 1 < 32768) :
    ∃ u, s.scanned slot content = u.request 0 (.pageRead (slot + 1) .scan false)
      ∧ u.boot = { s.boot with slot := slot + 1, scanned := s.scannedWith slot content } ∧ s.sameBut [.boot] u := by
  rw [scanned_noted]
  dsimp only
  rw [if_pos more]
  exact ⟨_, rfl, rfl, sameBut_trans (setBoot_frame _ _) (setBoot_frame _ _)⟩

/-- A header before its channel's last goes on to the next extent, where that is not marked BAD. -/
theorem headerReported_next {ch : Channel} {x : Nat} (content : ExtentContent) (within : x + 1 < (ch.val + 1) * 32768)
    (sound : x + 1 ∉ s.settings.bad) :
    ∃ u, s.headerReported ch x (headerReport (some content)) = u.request ch (.headerRead (x + 1) false)
      ∧ u.boot = { s.boot with headers := s.headersWith x content, nextHeader := vset s.boot.nextHeader ch (x + 1) }
      ∧ s.sameBut [.boot] u := by
  rw [headerReported_noted]
  dsimp only
  generalize hw : s.setBoot { s.boot with headers := s.headersWith x content } = w
  have noted : s.sameBut [.boot] w := by
    rw [← hw]
    exact setBoot_frame s _
  have boot : w.boot = { s.boot with headers := s.headersWith x content } := by
    rw [← hw]
    rfl
  have next : w.headerFrom (x + 1) = x + 1 := skipBad_sound (by rw [noted.settings (by decide)]; exact sound) _
  have reads : ¬ (w.nextHeader ch (x + 1)).boot.headersDone = true := fun done => by
    have beyond := (headersDone_iff _).mp done ch
    rw [nextHeader_boot, next] at beyond
    have least := Nat.le_trans beyond (Nat.le_of_eq (vset_get_self _ _ _))
    omega
  rw [if_neg reads, nextHeader_eq, next]
  dsimp only
  rw [if_pos within]
  refine ⟨_, rfl, ?_, sameBut_trans noted (setBoot_frame _ _)⟩
  show { w.boot with nextHeader := vset w.boot.nextHeader ch (x + 1) } = _
  rw [boot]

theorem completeHeaderRead_returned {ch : Channel} {x : Nat} {again : Bool} {outcome : ReadOutcome} {content : ExtentContent}
    (starting : s.power = .starting) (stage : s.boot.stage = .rebuild)
    (flight : s.inFlight ch = some (.headerRead x again)) (read : s.returned x outcome = some content) :
    s.completeHeaderRead ch outcome = (s.popQueue ch).headerReported ch x (headerReport (some content)) := by
  unfold State.completeHeaderRead
  rw [flight]
  dsimp only
  rw [if_pos ⟨starting, stage⟩, show (s.popQueue ch).returned x outcome = some content from read]

theorem rising_scannedWith (h : Table.rising s.boot.scanned = true) (slot : Nat) (content : SlotContent) :
    Table.rising (s.scannedWith slot content) = true := by
  cases content with
  | erased => exact h
  | page entries => exact rising_tput h slot entries

theorem rising_headersWith (h : Table.rising s.boot.headers = true) (x : Nat) (content : ExtentContent) :
    Table.rising (s.headersWith x content) = true := by
  cases content with
  | erased => exact h
  | incomplete => exact rising_tput h x _
  | segment k check body => exact rising_tput h x _

/-! ## The ends of start-up's two stages, seen from before the READ left its queue -/

theorem scanEnds_from {scanned : Table (List StoredEntry)} (h : u.scanEnds scanned t) (settings : u.settings = s.settings)
    (straps : u.straps = s.straps) (catalogue : u.catalogue = s.catalogue) : s.scanEnds scanned t := by
  have entry := entry_of_catalogue catalogue
  refine ⟨h.journal, ?_, ?_, h.clock, ?_, ?_, fun i => rowRestored_from (h.rows i) (by rw [settings]) straps (by rw [settings]),
    holdsRestored_from h.holds (by rw [settings]) (fun k id => by rw [settings]), ?_, ?_, ?_, ?_, h.stage⟩
  · rw [← settings, ← straps]
    exact h.next
  · rw [← settings]
    exact h.release
  · rw [← settings]
    exact h.savedDay
  · rw [← settings]
    exact h.dayFound
  · rw [← settings]
    exact h.bad
  · rw [← settings]
    exact h.badFound
  · rw [← settings]
    exact h.damaged
  · simp only [← entry]
    exact h.catalogue

theorem wasDurable_from (settings : u.settings = s.settings) (scanned : u.boot.scanned = s.boot.scanned) (v : SegFields) :
    u.wasDurable v ↔ s.wasDurable v := by
  unfold State.wasDurable
  rw [settings, scanned]

theorem rebuildEnds_from {headers : Table (Option SegHeader)} (h : u.rebuildEnds headers t)
    (frame : s.sameBut [.store, .boot] u) (scanned : u.boot.scanned = s.boot.scanned) (newest : u.boot.newestFound = s.boot.newestFound)
    (lost : u.boot.lost = s.boot.lost) : s.rebuildEnds headers t := by
  have settings := frame.settings (by decide)
  have entry := entry_of_catalogue (frame.catalogue (by decide))
  have durable := wasDurable_from settings scanned
  have count : ∀ v, u.coverCount v = s.coverCount v := fun v => by
    unfold State.coverCount
    rw [settings]
  refine ⟨fun x hx => (h.untouched x hx).trans (entry x), fun x v k d => ?_,
    fun x v k d => h.recovered x v k fun e => d ((durable _).mp e), h.incomplete, ?_, ?_, ?_, ?_, ?_⟩
  · rw [← count]
    exact h.sealed x v k ((durable _).mpr d)
  · rw [← settings]
    exact h.counter
  · rw [← settings]
    exact h.counted
  · rw [← settings]
    exact h.damaged
  · rw [← newest, ← lost]
    exact h.restart
  · rw [← frame.straps (by decide), ← frame.clock (by decide)]
    exact h.ready

/-! ## The last READ of each stage -/

/-- The last slot's entries noted end the scan. -/
theorem scanEnds_scanned {content : SlotContent} (starting : s.power = .starting) (canonical : s.canonical)
    (agree : copiesAgree (s.scannedWith 32767 content))
    (some : ∃ x, reservedExtents ≤ x ∧ x < 131072 ∧ x ∉ s.settings.bad
      ∧ ∀ slot e cause n, foundAt (s.scannedWith 32767 content) slot e → e.body ≠ .badExtent x cause n)
    (frame : s.sameBut [.store, .journal] u) : s.scanEnds (s.scannedWith 32767 content) (u.scanned 32767 content) := by
  have boot := frame.boot (by decide)
  have settings := frame.settings (by decide)
  have noted : u.scannedWith 32767 content = s.scannedWith 32767 content := by
    unfold State.scannedWith
    rw [boot]
  rw [scanned_noted, noted]
  dsimp only
  rw [if_neg (by decide)]
  have table := rising_scannedWith canonical.scanned 32767 content
  have ends := scanEnds_scanEnd (s := u.setBoot { u.boot with scanned := s.scannedWith 32767 content })
    ((frame.power (by decide)).trans starting) table (holds := by
      show Table.rising u.settings.holds = true
      rw [settings]
      exact canonical.holds) agree
    (by rw [← settings] at some; exact some)
  exact scanEnds_from ends settings (frame.straps (by decide)) (frame.catalogue (by decide))

/-- The last header's report ends the rebuild. -/
theorem rebuildEnds_headerReported {ch : Channel} {x : Nat} {content : ExtentContent} (canonical : s.canonical)
    (last : x + 1 = (ch.val + 1) * 32768) (others : ∀ k : Channel, k ≠ ch → (k.val + 1) * 32768 ≤ s.boot.nextHeader[k.val])
    (data : ∀ p ∈ s.headersWith x content, reservedExtents ≤ p.1) (agree : copiesAgree s.boot.scanned)
    (frame : s.sameBut [.store] u) :
    s.rebuildEnds (s.headersWith x content) (u.headerReported ch x (headerReport (some content))) := by
  have boot := frame.boot (by decide)
  have noted : u.headersWith x content = s.headersWith x content := by
    unfold State.headersWith
    rw [boot]
  rw [headerReported_noted, noted]
  dsimp only
  generalize hw : u.setBoot { u.boot with headers := s.headersWith x content } = w
  have set : s.sameBut [.store, .boot] w := by
    rw [← hw]
    exact sameBut_then frame (setBoot_frame u _) (by decide) (by decide)
  have start : w.boot = { s.boot with headers := s.headersWith x content } := by
    rw [← hw, ← boot]
    rfl
  have next := nextHeader_boot w ch (x + 1)
  have moved : s.sameBut [.store, .boot] (w.nextHeader ch (x + 1)) :=
    sameBut_then set (nextHeader_frame w ch _) (by decide) (by decide)
  have beyond : (ch.val + 1) * 32768 ≤ w.headerFrom (x + 1) := by
    rw [← last]
    exact skipBad_ge _ _ _
  rw [start] at next
  generalize w.nextHeader ch (x + 1) = r at *
  have done : r.boot.headersDone = true := (headersDone_iff _).mpr fun k => by
    rw [next]
    by_cases same : k = ch
    · rw [same]
      exact Nat.le_trans beyond (Nat.le_of_eq (vset_get_self _ _ _).symm)
    · exact Nat.le_trans (others k same) (Nat.le_of_eq (vset_get_of_ne _ same _).symm)
  rw [if_pos done]
  have headers : r.boot.headers = s.headersWith x content := by rw [next]
  have scanned : r.boot.scanned = s.boot.scanned := by rw [next]
  have lawful : r.headersLawful := by
    refine ⟨?_, ?_, ?_, ?_⟩
    · rw [headers]
      exact rising_headersWith canonical.headers x content
    · rw [scanned]
      exact canonical.scanned
    · rw [scanned]
      exact agree
    · rw [headers]
      exact data
  have ends := rebuildEnds_rebuildEnd lawful
  rw [headers] at ends
  exact rebuildEnds_from ends moved scanned (by rw [next]) (by rw [next])

end Sys2Proof.Machine

open Sys2Proof Sys2Proof.Machine

/-- Settles O51: what power takes and leaves, the READs of start-up one after another, and the ends of its two stages. -/
theorem powerAndStartUp : Obligations.PowerAndStartUp := by
  unfold Obligations.PowerAndStartUp
  refine ⟨fun s => ⟨fun pins damaged off => ?_, fun c0 c1 c2 c3 on => ?_⟩, fun s starting => ⟨fun nobody full => ⟨?_, ?_⟩,
    fun canonical => ⟨?_, ?_⟩⟩⟩
  · have values := atPowerOn_powerOnValues s.pending s.out pins
      { s.settings with damaged := damaged ++ s.settings.damaged } s.flash
    refine ⟨s.powerUp pins damaged, rfl, powerUp_eq pins damaged off, ?_⟩
    rw [powerUp_eq pins damaged off]
    exact ⟨values.intake, ⟨rfl, rfl, rfl⟩, values.clock, values.retention, values.scanner, values.audit, values.journal,
      values.ports, values.arbiter, values.boot⟩
  · refine ⟨s.powerDown c0 c1 c2 c3, ?_, rfl, powerDown_flash c0 c1 c2 c3, rfl, atPowerOn_powerOnValues _ _ _ _ _,
      queue_powerDown c0 c1 c2 c3⟩
    exact congrArg Host.Outcome.next (if_neg on)
  · intro slot again outcome content stage flight more read
    refine ⟨s.completeScanRead outcome, rfl, ?_⟩
    rw [completeScanRead_returned starting stage flight read]
    obtain ⟨u, goesOn, boot, noted⟩ := scanned_next (s.popQueue 0) content more
    obtain ⟨kept, joined⟩ := request_popQueue flight nobody (full 0) (noted.store (by decide))
      (.pageRead (slot + 1) .scan false)
    rw [goesOn]
    exact ⟨kept.trans boot, joined, sameBut_then (m := [.boot, .store])
      (sameBut_then (m := [.boot, .store]) (popQueue_frame s 0) noted (by decide) (by decide)) (request_frame u _ _)
      (by decide) (by decide)⟩
  · intro ch x again outcome content stage flight read within sound
    refine ⟨s.completeHeaderRead ch outcome, rfl, ?_⟩
    rw [completeHeaderRead_returned starting stage flight read]
    obtain ⟨u, goesOn, boot, noted⟩ := headerReported_next (s := s.popQueue ch) content within sound
    obtain ⟨kept, joined⟩ := request_popQueue flight nobody (full ch) (noted.store (by decide)) (.headerRead (x + 1) false)
    rw [goesOn]
    exact ⟨kept.trans boot, joined, sameBut_then (m := [.boot, .store])
      (sameBut_then (m := [.boot, .store]) (popQueue_frame s ch) noted (by decide) (by decide)) (request_frame u _ _)
      (by decide) (by decide)⟩
  · intro again outcome content stage flight outcomes scanned agree some
    refine ⟨s.completeScanRead outcome, rfl, ?_⟩
    rcases outcomes with read | ⟨failed, rfl, rfl⟩
    · rw [completeScanRead_returned starting stage flight read]
      exact scanEnds_scanned starting canonical agree some (sameBut_mono (popQueue_frame s 0) (by decide))
    · rw [completeScanRead_failed starting stage flight failed]
      exact scanEnds_scanned starting canonical agree some
        (sameBut_then (popQueue_frame s 0) (setJournal_frame _ _) (by decide) (by decide))
  · intro ch x again outcome content stage flight read last others data agree
    refine ⟨s.completeHeaderRead ch outcome, rfl, ?_⟩
    rw [completeHeaderRead_returned starting stage flight read]
    exact rebuildEnds_headerReported canonical last others data agree (popQueue_frame s ch)
end

section
/-!
SUPPORT. The law of pins said of the jobs' segments, the entries and the operations of the store taken by themselves, and
what each change of one of them keeps of it (R76, R80, R93, R122, R128).
-/

namespace Sys2Proof.Machine

/-! ## The law over jobs, entries and operations -/

/-- The scrub and the jobs of the sixteen chains. -/
def allJobs : List JobRef := JobRef.scrub :: allChains.map JobRef.chain

/-- Whether a job is on an extent and past its wait for a pin. -/
def holdsPin (J : JobRef → Option SegJob) (x : Nat) (r : JobRef) : Bool :=
  (J r).any (fun g => decide (g.extent = x) && decide (g.phase ≠ .waitPin))

/-- The law of `State.pinsLawful`, the IDLE chains aside, over the segments of the jobs, the entries and the operations. -/
structure PinLaw (J : JobRef → Option SegJob) (E : Nat → Entry) (O : List StoreOp) : Prop where
  stands : ∀ r g, J r = some g → (E g.extent).accepts g.serial = true
  counted : ∀ x, allJobs.countP (holdsPin J x) ≤ (E x).pins
  waiting : ∀ x c, c ∈ (E x).pinWait → ∃ g, J (.chain c) = some g ∧ g.extent = x ∧ g.phase = .waitPin
  listed : ∀ r g, J r = some g → g.phase = .waitPin → ∃ c, r = .chain c ∧ c ∈ (E g.extent).pinWait
  held : ∀ x, (E x).pinWait ≠ [] → 0 < (E x).pins
  granted : ∀ x c, c ∈ (E x).granted → ∃ g, J (.chain c) = some g ∧ g.extent = x ∧ g.phase = .pinned
  once : ∀ x, (E x).pinWait.Nodup ∧ (E x).granted.Nodup
  reads : ∀ x r again, .segRead x (some r) again ∈ O →
    ∃ g, J r = some g ∧ g.extent = x ∧ (g.phase = .reading ∨ g.phase = .waitPlace)
  oneRead : ∀ r, O.countP (StoreOp.readsFor r) ≤ 1
  writes : ∀ b x, .segWrite b x ∈ O → (E x).state = .writing
  erases : ∀ x, .erase x ∈ O → (E x).state = .erasing
  oneAlters : ∀ x, O.countP (StoreOp.alters x) ≤ 1

variable {s t : State} {J J' : JobRef → Option SegJob} {E E' : Nat → Entry} {O O' : List StoreOp} {r : JobRef}
  {g : SegJob} {x : Nat}

theorem pinHolders_length (s : State) (x : Nat) : (s.pinHolders x).length = allJobs.countP (holdsPin s.segJob x) := by
  unfold State.pinHolders
  rw [← List.countP_eq_length_filter]
  refine List.countP_congr fun r _ => ?_
  unfold holdsPin
  cases s.segJob r <;> exact Iff.rfl

theorem pinsLawful_iff : s.pinsLawful ↔ PinLaw s.segJob s.entry s.storeOps
    ∧ ∀ c, (s.chain c).state = .idle → (s.chain c).desc = none := by
  constructor
  · intro h
    exact ⟨⟨h.pinned.stands, fun x => pinHolders_length s x ▸ h.pinned.counted x, h.waiting, h.listed, h.held, h.granted,
      h.once, h.reads, h.oneRead, h.writes, h.erases, h.oneAlters⟩, h.idle⟩
  · rintro ⟨h, idle⟩
    exact ⟨⟨h.stands, fun x => (pinHolders_length s x).symm ▸ h.counted x⟩, h.waiting, h.listed, h.held, h.granted,
      h.once, h.reads, h.oneRead, h.writes, h.erases, h.oneAlters, idle⟩

/-! ## Counting the jobs that hold a pin -/

theorem mem_allJobs (r : JobRef) : r ∈ allJobs := by
  rcases r with ⟨p, c⟩ | _
  · revert p c; decide +kernel
  · decide +kernel

theorem allJobs_nodup : allJobs.Nodup := by decide +kernel

theorem holdsPin_iff : holdsPin J x r = true ↔ ∃ g, J r = some g ∧ g.extent = x ∧ g.phase ≠ .waitPin := by
  unfold holdsPin
  cases J r <;> simp

/-- The count of holders is that of the other jobs, and one for the job itself where it holds a pin. -/
theorem holders_split (J : JobRef → Option SegJob) (x : Nat) (r : JobRef) : allJobs.countP (holdsPin J x)
    = (allJobs.erase r).countP (holdsPin J x) + if holdsPin J x r then 1 else 0 := by
  rw [(List.perm_cons_erase (mem_allJobs r)).countP_eq, List.countP_cons]

/-- The other jobs' part of the count depends on their segments alone. -/
theorem holders_others (h : ∀ q, q ≠ r → J' q = J q) (x : Nat) :
    (allJobs.erase r).countP (holdsPin J' x) = (allJobs.erase r).countP (holdsPin J x) := by
  refine List.countP_congr fun q hq => ?_
  unfold holdsPin
  rw [h q (allJobs_nodup.mem_erase_iff.mp hq).1]

/-! ## Extents on which no job stands -/

/-- No job stands on an extent. -/
def unoccupied (J : JobRef → Option SegJob) (x : Nat) : Prop := ∀ r g, J r = some g → g.extent ≠ x

theorem holders_of_unoccupied (h : unoccupied J x) : allJobs.countP (holdsPin J x) = 0 := by
  refine List.countP_eq_zero.mpr fun r _ hr => ?_
  obtain ⟨g, hg, hx, -⟩ := holdsPin_iff.mp hr
  exact h r g hg hx

theorem lists_of_unoccupied (h : PinLaw J E O) (free : unoccupied J x) : (E x).pinWait = [] ∧ (E x).granted = [] := by
  constructor
  · refine List.eq_nil_iff_forall_not_mem.mpr fun c hc => ?_
    obtain ⟨g, hg, hx, -⟩ := h.waiting x c hc
    exact free _ g hg hx
  · refine List.eq_nil_iff_forall_not_mem.mpr fun c hc => ?_
    obtain ⟨g, hg, hx, -⟩ := h.granted x c hc
    exact free _ g hg hx

/-- An entry without pins has no job on it (R93). -/
theorem unoccupied_of_pins (h : PinLaw J E O) (none : (E x).pins = 0) : unoccupied J x := by
  rintro r g hg rfl
  by_cases wait : g.phase = .waitPin
  · obtain ⟨c, -, hc⟩ := h.listed r g hg wait
    have := h.held g.extent (List.ne_nil_of_mem hc)
    omega
  · have counted := h.counted g.extent
    rw [holders_split J _ r, if_pos (holdsPin_iff.mpr ⟨g, hg, rfl, wait⟩)] at counted
    omega

/-- An entry that accepts no pin has no job on it (R93). -/
theorem unoccupied_of_closed (h : PinLaw J E O) (closed : ∀ n, (E x).accepts n = false) : unoccupied J x := by
  rintro r g hg rfl
  exact absurd ((closed g.serial).symm.trans (h.stands r g hg)) (by decide)

/-- An extent that is neither WRITING nor ERASING has no WRITE and no ERASE (R80, R122). -/
theorem no_alters (h : PinLaw J E O) (hw : (E x).state ≠ .writing) (he : (E x).state ≠ .erasing) :
    O.countP (StoreOp.alters x) = 0 := by
  refine List.countP_eq_zero.mpr fun o ho ha => ?_
  cases o <;> simp only [StoreOp.alters, decide_eq_true_eq, Bool.false_eq_true] at ha
  · exact hw (h.writes _ x (ha ▸ ho))
  · exact he (h.erases x (ha ▸ ho))

theorem write_not_mem (h : O.countP (StoreOp.alters x) = 0) (b : Nat) : .segWrite b x ∉ O := fun hm =>
  List.countP_eq_zero.mp h _ hm (decide_eq_true rfl)

theorem erase_not_mem (h : O.countP (StoreOp.alters x) = 0) : .erase x ∉ O := fun hm =>
  List.countP_eq_zero.mp h _ hm (decide_eq_true rfl)

/-! ## Operations that come and go -/

/-- Whether the law of pins reads an operation: a segment READ for a job, or one that writes or erases a data extent. -/
def StoreOp.binds : StoreOp → Bool
  | .segRead _ who _ => who.isSome
  | .segWrite _ _ => true
  | .erase _ => true
  | _ => false

theorem countP_binds {p : StoreOp → Bool} (hp : ∀ o, p o = true → o.binds = true) (O : List StoreOp) :
    O.countP p = (O.filter StoreOp.binds).countP p := by
  rw [List.countP_filter]
  exact List.countP_congr fun o _ => by
    constructor
    · intro h; simp [h, hp o h]
    · intro h; simp only [Bool.and_eq_true] at h; exact h.1

theorem readsFor_binds (r : JobRef) (o : StoreOp) (h : o.readsFor r = true) : o.binds = true := by
  cases o <;> simp_all [StoreOp.readsFor, StoreOp.binds]

theorem alters_binds (x : Nat) (o : StoreOp) (h : o.alters x = true) : o.binds = true := by
  cases o <;> simp_all [StoreOp.alters, StoreOp.binds]

/-- The operations that the law reads are among those of another list, each no more often. -/
def opsWithin (O O' : List StoreOp) : Prop := (O'.filter StoreOp.binds).Subperm (O.filter StoreOp.binds)

theorem opsWithin_refl (O : List StoreOp) : opsWithin O O := List.Subperm.refl _

theorem opsWithin_trans {O O' O'' : List StoreOp} (h : opsWithin O O') (k : opsWithin O' O'') : opsWithin O O'' :=
  List.Subperm.trans k h

theorem opsWithin_of_perm (h : O'.Perm O) : opsWithin O O' := (h.filter _).subperm

theorem opsWithin_of_sublist (h : O'.Sublist O) : opsWithin O O' := (h.filter _).subperm

/-- An operation that the law does not read, more or less. -/
theorem opsWithin_cons {o : StoreOp} (h : o.binds = false) (O : List StoreOp) : opsWithin O (o :: O) := by
  unfold opsWithin
  rw [List.filter_cons_of_neg (by rw [h]; decide)]

theorem mem_of_within (h : opsWithin O O') {o : StoreOp} (hb : o.binds = true) (ho : o ∈ O') : o ∈ O :=
  (List.mem_filter.mp (h.subset (List.mem_filter.mpr ⟨ho, hb⟩))).1

theorem countP_within (h : opsWithin O O') {p : StoreOp → Bool} (hp : ∀ o, p o = true → o.binds = true) :
    O'.countP p ≤ O.countP p := by
  rw [countP_binds hp O', countP_binds hp O]
  exact h.countP_le p

theorem pinLaw_ops (h : PinLaw J E O) (k : opsWithin O O') : PinLaw J E O' where
  stands := h.stands
  counted := h.counted
  waiting := h.waiting
  listed := h.listed
  held := h.held
  granted := h.granted
  once := h.once
  reads x r again hm := h.reads x r again (mem_of_within k rfl hm)
  oneRead r := Nat.le_trans (countP_within k (readsFor_binds r)) (h.oneRead r)
  writes b x hm := h.writes b x (mem_of_within k rfl hm)
  erases x hm := h.erases x (mem_of_within k rfl hm)
  oneAlters x := Nat.le_trans (countP_within k (alters_binds x)) (h.oneAlters x)

/-- A segment READ is requested for a job that awaits one and has none (R83, R128). -/
theorem pinLaw_read (h : PinLaw J E O) (hg : J r = some g) (phase : g.phase = .reading ∨ g.phase = .waitPlace)
    (none : O.countP (StoreOp.readsFor r) = 0) (again : Bool) : PinLaw J E (.segRead g.extent (some r) again :: O) where
  stands := h.stands
  counted := h.counted
  waiting := h.waiting
  listed := h.listed
  held := h.held
  granted := h.granted
  once := h.once
  reads x q b hm := by
    rcases List.mem_cons.mp hm with e | hm
    · cases e; exact ⟨g, hg, rfl, phase⟩
    · exact h.reads x q b hm
  oneRead q := by
    rw [List.countP_cons]
    by_cases e : q = r
    · subst e; rw [none]; split <;> omega
    · have other : StoreOp.readsFor q (.segRead g.extent (some r) again) = false := by
        simp [StoreOp.readsFor, Ne.symm e]
      rw [other]
      exact h.oneRead q
  writes b x hm := h.writes b x ((List.mem_cons.mp hm).resolve_left (by simp))
  erases x hm := h.erases x ((List.mem_cons.mp hm).resolve_left (by simp))
  oneAlters x := by
    rw [List.countP_cons]
    exact h.oneAlters x

/-- The WRITE of an extent that has become WRITING, or the ERASE of one that has become ERASING, is requested (R77,
R122). -/
theorem pinLaw_alter (h : PinLaw J E O) (none : O.countP (StoreOp.alters x) = 0) {o : StoreOp}
    (ho : (∃ b, o = .segWrite b x ∧ (E x).state = .writing) ∨ (o = .erase x ∧ (E x).state = .erasing)) :
    PinLaw J E (o :: O) where
  stands := h.stands
  counted := h.counted
  waiting := h.waiting
  listed := h.listed
  held := h.held
  granted := h.granted
  once := h.once
  reads y q b hm := h.reads y q b ((List.mem_cons.mp hm).resolve_left (by rcases ho with ⟨b, rfl, -⟩ | ⟨rfl, -⟩ <;> simp))
  oneRead q := by
    have other : o.readsFor q = false := by rcases ho with ⟨b, rfl, -⟩ | ⟨rfl, -⟩ <;> rfl
    rw [List.countP_cons, other]
    exact h.oneRead q
  writes b y hm := by
    rcases List.mem_cons.mp hm with e | hm
    · rcases ho with ⟨b', rfl, hs⟩ | ⟨rfl, -⟩ <;> cases e
      exact hs
    · exact h.writes b y hm
  erases y hm := by
    rcases List.mem_cons.mp hm with e | hm
    · rcases ho with ⟨b', rfl, -⟩ | ⟨rfl, hs⟩ <;> cases e
      exact hs
    · exact h.erases y hm
  oneAlters y := by
    rw [List.countP_cons]
    by_cases e : y = x
    · subst e; rw [none]; split <;> omega
    · have other : o.alters y = false := by
        rcases ho with ⟨b, rfl, -⟩ | ⟨rfl, -⟩ <;> simp [StoreOp.alters, Ne.symm e]
      rw [other]
      exact h.oneAlters y

/-! ## Entries that change -/

/-- Entries change under the law where each keeps its lists, and keeps its pins and what it accepts where a job stands on it,
and where its state changes no WRITE and no ERASE of it stands. -/
structure EntriesFollow (J : JobRef → Option SegJob) (O : List StoreOp) (E E' : Nat → Entry) (x : Nat) : Prop where
  lists : (E' x).pinWait = (E x).pinWait ∧ (E' x).granted = (E x).granted
  occupied : unoccupied J x ∨ ((E x).pins ≤ (E' x).pins ∧ ∀ n, (E x).accepts n = true → (E' x).accepts n = true)
  state : (E' x).state = (E x).state ∨ O.countP (StoreOp.alters x) = 0

theorem pinLaw_entries (h : PinLaw J E O) (k : ∀ x, EntriesFollow J O E E' x) : PinLaw J E' O where
  stands r g hg := (k g.extent).occupied.elim (fun free => absurd rfl (free r g hg)) fun o => o.2 _ (h.stands r g hg)
  counted x := (k x).occupied.elim (fun free => by rw [holders_of_unoccupied free]; exact Nat.zero_le _)
    fun o => Nat.le_trans (h.counted x) o.1
  waiting x c hc := h.waiting x c ((k x).lists.1 ▸ hc)
  listed r g hg hp := by
    obtain ⟨c, hr, hc⟩ := h.listed r g hg hp
    exact ⟨c, hr, (k g.extent).lists.1 ▸ hc⟩
  held x hn := by
    rw [(k x).lists.1] at hn
    rcases (k x).occupied with free | o
    · exact absurd (lists_of_unoccupied h free).1 hn
    · exact Nat.lt_of_lt_of_le (h.held x hn) o.1
  granted x c hc := h.granted x c ((k x).lists.2 ▸ hc)
  once x := by rw [(k x).lists.1, (k x).lists.2]; exact h.once x
  reads := h.reads
  oneRead := h.oneRead
  writes b x hm := by
    rcases (k x).state with e | none
    · rw [e]; exact h.writes b x hm
    · exact absurd hm (write_not_mem none b)
  erases x hm := by
    rcases (k x).state with e | none
    · rw [e]; exact h.erases x hm
    · exact absurd hm (erase_not_mem none)
  oneAlters := h.oneAlters

theorem entriesFollow_of_eq (h : E' x = E x) : EntriesFollow J O E E' x :=
  ⟨by rw [h]; exact ⟨rfl, rfl⟩, .inr (by rw [h]; exact ⟨Nat.le_refl _, fun _ => id⟩), .inl (by rw [h])⟩

/-! ## Jobs whose segment changes -/

/-- The segments of the jobs with one job's replaced. -/
def withJob (J : JobRef → Option SegJob) (r : JobRef) (g : Option SegJob) : JobRef → Option SegJob :=
  fun q => if q = r then g else J q

@[simp] theorem withJob_self (J : JobRef → Option SegJob) (r : JobRef) (g : Option SegJob) : withJob J r g r = g := if_pos rfl

theorem withJob_of_ne (J : JobRef → Option SegJob) {q r : JobRef} (h : q ≠ r) (g : Option SegJob) :
    withJob J r g q = J q := if_neg h

theorem withJob_eq_self {k : Option SegJob} (h : J r = k) : withJob J r k = J := by
  funext q
  unfold withJob
  split
  · rename_i e; rw [e, h]
  · rfl

@[simp] theorem withJob_withJob (J : JobRef → Option SegJob) (r : JobRef) (g k : Option SegJob) :
    withJob (withJob J r g) r k = withJob J r k := by
  funext q
  unfold withJob
  split <;> rfl

/-- The count of holders once one job's segment is replaced. -/
theorem holders_withJob (J : JobRef → Option SegJob) (r : JobRef) (g : Option SegJob) (x : Nat) :
    allJobs.countP (holdsPin (withJob J r g) x)
      = (allJobs.erase r).countP (holdsPin J x) + if g.any (fun g => decide (g.extent = x) && decide (g.phase ≠ .waitPin))
          then 1 else 0 := by
  rw [holders_split _ x r, holders_others (fun q hq => withJob_of_ne J hq g)]
  unfold holdsPin
  rw [withJob_self]

end Sys2Proof.Machine
end

section
/-!
SUPPORT. What the law of pins keeps when a job's phase moves on, a job leaves its segment, a pin is released, and a job comes
to a segment (R83, R93, R94, R128, R139).
-/

namespace Sys2Proof.Machine

variable {J : JobRef → Option SegJob} {E E' : Nat → Entry} {O O' : List StoreOp} {r : JobRef} {g : SegJob} {x : Nat}
  {c : ChainRef} {rest : List ChainRef}

/-! ## What a job's phase says of its READs and its grants -/

/-- A job that awaits no READ has none in the store. -/
theorem no_reads (h : PinLaw J E O) (none : ∀ g, J r = some g → g.phase ≠ .reading ∧ g.phase ≠ .waitPlace) :
    O.countP (StoreOp.readsFor r) = 0 := by
  refine List.countP_eq_zero.mpr fun o ho hr => ?_
  cases o <;> simp only [StoreOp.readsFor, decide_eq_true_eq, Bool.false_eq_true] at hr
  obtain ⟨g, hg, -, hp⟩ := h.reads _ r _ (hr ▸ ho)
  exact hp.elim (none g hg).1 (none g hg).2

theorem read_not_mem (h : O.countP (StoreOp.readsFor r) = 0) (x : Nat) (b : Bool) : .segRead x (some r) b ∉ O := fun hm =>
  List.countP_eq_zero.mp h _ hm (decide_eq_true rfl)

theorem not_granted (h : PinLaw J E O) (other : ∀ g, J (.chain c) = some g → g.phase ≠ .pinned) (y : Nat) :
    c ∉ (E y).granted := fun hc => by
  obtain ⟨g, hg, -, hp⟩ := h.granted y c hc
  exact other g hg hp

theorem not_waiting (h : PinLaw J E O) (other : ∀ g, J (.chain c) = some g → g.phase ≠ .waitPin) (y : Nat) :
    c ∉ (E y).pinWait := fun hc => by
  obtain ⟨g, hg, -, hp⟩ := h.waiting y c hc
  exact other g hg hp

/-! ## A phase that moves on -/

/-- A pinned job's phase moves on, where it stays what its READs and its grants say (R83, R128, R139). -/
theorem pinLaw_phase (h : PinLaw J E O) (hg : J r = some g) (was : g.phase ≠ .waitPin) {p : SegPhase} (becomes : p ≠ .waitPin)
    (reads : p = .reading ∨ p = .waitPlace ∨ O.countP (StoreOp.readsFor r) = 0)
    (grants : ∀ c, r = .chain c → c ∉ (E g.extent).granted) :
    PinLaw (withJob J r (some { g with phase := p })) E O where
  stands q k hk := by
    by_cases e : q = r
    · subst e; rw [withJob_self] at hk; cases hk; exact h.stands q g hg
    · rw [withJob_of_ne J e] at hk; exact h.stands q k hk
  counted y := by
    have counted := h.counted y
    rw [holders_split J y r] at counted
    rw [holders_withJob]
    unfold holdsPin at counted ⊢
    rw [hg] at counted
    simpa [was, becomes] using counted
  waiting y d hd := by
    obtain ⟨k, hk, hx, hp⟩ := h.waiting y d hd
    refine ⟨k, ?_, hx, hp⟩
    rw [withJob_of_ne J fun e => ?_]
    · exact hk
    · rw [e, hg] at hk; cases hk; exact was hp
  listed q k hk hp := by
    by_cases e : q = r
    · subst e; rw [withJob_self] at hk; cases hk; exact absurd hp becomes
    · rw [withJob_of_ne J e] at hk; exact h.listed q k hk hp
  held := h.held
  granted y d hd := by
    obtain ⟨k, hk, hx, hp⟩ := h.granted y d hd
    refine ⟨k, ?_, hx, hp⟩
    rw [withJob_of_ne J fun e => ?_]
    · exact hk
    · rw [e, hg] at hk; cases hk; subst hx; exact grants d e.symm hd
  once := h.once
  reads y q b hm := by
    obtain ⟨k, hk, hx, hp⟩ := h.reads y q b hm
    by_cases e : q = r
    · subst e
      rw [hg] at hk; cases hk
      rcases reads with rfl | rfl | none
      · exact ⟨_, withJob_self _ _ _, hx, .inl rfl⟩
      · exact ⟨_, withJob_self _ _ _, hx, .inr rfl⟩
      · exact absurd hm (read_not_mem none y b)
    · exact ⟨k, by rw [withJob_of_ne J e]; exact hk, hx, hp⟩
  oneRead := h.oneRead
  writes := h.writes
  erases := h.erases
  oneAlters := h.oneAlters

/-! ## A job that leaves its segment -/

/-- An entry without a job on its lists. -/
structure Entry.without (e : Entry) (r : JobRef) (e' : Entry) : Prop where
  waits : e'.pinWait = e.pinWait.filter (fun d => decide (JobRef.chain d ≠ r))
  grants : e'.granted = e.granted.filter (fun d => decide (JobRef.chain d ≠ r))
  pins : e'.pins = e.pins
  accepts : ∀ n, e'.accepts n = e.accepts n
  state : e'.state = e.state

theorem without_of_eq (h : PinLaw J E O) (hg : J r = some g) {y : Nat} (hy : y ≠ g.extent) (he : E' y = E y) :
    (E y).without r (E' y) := by
  have off : ∀ d k, J (.chain d) = some k → k.extent = y → decide (JobRef.chain d ≠ r) = true := fun d k hk hx =>
    decide_eq_true fun e => by rw [e, hg] at hk; cases hk; exact hy hx.symm
  rw [he]
  refine ⟨(List.filter_eq_self.mpr fun d hd => ?_).symm, (List.filter_eq_self.mpr fun d hd => ?_).symm, rfl, fun _ => rfl, rfl⟩
  · obtain ⟨k, hk, hx, -⟩ := h.waiting y d hd
    exact off d k hk hx
  · obtain ⟨k, hk, hx, -⟩ := h.granted y d hd
    exact off d k hk hx

/-- A job leaves its segment, its lists and its READs; the pin that it held is left over (R83, R94, R163). -/
theorem pinLaw_drop (h : PinLaw J E O) (hE : ∀ y, (E y).without r (E' y)) (hO : opsWithin O O')
    (gone : O'.countP (StoreOp.readsFor r) = 0) : PinLaw (withJob J r none) E' O' where
  stands q k hk := by
    by_cases e : q = r
    · subst e; rw [withJob_self] at hk; cases hk
    · rw [withJob_of_ne J e] at hk; rw [(hE _).accepts]; exact h.stands q k hk
  counted y := by
    have counted := h.counted y
    rw [holders_split J y r] at counted
    rw [holders_withJob, (hE y).pins]
    simp only [Option.any_none, Bool.false_eq_true, if_false]
    omega
  waiting y d hd := by
    rw [(hE y).waits] at hd
    obtain ⟨hd, hr⟩ := List.mem_filter.mp hd
    rw [withJob_of_ne J (of_decide_eq_true hr)]
    exact h.waiting y d hd
  listed q k hk hp := by
    by_cases e : q = r
    · subst e; rw [withJob_self] at hk; cases hk
    · rw [withJob_of_ne J e] at hk
      obtain ⟨d, rfl, hd⟩ := h.listed q k hk hp
      exact ⟨d, rfl, by rw [(hE _).waits]; exact List.mem_filter.mpr ⟨hd, decide_eq_true e⟩⟩
  held y hn := by
    rw [(hE y).pins]
    exact h.held y fun e => hn (by rw [(hE y).waits, e]; rfl)
  granted y d hd := by
    rw [(hE y).grants] at hd
    obtain ⟨hd, hr⟩ := List.mem_filter.mp hd
    rw [withJob_of_ne J (of_decide_eq_true hr)]
    exact h.granted y d hd
  once y := by
    rw [(hE y).waits, (hE y).grants]
    exact ⟨(h.once y).1.filter _, (h.once y).2.filter _⟩
  reads y q b hm := by
    have other : q ≠ r := fun e => read_not_mem gone y b (e ▸ hm)
    rw [withJob_of_ne J other]
    exact h.reads y q b (mem_of_within hO rfl hm)
  oneRead q := Nat.le_trans (countP_within hO (readsFor_binds q)) (h.oneRead q)
  writes b y hm := by rw [(hE y).state]; exact h.writes b y (mem_of_within hO rfl hm)
  erases y hm := by rw [(hE y).state]; exact h.erases y (mem_of_within hO rfl hm)
  oneAlters y := Nat.le_trans (countP_within hO (alters_binds y)) (h.oneAlters y)

/-- An extent has a pin beyond those of the jobs that stand on it. -/
def sparePin (J : JobRef → Option SegJob) (E : Nat → Entry) (x : Nat) : Prop :=
  allJobs.countP (holdsPin J x) + 1 ≤ (E x).pins

theorem sparePin_of_drop (h : PinLaw J E O) (hg : J r = some g) (hp : g.phase ≠ .waitPin)
    (pins : (E' g.extent).pins = (E g.extent).pins) : sparePin (withJob J r none) E' g.extent := by
  have counted := h.counted g.extent
  rw [holders_split J _ r, if_pos (holdsPin_iff.mpr ⟨g, hg, rfl, hp⟩)] at counted
  unfold sparePin
  rw [holders_withJob, pins]
  simpa using counted

/-! ## A pin released -/

/-- The oldest waiting request is granted the pin released (R93). -/
theorem pinLaw_regrant (h : PinLaw J E O) (spare : sparePin J E x) (waits : (E x).pinWait = c :: rest)
    (hg : J (.chain c) = some g) (hx : E' x = { E x with pinWait := rest, granted := (E x).granted ++ [c] })
    (hE : ∀ y, y ≠ x → E' y = E y) :
    PinLaw (withJob J (.chain c) (some { g with phase := .pinned })) E' O := by
  obtain ⟨k, hk, hgx, wait⟩ := h.waiting x c (by rw [waits]; exact List.mem_cons_self)
  rw [hg] at hk
  cases hk
  have once := h.once x
  rw [waits, List.nodup_cons] at once
  have ungranted : c ∉ (E x).granted := not_granted h (fun k hk => by rw [hg] at hk; cases hk; rw [wait]; decide) x
  have same : ∀ y, (E' y).pins = (E y).pins ∧ (∀ n, (E' y).accepts n = (E y).accepts n) ∧ (E' y).state = (E y).state := by
    intro y
    by_cases e : y = x
    · subst e; rw [hx]; exact ⟨rfl, fun _ => rfl, rfl⟩
    · rw [hE y e]; exact ⟨rfl, fun _ => rfl, rfl⟩
  refine ⟨fun q k hk => ?_, fun y => ?_, fun y d hd => ?_, fun q k hk hp => ?_, fun y hn => ?_, fun y d hd => ?_,
    fun y => ?_, fun y q b hm => ?_, h.oneRead, fun b y hm => by rw [(same y).2.2]; exact h.writes b y hm,
    fun y hm => by rw [(same y).2.2]; exact h.erases y hm, h.oneAlters⟩
  · rw [(same _).2.1]
    by_cases e : q = .chain c
    · subst e; rw [withJob_self] at hk; cases hk; exact h.stands _ g hg
    · rw [withJob_of_ne J e] at hk; exact h.stands q k hk
  · have counted := h.counted y
    rw [holders_split J y (.chain c)] at counted
    rw [holders_withJob, (same y).1]
    by_cases e : y = x
    · subst e
      unfold sparePin at spare
      rw [holders_split J y (.chain c)] at spare
      split <;> omega
    · rw [if_neg (by simp [hgx, Ne.symm e])]
      omega
  · by_cases e : y = x
    · subst e
      rw [hx] at hd
      have ne : d ≠ c := fun e => once.1.1 (e ▸ hd)
      rw [withJob_of_ne J (fun e => ne (by cases e; rfl))]
      exact h.waiting y d (by rw [waits]; exact List.mem_cons_of_mem c hd)
    · rw [hE y e] at hd
      obtain ⟨k, hk, hky, hp⟩ := h.waiting y d hd
      rw [withJob_of_ne J fun e' => e (by rw [e', hg] at hk; cases hk; rw [← hky, hgx])]
      exact ⟨k, hk, hky, hp⟩
  · by_cases e : q = .chain c
    · subst e; rw [withJob_self] at hk; cases hk; cases hp
    · rw [withJob_of_ne J e] at hk
      obtain ⟨d, rfl, hd⟩ := h.listed q k hk hp
      refine ⟨d, rfl, ?_⟩
      by_cases ek : k.extent = x
      · rw [ek, hx]
        rw [ek, waits] at hd
        exact (List.mem_cons.mp hd).resolve_left fun e' => e (by rw [e'])
      · rw [hE _ ek]; exact hd
  · rw [(same y).1]
    by_cases e : y = x
    · subst e; exact h.held y (by rw [waits]; exact List.cons_ne_nil _ _)
    · rw [hE y e] at hn; exact h.held y hn
  · by_cases e : d = c
    · subst e
      refine ⟨_, withJob_self _ _ _, ?_, rfl⟩
      by_contra ne
      rw [hgx] at ne
      rw [hE y (Ne.symm ne)] at hd
      obtain ⟨k, hk, -, hp⟩ := h.granted y d hd
      rw [hg] at hk; cases hk
      rw [wait] at hp; cases hp
    · rw [withJob_of_ne J (fun e' => e (by cases e'; rfl))]
      by_cases ey : y = x
      · subst ey
        rw [hx] at hd
        exact h.granted y d ((List.mem_append.mp hd).resolve_right fun m => e (List.mem_singleton.mp m))
      · rw [hE y ey] at hd; exact h.granted y d hd
  · by_cases e : y = x
    · subst e
      rw [hx]
      exact ⟨once.1.2, List.nodup_append.mpr ⟨once.2, List.nodup_singleton c, fun a ha b hb => by
        rw [List.mem_singleton.mp hb]; exact fun e => ungranted (e ▸ ha)⟩⟩
    · rw [hE y e]; exact h.once y
  · obtain ⟨k, hk, hky, hp⟩ := h.reads y q b hm
    rw [withJob_of_ne J fun e => by
      rw [e, hg] at hk; cases hk
      rw [wait] at hp
      rcases hp with hp | hp <;> cases hp]
    exact ⟨k, hk, hky, hp⟩

/-- With no request waiting the count of pins falls (R93). -/
theorem pinLaw_lower (h : PinLaw J E O) (spare : sparePin J E x) (none : (E x).pinWait = [])
    (hx : E' x = { E x with pins := (E x).pins - 1 }) (hE : ∀ y, y ≠ x → E' y = E y) : PinLaw J E' O := by
  have same : ∀ y, (E' y).pinWait = (E y).pinWait ∧ (E' y).granted = (E y).granted
      ∧ (∀ n, (E' y).accepts n = (E y).accepts n) ∧ (E' y).state = (E y).state := by
    intro y
    by_cases e : y = x
    · subst e; rw [hx]; exact ⟨rfl, rfl, fun _ => rfl, rfl⟩
    · rw [hE y e]; exact ⟨rfl, rfl, fun _ => rfl, rfl⟩
  refine ⟨fun q k hk => ?_, fun y => ?_, fun y d hd => ?_, fun q k hk hp => ?_, fun y hn => ?_, fun y d hd => ?_,
    fun y => ?_, h.reads, h.oneRead, fun b y hm => by rw [(same y).2.2.2]; exact h.writes b y hm,
    fun y hm => by rw [(same y).2.2.2]; exact h.erases y hm, h.oneAlters⟩
  · rw [(same _).2.2.1]; exact h.stands q k hk
  · by_cases e : y = x
    · subst e
      unfold sparePin at spare
      rw [hx]
      exact Nat.le_sub_of_add_le spare
    · rw [hE y e]; exact h.counted y
  · rw [(same y).1] at hd; exact h.waiting y d hd
  · rw [(same _).1]; exact h.listed q k hk hp
  · by_cases e : y = x
    · subst e; rw [(same y).1] at hn; exact absurd none hn
    · rw [hE y e] at hn ⊢; exact h.held y hn
  · rw [(same y).2.1] at hd; exact h.granted y d hd
  · rw [(same y).1, (same y).2.1]; exact h.once y

/-! ## A job that comes to a segment -/

/-- A job without a segment comes to one with a pin of its own, or onto the pin wait list of its entry (R93). -/
theorem pinLaw_come (h : PinLaw J E O) (idle : J r = none) (accepts : (E x).accepts g.serial = true) (hgx : g.extent = x)
    (hx : (g.phase = .pinned ∧ E' x = { E x with pins := (E x).pins + 1 })
      ∨ (g.phase = .waitPin ∧ 0 < (E x).pins ∧ ∃ c, r = .chain c ∧ E' x = { E x with pinWait := (E x).pinWait ++ [c] }))
    (hE : ∀ y, y ≠ x → E' y = E y) : PinLaw (withJob J r (some g)) E' O := by
  have same : ∀ y, (E y).pins ≤ (E' y).pins ∧ (E' y).granted = (E y).granted
      ∧ (∀ n, (E' y).accepts n = (E y).accepts n) ∧ (E' y).state = (E y).state := by
    intro y
    by_cases e : y = x
    · subst e
      rcases hx with ⟨-, e⟩ | ⟨-, -, c, -, e⟩ <;> rw [e]
      · exact ⟨Nat.le_succ _, rfl, fun _ => rfl, rfl⟩
      · exact ⟨Nat.le_refl _, rfl, fun _ => rfl, rfl⟩
    · rw [hE y e]; exact ⟨Nat.le_refl _, rfl, fun _ => rfl, rfl⟩
  have waits : ∀ y d, d ∈ (E' y).pinWait → d ∈ (E y).pinWait ∨ (r = .chain d ∧ y = x ∧ g.phase = .waitPin) := by
    intro y d hd
    by_cases e : y = x
    · subst e
      rcases hx with ⟨-, e⟩ | ⟨hp, -, c, rfl, e⟩ <;> rw [e] at hd
      · exact .inl hd
      · exact (List.mem_append.mp hd).imp id fun m => ⟨by rw [List.mem_singleton.mp m], rfl, hp⟩
    · rw [hE y e] at hd; exact .inl hd
  have stays : ∀ y d, d ∈ (E y).pinWait → d ∈ (E' y).pinWait := by
    intro y d hd
    by_cases e : y = x
    · subst e
      rcases hx with ⟨-, e⟩ | ⟨-, -, c, -, e⟩ <;> rw [e]
      · exact hd
      · exact List.mem_append_left _ hd
    · rw [hE y e]; exact hd
  have other : ∀ {q k}, J q = some k → q ≠ r := fun hk e => by rw [e, idle] at hk; cases hk
  refine ⟨fun q k hk => ?_, fun y => ?_, fun y d hd => ?_, fun q k hk hp => ?_, fun y hn => ?_, fun y d hd => ?_,
    fun y => ?_, fun y q b hm => ?_, h.oneRead, fun b y hm => by rw [(same y).2.2.2]; exact h.writes b y hm,
    fun y hm => by rw [(same y).2.2.2]; exact h.erases y hm, h.oneAlters⟩
  · rw [(same _).2.2.1]
    by_cases e : q = r
    · subst e; rw [withJob_self] at hk; cases hk; rw [hgx]; exact accepts
    · rw [withJob_of_ne J e] at hk; exact h.stands q k hk
  · have counted := h.counted y
    rw [holders_split J y r] at counted
    rw [holders_withJob]
    by_cases e : y = x
    · subst e
      rcases hx with ⟨-, e⟩ | ⟨hp, -, c, -, e⟩ <;> rw [e]
      · show _ ≤ (E y).pins + 1
        split <;> omega
      · rw [if_neg (by simp [hp])]
        show _ ≤ (E y).pins
        omega
    · rw [if_neg (by simp [hgx, Ne.symm e]), hE y e]
      omega
  · rcases waits y d hd with hd | ⟨rfl, rfl, hp⟩
    · obtain ⟨k, hk, hky, hp⟩ := h.waiting y d hd
      exact ⟨k, by rw [withJob_of_ne J (other hk)]; exact hk, hky, hp⟩
    · exact ⟨g, withJob_self _ _ _, hgx, hp⟩
  · by_cases e : q = r
    · subst e
      rw [withJob_self] at hk; cases hk
      rcases hx with ⟨hq, -⟩ | ⟨-, -, c, hr, e⟩
      · rw [hq] at hp; cases hp
      · exact ⟨c, hr, by rw [hgx, e]; exact List.mem_append_right _ (List.mem_singleton_self c)⟩
    · rw [withJob_of_ne J e] at hk
      obtain ⟨d, hq, hd⟩ := h.listed q k hk hp
      exact ⟨d, hq, stays _ d hd⟩
  · by_cases e : y = x
    · subst e
      rcases hx with ⟨-, e⟩ | ⟨-, pinned, c, -, e⟩ <;> rw [e]
      · exact Nat.succ_pos _
      · exact pinned
    · rw [hE y e] at hn ⊢; exact h.held y hn
  · rw [(same y).2.1] at hd
    obtain ⟨k, hk, hky, hp⟩ := h.granted y d hd
    exact ⟨k, by rw [withJob_of_ne J (other hk)]; exact hk, hky, hp⟩
  · rw [(same y).2.1]
    refine ⟨?_, (h.once y).2⟩
    by_cases e : y = x
    · subst e
      rcases hx with ⟨-, e⟩ | ⟨-, -, c, rfl, e⟩ <;> rw [e]
      · exact (h.once y).1
      · have new := not_waiting (c := c) h (fun k hk => by rw [idle] at hk; cases hk) y
        exact List.nodup_append.mpr ⟨(h.once y).1, List.nodup_singleton c, fun a ha b hb => by
          rw [List.mem_singleton.mp hb]; exact fun e => new (e ▸ ha)⟩
    · rw [hE y e]; exact (h.once y).1
  · obtain ⟨k, hk, hky, hp⟩ := h.reads y q b hm
    exact ⟨k, by rw [withJob_of_ne J (other hk)]; exact hk, hky, hp⟩

end Sys2Proof.Machine
end

section
/-!
SUPPORT. The operations of the store after a queue is written, the law of pins and hold counts of a state, and what leaves a
state's pins as they are (R76, R92, R93).
-/

namespace Sys2Proof.Machine

variable {s t u : State}

/-! ## The operations of the store -/

theorem flatten_set_perm {α : Type} (l : List (List α)) (i : Nat) (h : i < l.length) (a : List α) :
    ((l.set i a).flatten ++ l[i]).Perm (a ++ l.flatten) := by
  induction l generalizing i with
  | nil => exact absurd h (Nat.not_lt_zero i)
  | cons b l ih =>
    cases i with
    | zero =>
      simp only [List.set_cons_zero, List.flatten_cons, List.getElem_cons_zero, List.append_assoc]
      exact List.Perm.append_left a List.perm_append_comm
    | succ i =>
      simp only [List.set_cons_succ, List.flatten_cons, List.getElem_cons_succ, List.append_assoc]
      refine (List.Perm.append_left b (ih i (Nat.lt_of_succ_lt_succ h))).trans ?_
      rw [← List.append_assoc, ← List.append_assoc]
      exact List.Perm.append_right _ List.perm_append_comm

/-- A queue replaced exchanges its operations for the new ones. -/
theorem storeOps_setQueue (s : State) (ch : Channel) (q : List StoreOp) :
    ((s.setQueue ch q).storeOps ++ s.queue ch).Perm (q ++ s.storeOps) := by
  unfold State.storeOps State.setQueue State.queue vset
  simp only [State.setStore_store, Vector.toList_set, List.append_assoc]
  have set := flatten_set_perm s.store.queues.toList ch.val (by simp) q
  rw [show s.store.queues[ch.val] = s.store.queues.toList[ch.val]'(by simp) by simp, ← List.append_assoc q]
  refine (List.Perm.append_left _ List.perm_append_comm).trans ?_
  rw [← List.append_assoc]
  exact List.Perm.append_right _ set

theorem storeOps_joined (s : State) (ch : Channel) (op : StoreOp) :
    (s.setQueue ch (s.queue ch ++ [op])).storeOps.Perm (op :: s.storeOps) := by
  refine (List.perm_append_right_iff (s.queue ch)).mp ((storeOps_setQueue s ch _).trans ?_)
  rw [List.append_assoc]
  refine List.perm_append_comm.trans ?_
  rw [List.append_assoc]
  exact List.Perm.refl _

/-- An operation requested stands with the others (R76). -/
theorem storeOps_request (s : State) (ch : Channel) (op : StoreOp) : (s.request ch op).storeOps.Perm (op :: s.storeOps) := by
  rcases request_cases s ch op with ⟨-, e⟩ | ⟨-, e⟩
  · rw [e]; exact storeOps_joined s ch op
  · rw [e]
    unfold State.storeOps
    simp only [State.setStore_store, List.filterMap_append, ← List.append_assoc]
    exact List.perm_append_comm

/-- The operation in flight is one of the others and itself. -/
theorem storeOps_popQueue {ch : Channel} {op : StoreOp} (flight : s.inFlight ch = some op) :
    s.storeOps.Perm (op :: (s.popQueue ch).storeOps) := by
  obtain ⟨rest, hq⟩ := List.head?_eq_some_iff.mp flight
  have set := storeOps_setQueue s ch (s.queue ch).tail
  rw [hq, List.tail_cons] at set
  refine (List.perm_append_left_iff rest).mp (set.symm.trans ?_)
  unfold State.popQueue
  rw [hq, List.tail_cons]
  exact List.perm_append_comm.trans (by rw [List.cons_append]; exact List.perm_middle.symm)

theorem storeOps_of_store (h : t.store = s.store) : t.storeOps = s.storeOps := by
  unfold State.storeOps
  rw [h]

theorem opsWithin_popQueue (s : State) (ch : Channel) : opsWithin s.storeOps (s.popQueue ch).storeOps := by
  cases flight : s.inFlight ch with
  | none =>
    have empty : s.queue ch = [] := List.head?_eq_none_iff.mp flight
    have set := storeOps_setQueue s ch []
    rw [empty, List.append_nil, List.nil_append] at set
    unfold State.popQueue
    rw [empty]
    exact opsWithin_of_perm set
  | some op =>
    exact opsWithin_trans (opsWithin_of_perm (storeOps_popQueue flight).symm)
      (opsWithin_of_sublist (List.sublist_cons_self op _))

/-- A request that the law of pins does not read. -/
theorem opsWithin_request (s : State) (ch : Channel) {op : StoreOp} (h : op.binds = false) :
    opsWithin s.storeOps (s.request ch op).storeOps :=
  opsWithin_trans (opsWithin_cons h _) (opsWithin_of_perm (storeOps_request s ch op))

/-! ## The hold counts, entry by entry (R92) -/

/-- The catalogue in its form: rising numbers, and none of a journal extent (R75, R87). -/
def State.catalogueForm (s : State) : Prop := Table.rising s.catalogue = true ∧ ∀ p ∈ s.catalogue, reservedExtents ≤ p.1

/-- The hold count of every entry that takes part in the counting is the number of active holds that cover it. -/
def State.holdsCounted (s : State) : Prop :=
  Table.rising s.settings.holds = true
    ∧ ∀ x v, (s.entry x).counted = true → (s.entry x).seg = some v → (s.entry x).holds = s.coverCount v

theorem entry_of_mem (h : s.catalogueForm) {p : Nat × Entry} (hp : p ∈ s.catalogue) : s.entry p.1 = p.2 := by
  rw [entry_of_table (h.2 p hp), tget_of_mem h.1 hp]
  rfl

theorem mem_of_seg {x : Nat} {v : SegFields} (h : (s.entry x).seg = some v) : (x, s.entry x) ∈ s.catalogue := by
  have table := entry_of_table (s := s) (reserved_le_of_seg h)
  rw [table] at h ⊢
  cases he : tget s.catalogue x with
  | none => rw [he] at h; cases h
  | some e => exact mem_of_tget he

theorem holdsExact_iff (h : s.catalogueForm) : s.holdsExact ↔ s.holdsCounted := by
  constructor
  · exact fun ⟨rising, exact⟩ => ⟨rising, fun x v counted hv => exact (x, s.entry x) (mem_of_seg hv) counted v hv⟩
  · refine fun ⟨rising, exact⟩ => ⟨rising, fun p hp counted v hv => ?_⟩
    rw [← entry_of_mem h hp] at counted hv ⊢
    exact exact p.1 v counted hv

/-! ## The law of pins and hold counts of a state -/

/-- The law of pins over given segments of the jobs, with the catalogue's form, and the law of hold counts where `H`. -/
structure State.pinsKept (H : Prop) (J : JobRef → Option SegJob) (s : State) : Prop where
  law : PinLaw J s.entry s.storeOps
  idle : ∀ c, (s.chain c).state = .idle → (s.chain c).desc = none
  form : s.catalogueForm
  holds : H → s.holdsCounted

/-- The law of pins over the jobs as they stand. -/
def State.pinsStand (H : Prop) (s : State) : Prop := s.pinsKept H s.segJob

variable {H : Prop} {J : JobRef → Option SegJob}

theorem pinsStand_iff (h : s.catalogueForm) : s.pinsStand H ↔ s.pinsLawful ∧ (H → s.holdsExact) := by
  rw [holdsExact_iff h, pinsLawful_iff]
  exact ⟨fun k => ⟨⟨k.law, k.idle⟩, k.holds⟩, fun k => ⟨k.1.1, k.1.2, h, k.2⟩⟩

/-! ## What leaves the pins -/

/-- An entry as the laws of pins and hold counts see it. -/
def Entry.pinView (e : Entry) : Entry := { e with sealJournal := none, verify := none, reports := 0, retireJournal := none }

theorem pinView_pins {e e' : Entry} (h : e'.pinView = e.pinView) : e'.pins = e.pins := (congrArg Entry.pins h :)
theorem pinView_state {e e' : Entry} (h : e'.pinView = e.pinView) : e'.state = e.state := (congrArg Entry.state h :)
theorem pinView_seg {e e' : Entry} (h : e'.pinView = e.pinView) : e'.seg = e.seg := (congrArg Entry.seg h :)
theorem pinView_holds {e e' : Entry} (h : e'.pinView = e.pinView) : e'.holds = e.holds := (congrArg Entry.holds h :)
theorem pinView_accepts {e e' : Entry} (h : e'.pinView = e.pinView) (n : Nat) : e'.accepts n = e.accepts n :=
  (congrArg (fun e : Entry => e.accepts n) h :)
theorem pinView_counted {e e' : Entry} (h : e'.pinView = e.pinView) : e'.counted = e.counted := (congrArg Entry.counted h :)
theorem pinView_lists {e e' : Entry} (h : e'.pinView = e.pinView) : e'.pinWait = e.pinWait ∧ e'.granted = e.granted :=
  ⟨(congrArg Entry.pinWait h :), (congrArg Entry.granted h :)⟩

theorem entriesFollow_of_view {E E' : Nat → Entry} {O : List StoreOp} {x : Nat} (h : (E' x).pinView = (E x).pinView) :
    EntriesFollow J O E E' x :=
  ⟨pinView_lists h, .inr ⟨Nat.le_of_eq (pinView_pins h).symm, fun n hn => (pinView_accepts h n).trans hn⟩,
    .inl (pinView_state h)⟩

/-- The pins, the hold counts, the operations that the law reads and the IDLE chains stand as they did. -/
structure State.calm (s t : State) : Prop where
  entries : ∀ x, (t.entry x).pinView = (s.entry x).pinView
  ops : opsWithin s.storeOps t.storeOps
  idle : (∀ c, (s.chain c).state = .idle → (s.chain c).desc = none) → ∀ c, (t.chain c).state = .idle → (t.chain c).desc = none
  form : s.catalogueForm → t.catalogueForm
  holds : t.settings.holds = s.settings.holds

/-- And so does every job with its segment. -/
structure State.quiet (s t : State) : Prop extends s.calm t where
  jobs : t.segJob = s.segJob

theorem calm_refl (s : State) : s.calm s := ⟨fun _ => rfl, opsWithin_refl _, id, id, rfl⟩

theorem calm_trans (h : s.calm t) (k : t.calm u) : s.calm u :=
  ⟨fun x => (k.entries x).trans (h.entries x), opsWithin_trans h.ops k.ops, fun i => k.idle (h.idle i),
    fun f => k.form (h.form f), k.holds.trans h.holds⟩

theorem quiet_refl (s : State) : s.quiet s := ⟨calm_refl s, rfl⟩

theorem quiet_trans (h : s.quiet t) (k : t.quiet u) : s.quiet u := ⟨calm_trans h.1 k.1, k.jobs.trans h.jobs⟩

theorem quiet_ite {c : Prop} [Decidable c] (h : s.quiet t) (k : s.quiet u) : s.quiet (if c then t else u) := by
  split
  · exact h
  · exact k

theorem quiet_foldl {α : Type} {f : State → α → State} (h : ∀ (s : State) a, s.quiet (f s a)) (l : List α) (s : State) :
    s.quiet (l.foldl f s) := by
  induction l generalizing s with
  | nil => exact quiet_refl s
  | cons a l ih => exact quiet_trans (h s a) (ih _)

theorem coverCount_of_holds (h : t.settings.holds = s.settings.holds) (v : SegFields) : t.coverCount v = s.coverCount v := by
  unfold State.coverCount
  rw [h]

theorem kept_of_calm (h : s.pinsKept H J) (k : s.calm t) : t.pinsKept H J where
  law := pinLaw_ops (pinLaw_entries h.law fun x => entriesFollow_of_view (k.entries x)) k.ops
  idle := k.idle h.idle
  form := k.form h.form
  holds hH := by
    obtain ⟨rising, exact⟩ := h.holds hH
    refine ⟨by rw [k.holds]; exact rising, fun x v counted hv => ?_⟩
    rw [pinView_counted (k.entries x)] at counted
    rw [pinView_seg (k.entries x)] at hv
    rw [pinView_holds (k.entries x), coverCount_of_holds k.holds]
    exact exact x v counted hv

theorem stand_of_quiet (h : s.pinsStand H) (k : s.quiet t) : t.pinsStand H := by
  unfold State.pinsStand
  rw [k.jobs]
  exact kept_of_calm h k.1

/-- A job without a segment. -/
def State.free (s : State) (c : ChainRef) : Prop := s.segJob (.chain c) = none

theorem free_of_quiet {c : ChainRef} (h : s.free c) (k : s.quiet t) : t.free c := (congrFun k.jobs _).trans h

/-- The law stands where a job without a segment is left out. -/
theorem kept_of_stand {r : JobRef} (h : s.pinsStand H) (idle : s.segJob r = none) : s.pinsKept H (withJob s.segJob r none) := by
  rw [withJob_eq_self idle]
  exact h

/-! ## Quiet operations by their frames -/

theorem segJob_of_parts (hj : ∀ c, (t.job c).bind Job.seg = (s.job c).bind Job.seg) (ha : t.audit.scrub = s.audit.scrub) :
    t.segJob = s.segJob := by
  funext r
  cases r with
  | chain c => exact hj c
  | scrub => exact ha

/-- The parts that the law of pins does not read. -/
def pinlessParts : List Part :=
  [.pending, .out, .power, .straps, .flash, .streams, .files, .recons, .stager, .clock, .retention, .scanner, .journal,
    .arbiter, .boot]

/-- An operation on those parts, and on the store, the ports and Settings Memory as the law leaves them. -/
theorem calm_of_parts {l : List Part} (hf : s.sameBut l t)
    (hl : l.all (fun p => (Part.store :: .ports :: .settings :: .audit :: pinlessParts).contains p) = true)
    (ho : opsWithin s.storeOps t.storeOps)
    (hi : (∀ c, (s.chain c).state = .idle → (s.chain c).desc = none) → ∀ c, (t.chain c).state = .idle → (t.chain c).desc = none)
    (hh : t.settings.holds = s.settings.holds) : s.calm t := by
  have cat := (sameBut_mono hf hl).catalogue (by decide)
  refine ⟨fun x => by rw [entry_of_catalogue cat], ho, hi, fun f => ?_, hh⟩
  unfold State.catalogueForm
  rw [cat]
  exact f

theorem idle_of_chains (h : ∀ c, t.chain c = s.chain c) (i : ∀ c, (s.chain c).state = .idle → (s.chain c).desc = none)
    (c : ChainRef) : (t.chain c).state = .idle → (t.chain c).desc = none := by rw [h c]; exact i c

/-- An operation on those parts, and on the ports without a change to a chain. -/
theorem quiet_of_chains {l : List Part} (hf : s.sameBut l t)
    (hl : l.all (fun p => (Part.ports :: pinlessParts).contains p) = true) (hc : ∀ c, t.chain c = s.chain c) : s.quiet t := by
  have hq := sameBut_mono hf hl
  exact ⟨calm_of_parts hq (by decide) (by rw [storeOps_of_store (hq.store (by decide))]; exact opsWithin_refl _)
      (idle_of_chains hc) (by rw [hq.settings (by decide)]),
    segJob_of_parts (fun c => by rw [job_of_chain (hc c)]) (by rw [hq.audit (by decide)])⟩

theorem quiet_of_frame {l : List Part} (hf : s.sameBut l t) (hl : l.all (fun p => pinlessParts.contains p) = true) :
    s.quiet t := by
  have hq := sameBut_mono hf hl
  exact quiet_of_chains hq (by decide) (chain_of_ports (hq.ports (by decide)))

/-- An operation on the store and on those parts, where the operations that the law reads stay within what they were. -/
theorem quiet_of_store {l : List Part} (hf : s.sameBut l t)
    (hl : l.all (fun p => (Part.store :: pinlessParts).contains p) = true) (ho : opsWithin s.storeOps t.storeOps) :
    s.quiet t := by
  have hq := sameBut_mono hf hl
  have chains := chain_of_ports (hq.ports (by decide))
  exact ⟨calm_of_parts hq (by decide) ho (idle_of_chains chains) (by rw [hq.settings (by decide)]),
    segJob_of_parts (fun c => by rw [job_of_chain (chains c)]) (by rw [hq.audit (by decide)])⟩

theorem quiet_setSettings {v : Settings} (hv : v.holds = s.settings.holds) : s.quiet (s.setSettings v) :=
  ⟨⟨fun _ => rfl, opsWithin_refl _, id, id, hv⟩, rfl⟩

theorem quiet_setAudit {v : Audit} (hv : v.scrub = s.audit.scrub) : s.quiet (s.setAudit v) :=
  ⟨⟨fun _ => rfl, opsWithin_refl _, id, id, rfl⟩, segJob_of_parts (fun _ => rfl) hv⟩

/-- A chain changed without a change to its segment, and IDLE only without a descriptor. -/
theorem quiet_modChain {c : ChainRef} {f : Chain → Chain}
    (hf : ((f (s.chain c)).desc.bind Desc.job).bind Job.seg = (s.job c).bind Job.seg)
    (hi : ((s.chain c).state = .idle → (s.chain c).desc = none) → (f (s.chain c)).state = .idle → (f (s.chain c)).desc = none) :
    s.quiet (s.modChain c f) := by
  refine ⟨calm_of_parts (modChain_frame s c f) (by decide) (opsWithin_refl _) (fun i d => ?_) rfl,
    segJob_of_parts (fun d => ?_) rfl⟩
  · rw [chain_modChain]
    split
    · exact hi (i c)
    · exact i d
  · unfold State.job
    rw [chain_modChain]
    split
    · rename_i e; subst e; exact hf
    · rfl

/-- A port changed, but none of its chains. -/
theorem quiet_modPort (s : State) (p : PortId) {f : Port → Port} (hf : (f (s.port p)).chains = (s.port p).chains) :
    s.quiet (s.modPort p f) :=
  quiet_of_chains (modPort_frame s p f) (by decide) fun c => chain_modPort_of_chains s p f hf c

theorem quiet_setChainState {c : ChainRef} {st : ChainState} (h : st ≠ .idle) : s.quiet (s.setChainState c st) :=
  quiet_modChain rfl fun _ e => absurd e h

/-- A job set that stands on the segment of the one before. -/
theorem quiet_setJob {c : ChainRef} {j : Job} (h : j.seg = s.segJob (.chain c)) : s.quiet (s.setJob c j) := by
  refine quiet_modChain ?_ fun i e => ?_
  · change j.seg = (s.job c).bind Job.seg at h
    unfold State.job at h ⊢
    dsimp only
    cases hd : (s.chain c).desc with
    | none => rfl
    | some d => rw [hd] at h; exact h
  · show (s.chain c).desc.map _ = none
    rw [i e]
    rfl

/-- A job without a segment takes the place of another without one. -/
theorem quiet_setJob_free {c : ChainRef} {j : Job} (hs : s.free c) (hj : j.seg = none) : s.quiet (s.setJob c j) :=
  quiet_setJob (hj.trans hs.symm)

end Sys2Proof.Machine
end

section
/-!
SUPPORT. What leaves the pins: notices, appends, completions of jobs without a segment, sealing and closing, the policy, and
the taking of a record.
-/

namespace Sys2Proof.Machine

variable {b s : State} {c : ChainRef}

theorem frame_quiet {t : State} {l : List Part} (h : b.quiet s) (hf : s.sameBut l t)
    (hl : l.all (fun p => pinlessParts.contains p) = true) : b.quiet t := quiet_trans h (quiet_of_frame hf hl)

/-! ## Notices, entries and the Journal -/

theorem emit_quiet (h : b.quiet s) (o : Output) : b.quiet (s.emit o) := frame_quiet h (emit_frame s o) (by decide)

theorem notice_quiet (h : b.quiet s) (p : PortId) (k : NoticeKind) (o : NoticeObject) : b.quiet (s.notice p k o) :=
  quiet_trans h (quiet_of_chains (notice_frame s p k o) (by decide) (chain_notice s p k o))

theorem noticeAll_quiet (h : b.quiet s) (k : NoticeKind) (o : NoticeObject) : b.quiet (s.noticeAll k o) :=
  quiet_trans h (quiet_of_chains (noticeAll_frame s k o) (by decide) (chain_noticeAll s k o))

theorem decideLow_quiet (h : b.quiet s) : b.quiet s.decideLow :=
  quiet_trans h (quiet_of_chains (decideLow_frame s) (by decide) (decideLow_chain s))

theorem setJournal_quiet (h : b.quiet s) (v : Journal) : b.quiet (s.setJournal v) :=
  frame_quiet h (setJournal_frame s v) (by decide)

theorem modFile_quiet (h : b.quiet s) (k : Nat) (f : FileEntry → FileEntry) : b.quiet (s.modFile k f) :=
  frame_quiet h (modFile_frame s k f) (by decide)

theorem modStream_quiet (h : b.quiet s) (k : Nat) (f : Stream → Stream) : b.quiet (s.modStream k f) :=
  frame_quiet h (modStream_frame s k f) (by decide)

theorem modPort_quiet (h : b.quiet s) (p : PortId) {f : Port → Port} (hf : (f (s.port p)).chains = (s.port p).chains) :
    b.quiet (s.modPort p f) := quiet_trans h (quiet_modPort s p hf)

/-- A catalogue in its form keeps it when an entry is replaced. -/
theorem catalogueForm_setEntry (h : s.catalogueForm) (x : Nat) (e : Entry) : (s.setEntry x e).catalogueForm := by
  refine ⟨rising_setEntry h.1 x e, ?_⟩
  unfold State.setEntry
  split
  · exact h.2
  · rename_i hx
    split
    · exact fun p hp => h.2 p (mem_of_mem_tdel hp)
    · exact fun p hp => (mem_tput hp).elim (fun e => e ▸ Nat.not_lt.mp hx) (h.2 p)

/-- An entry changed in what the laws of pins and hold counts do not see. -/
theorem modEntry_quiet (h : b.quiet s) (x : Nat) {f : Entry → Entry} (hf : ∀ e : Entry, (f e).pinView = e.pinView) :
    b.quiet (s.modEntry x f) := by
  have frame := modEntry_frame s x f
  have chains := chain_of_ports (frame.ports (by decide))
  refine quiet_trans h ⟨⟨fun y => ?_, ?_, idle_of_chains chains, fun k => catalogueForm_setEntry k x _,
    by rw [frame.settings (by decide)]⟩, segJob_of_parts (fun c => by rw [job_of_chain (chains c)])
      (by rw [frame.audit (by decide)])⟩
  · rcases Nat.lt_or_ge x reservedExtents with hx | hx
    · unfold State.modEntry State.setEntry
      rw [if_pos hx]
    · rw [entry_modEntry s x y f hx]
      split
      · rename_i e; rw [e]; exact hf _
      · rfl
  · rw [storeOps_of_store (frame.store (by decide))]
    exact opsWithin_refl _

/-! ## Page WRITEs and appends -/

/-- A request that the law of pins does not read. -/
theorem request_quiet (h : b.quiet s) (ch : Channel) {op : StoreOp} (ho : op.binds = false) : b.quiet (s.request ch op) :=
  quiet_trans h (quiet_of_store (request_frame s ch op) (by decide) (opsWithin_request s ch ho))

theorem popQueue_quiet (h : b.quiet s) (ch : Channel) : b.quiet (s.popQueue ch) :=
  quiet_trans h (quiet_of_store (popQueue_frame s ch) (by decide) (opsWithin_popQueue s ch))

theorem startPageWrite_quiet (h : b.quiet s) : b.quiet s.startPageWrite := by
  unfold State.startPageWrite
  split
  · exact quiet_trans h (quiet_ite (request_quiet (setJournal_quiet (quiet_refl s) _) 0 rfl) (quiet_refl s))
  · exact h

theorem pumpPages_quiet (n : Nat) (h : b.quiet s) : b.quiet (State.pumpPages n s) := by
  induction n generalizing s with
  | zero => exact h
  | succ n ih =>
    unfold State.pumpPages
    split
    · split
      · exact ih (startPageWrite_quiet (setJournal_quiet h _))
      · exact h
    · split
      · exact ih (setJournal_quiet h _)
      · exact h

theorem appendRaw_quiet (h : b.quiet s) (body : JBody) : b.quiet (s.appendRaw body) := by
  unfold State.appendRaw
  dsimp only
  refine pumpPages_quiet 6 ?_
  have numbered := setJournal_quiet h { s.journal with next := s.journal.next + 1 }
  split
  · split
    · exact setJournal_quiet numbered _
    · exact setJournal_quiet numbered _
  · exact setJournal_quiet numbered _

theorem append_quiet (h : b.quiet s) (body : JBody) : b.quiet (s.append body) := decideLow_quiet (appendRaw_quiet h body)

theorem reserveWait_quiet (h : b.quiet s) : b.quiet s.reserveWait := frame_quiet h (reserveWait_frame s) (by decide)

theorem nextAppend_quiet (h : b.quiet s) : b.quiet s.nextAppend := decideLow_quiet (reserveWait_quiet h)

theorem joinAppend_quiet (h : b.quiet s) (r : AppendReq) : b.quiet (s.joinAppend r) :=
  decideLow_quiet (reserveWait_quiet (setJournal_quiet h _))

theorem leaveAppend_quiet (h : b.quiet s) (c : ChainRef) : b.quiet (s.leaveAppend c) := by
  unfold State.leaveAppend
  dsimp only
  split
  · exact h
  · exact decideLow_quiet (reserveWait_quiet (setJournal_quiet h _))

/-! ## Chains that end -/

/-- A chain's job is over, and nothing else of the pins changes. -/
structure State.endsJob (s : State) (c : ChainRef) (t : State) : Prop extends s.calm t where
  jobs : t.segJob = withJob s.segJob (.chain c) none

theorem endsJob_of_chains {t : State} (hf : s.sameBut [.ports, .files, .out] t) (others : ∀ d, d ≠ c → t.chain d = s.chain d)
    (own : (t.chain c).desc = none) : s.endsJob c t := by
  refine ⟨calm_of_parts hf (by decide) (by rw [storeOps_of_store (hf.store (by decide))]; exact opsWithin_refl _)
    (fun i d => ?_) (by rw [hf.settings (by decide)]), ?_⟩
  · by_cases e : d = c
    · rw [e, own]; exact fun _ => rfl
    · rw [others d e]; exact i d
  · funext r
    cases r with
    | scrub => exact congrArg Audit.scrub (hf.audit (by decide))
    | chain d =>
      by_cases e : d = c
      · subst e
        rw [withJob_self]
        show ((t.chain d).desc.bind Desc.job).bind Job.seg = none
        rw [own]
        rfl
      · rw [withJob_of_ne _ fun e' => e (by cases e'; rfl)]
        exact congrArg (Option.bind · Job.seg) (job_of_chain (others d e))

theorem quiet_of_ends {t : State} (k : s.endsJob c t) (hs : s.free c) : s.quiet t :=
  ⟨k.1, k.jobs.trans (withJob_eq_self hs)⟩

/-- The law stands again once a job that was left out has ended. -/
theorem stand_of_ends {H : Prop} {t : State} (h : s.pinsKept H (withJob s.segJob (.chain c) none)) (k : s.endsJob c t) :
    t.pinsStand H := by
  unfold State.pinsStand
  rw [k.jobs]
  exact kept_of_calm h k.1

theorem free_of_desc (h : (s.chain c).desc = none) : s.free c := by
  show ((s.chain c).desc.bind Desc.job).bind Job.seg = none
  rw [h]
  rfl

theorem complete_ends (s : State) (c : ChainRef) (w : Completion) : s.endsJob c (s.complete c w) := by
  cases hd : (s.chain c).desc with
  | none =>
    have same : s.complete c w = s := by unfold State.complete; rw [hd]
    rw [same]
    exact ⟨calm_refl s, (withJob_eq_self (free_of_desc hd)).symm⟩
  | some d =>
    have chains := complete_chain hd w
    exact endsJob_of_chains (sameBut_mono (complete_frame s c w) (by decide)) chains.1 chains.2.2.1

theorem idleChain_ends (s : State) (c : ChainRef) : s.endsJob c (s.idleChain c) :=
  endsJob_of_chains (sameBut_mono (idleChain_frame s c) (by decide)) (fun d e => by rw [chain_idleChain, if_neg e])
    (by rw [chain_idleChain, if_pos rfl])

/-- A chain stopped by a port reset. -/
theorem stopped_ends (s : State) (c : ChainRef) :
    s.endsJob c (s.modChain c (fun h => { h with state := .idle, desc := none })) :=
  endsJob_of_chains (sameBut_mono (modChain_frame s c _) (by decide)) (fun d e => by rw [chain_modChain, if_neg e])
    (by rw [chain_modChain, if_pos rfl])

theorem complete_quiet (hb : b.free c) (h : b.quiet s) (w : Completion) : b.quiet (s.complete c w) :=
  quiet_trans h (quiet_of_ends (complete_ends s c w) (free_of_quiet hb h))

theorem idleChain_quiet (hb : b.free c) (h : b.quiet s) : b.quiet (s.idleChain c) :=
  quiet_trans h (quiet_of_ends (idleChain_ends s c) (free_of_quiet hb h))

theorem settleDrain_quiet (h : b.quiet s) (p : PortId) : b.quiet (s.settleDrain p) :=
  quiet_trans h (quiet_of_chains (settleDrain_frame s p) (by decide) (chain_settleDrain s p))

theorem setJob_quiet (hb : b.free c) (h : b.quiet s) {j : Job} (hj : j.seg = none) : b.quiet (s.setJob c j) :=
  quiet_trans h (quiet_setJob_free (free_of_quiet hb h) hj)

theorem setChainState_quiet (h : b.quiet s) (c : ChainRef) {st : ChainState} (hs : st ≠ .idle) :
    b.quiet (s.setChainState c st) := quiet_trans h (quiet_setChainState hs)

theorem waitForLane_quiet (h : b.quiet s) (c : ChainRef) : b.quiet (s.waitForLane c) := by
  unfold State.waitForLane
  dsimp only
  refine setChainState_quiet (frame_quiet ?_ (setArbiter_frame _ _) (by decide)) c (by decide)
  split
  · exact modPort_quiet h _ rfl
  · exact h

/-! ## Feeds that end -/

theorem free_of_job {j : Job} (h : s.job c = some j) (hj : j.seg = none) : s.free c := by
  show (s.job c).bind Job.seg = none
  rw [h]
  exact hj

theorem free_of_feed {f : Feed} (h : s.feed c = some f) : s.free c := free_of_job (feed_eq_some_iff.mp h) rfl

theorem leaveFeed_quiet (h : b.quiet s) (c : ChainRef) : b.quiet (s.leaveFeed c) := by
  unfold State.leaveFeed
  dsimp only
  refine leaveAppend_quiet (frame_quiet ?_ (setStager_frame _ _) (by decide)) c
  exact frame_quiet h (sameBut_trans (freeLane_frame s _) (leaveArbiter_frame _ c)) (by decide)

theorem endFeed_quiet (h : b.quiet s) (c : ChainRef) (st : Status) (k : Bool) : b.quiet (s.endFeed c st k) := by
  unfold State.endFeed
  split
  · rename_i hf
    exact quiet_trans h (complete_quiet (free_of_feed hf) (leaveFeed_quiet (quiet_refl s) c) _)
  · exact h

theorem endFeedOf_quiet (h : b.quiet s) (k : Nat) (st : Status) : b.quiet (s.endFeedOf k st) := by
  unfold State.endFeedOf
  split
  · exact endFeed_quiet h _ _ _
  · exact h

/-! ## Sealing, closing and appends with an effect -/

theorem setBuf_quiet (h : b.quiet s) (k : Nat) (v : Staging) : b.quiet (s.setBuf k v) :=
  frame_quiet h (setBuf_frame s k v) (by decide)

/-- Seals on the place wait list are no operations of the store. -/
theorem sealPlace_ops (g : Store) : g.sealPlace.queues = g.queues
    ∧ g.sealPlace.placeWait.filterMap (fun q => match q with | .op _ o => some o | .seal => none)
      = g.placeWait.filterMap (fun q => match q with | .op _ o => some o | .seal => none) := by
  unfold Store.sealPlace
  split
  · exact ⟨rfl, by rw [List.filterMap_append]; exact List.append_nil _⟩
  · exact ⟨rfl, rfl⟩

theorem storeOps_sealPlace (s : State) : (s.setStore s.store.sealPlace).storeOps = s.storeOps := by
  obtain ⟨queues, wait⟩ := sealPlace_ops s.store
  unfold State.storeOps
  rw [State.setStore_store, queues]
  exact congrArg _ wait

theorem joinSeals_quiet (h : b.quiet s) (k : Nat) : b.quiet (s.joinSeals k) := by
  refine quiet_trans h (quiet_of_store (joinSeals_frame s k) (by decide) ?_)
  rw [show (s.joinSeals k).storeOps = s.storeOps from storeOps_sealPlace s]
  exact opsWithin_refl _

theorem setSettings_quiet (h : b.quiet s) {v : Settings} (hv : v.holds = s.settings.holds) : b.quiet (s.setSettings v) :=
  quiet_trans h (quiet_setSettings hv)

theorem recomputeL_quiet (h : b.quiet s) : b.quiet s.recomputeL := setSettings_quiet h rfl

theorem handOff_quiet (h : b.quiet s) (k : Nat) : b.quiet (s.handOff k) := by
  unfold State.handOff
  split
  · split
    · split
      · split
        · dsimp only
          refine modFile_quiet (joinSeals_quiet (setSettings_quiet (setBuf_quiet (modStream_quiet h _ _) _ _) ?_) _) _ _
          rfl
        · exact h
      · exact h
    · exact h
  · exact h

theorem freeFailed_quiet (h : b.quiet s) (k : Nat) : b.quiet (s.freeFailed k) := by
  unfold State.freeFailed
  split
  · dsimp only
    refine quiet_trans h (quiet_ite (quiet_refl s) (recomputeL_quiet (modFile_quiet ?_ _ _)))
    exact quiet_foldl (fun s (p : Nat × Staging) => quiet_of_frame (freeBuf_frame s p.1) (by decide)) _ s
  · exact h

theorem raiseStore_quiet (h : b.quiet s) (k : Nat) : b.quiet (s.raiseStore k) := by
  unfold State.raiseStore
  split
  · split
    · split
      · refine endFeedOf_quiet ?_ _ _
        split
        · exact notice_quiet (modFile_quiet (modStream_quiet h _ _) _ _) _ _ _
        · exact modFile_quiet (modStream_quiet h _ _) _ _
      · exact h
    · exact h
  · exact h

theorem closeFile_quiet (h : b.quiet s) (k : Nat) : b.quiet (s.closeFile k) := by
  unfold State.closeFile
  split
  · dsimp only
    refine quiet_trans ?_ (quiet_foldl (fun s c => ?_) allChains _)
    · exact modStream_quiet (frame_quiet (frame_quiet (notice_quiet h _ _ _) (setFiles_frame _ _) (by decide))
        (setRecons_frame _ _) (by decide)) _ _
    · split
      · rename_i hg
        exact quiet_ite (setJob_quiet (free_of_feed hg) (quiet_refl s) rfl) (quiet_refl s)
      · exact quiet_refl s
  · exact h

theorem applyNote_quiet (h : b.quiet s) (note : AppendNote) (n : Nat) : b.quiet (s.applyNote note n) := by
  unfold State.applyNote
  split
  · exact h
  · exact modEntry_quiet h _ fun _ => rfl
  · exact joinSeals_quiet h _
  · split
    · split
      · exact raiseStore_quiet (setBuf_quiet h _ _) _
      · exact h
    · exact h
  · exact closeFile_quiet h _
  · exact modEntry_quiet h _ fun _ => rfl

theorem appendWith_quiet (h : b.quiet s) (body : JBody) (note : AppendNote) : b.quiet (s.appendWith body note) :=
  decideLow_quiet (applyNote_quiet (appendRaw_quiet h body) note _)

theorem ask_quiet (h : b.quiet s) (body : JBody) (note : AppendNote) : b.quiet (s.ask body note) := by
  unfold State.ask
  split
  · exact appendWith_quiet h body note
  · exact joinAppend_quiet h _

theorem handOver_quiet (h : b.quiet s) (k : Nat) : b.quiet (s.handOver k) := by
  unfold State.handOver
  split
  · split
    · split
      · exact ask_quiet (frame_quiet h (setRecons_frame _ _) (by decide)) _ _
      · exact h
    · exact h
  · exact h

/-! ## Policy commit -/

theorem commitClass_quiet (h : b.quiet s) (i : Fin 8) : b.quiet (s.commitClass i) := by
  unfold State.commitClass
  split
  · exact h
  · refine appendRaw_quiet (setSettings_quiet h ?_) _
    rfl
  · exact appendRaw_quiet h _

theorem commitPolicy_quiet (h : b.quiet s) (d : Nat) : b.quiet (s.commitPolicy d) := by
  unfold State.commitPolicy
  dsimp only
  refine frame_quiet (decideLow_quiet ?_) (signalScanner_frame _ d) (by decide)
  refine frame_quiet (frame_quiet ?_ (setRetention_frame _ _) (by decide)) (setClock_frame _ _) (by decide)
  exact quiet_trans h (quiet_foldl (fun s i => commitClass_quiet (quiet_refl s) i) classes s)

theorem refreshCommit_quiet (h : b.quiet s) : b.quiet s.refreshCommit := by
  unfold State.refreshCommit
  split
  · exact decideLow_quiet (reserveWait_quiet (setJournal_quiet h _))
  · exact h

theorem askCommit_quiet (h : b.quiet s) (d : Nat) : b.quiet (s.askCommit d) := by
  unfold State.askCommit
  split
  · exact refreshCommit_quiet (frame_quiet h (setClock_frame _ _) (by decide))
  · dsimp only
    split
    · exact commitPolicy_quiet h d
    · exact joinAppend_quiet (frame_quiet h (setClock_frame _ _) (by decide)) _

/-! ## Taking a record -/

theorem countTaking_quiet (hb : b.free c) (h : b.quiet s) (f : Feed) (how : Taken) (d u : Nat) (k : Bool) :
    b.quiet (s.countTaking c f how d u k) := setJob_quiet hb (modFile_quiet h _ _) rfl

theorem takeMarked_quiet (hb : b.free c) (h : b.quiet s) (f : Feed) (w : WaitRec) : b.quiet (s.takeMarked c f w) := by
  unfold State.takeMarked
  split
  · split
    · dsimp only
      refine decideLow_quiet (countTaking_quiet hb ?_ f _ _ _ _)
      have marked := fun k v (body : Drop → JBody) (l : List Drop) => quiet_trans (modStream_quiet h k v)
        (quiet_foldl (f := fun s d => s.appendRaw (body d)) (fun s d => appendRaw_quiet (quiet_refl s) (body d)) l _)
      split
      · refine frame_quiet ?_ (appendRecord_frame _ _ _) (by decide)
        split
        · exact frame_quiet (marked _ _ _ _) (openSegment_frame _ _ _) (by decide)
        · exact marked _ _ _ _
      · exact marked _ _ _ _
    · exact h
  · exact h

theorem moveFeed_quiet (h : b.quiet s) (c : ChainRef) (n : Nat) : b.quiet (s.moveFeed c n) := by
  unfold State.moveFeed
  split
  · rename_i f hf
    dsimp only
    have moved := setChainState_quiet (setJob_quiet (free_of_feed hf) (quiet_refl s) (j := .feed { f with next := n }) rfl) c
      (st := .running) (by decide)
    exact quiet_trans h (quiet_ite (endFeed_quiet moved c _ _) moved)
  · exact h

theorem takeAndMove_quiet (hb : b.free c) (h : b.quiet s) (f : Feed) (w : WaitRec) : b.quiet (s.takeAndMove c f w) :=
  moveFeed_quiet (takeMarked_quiet hb h f w) c _

theorem takeOrWait_quiet (hb : b.free c) (h : b.quiet s) (f : Feed) (w : WaitRec) : b.quiet (s.takeOrWait c f w) := by
  unfold State.takeOrWait
  dsimp only
  have waits := setChainState_quiet (setJob_quiet hb h (j := .feed { f with waiting := some w }) rfl) c (st := .waiting)
    (by decide)
  split
  · exact takeAndMove_quiet hb h f w
  · have joined : b.quiet (if (!w.needsBuf || s.bufferOpen c) = true then
        (s.setJob c (.feed { f with waiting := some w })).setChainState c .waiting
        else ((s.setJob c (.feed { f with waiting := some w })).setChainState c .waiting).joinBufferWait c) := by
      split
      · exact waits
      · exact frame_quiet waits (joinBufferWait_frame _ c) (by decide)
    split
    · exact joined
    · exact joinAppend_quiet joined _

end Sys2Proof.Machine
end

section
/-!
SUPPORT. The law of pins through the segments of jobs: a phase set, a READ requested, a pin asked for and released, and a
segment left (R93, R94, R121, R128, R139).
-/

namespace Sys2Proof.Machine

variable {H : Prop} {J J' : JobRef → Option SegJob} {b s : State} {c : ChainRef} {r : JobRef} {g : SegJob} {x : Nat}

/-! ## A job's segment replaced -/

theorem withJob_comm (J : JobRef → Option SegJob) {q r : JobRef} (h : q ≠ r) (k l : Option SegJob) :
    withJob (withJob J q k) r l = withJob (withJob J r l) q k := by
  funext p
  unfold withJob
  by_cases hr : p = r
  · subst hr; rw [if_pos rfl, if_neg (Ne.symm h), if_pos rfl]
  · rw [if_neg hr, if_neg hr]

theorem withSeg_seg {j : Job} (h : j.seg ≠ none) (g : SegJob) : (j.withSeg g).seg = some g := by
  cases j with
  | retrieval => rfl
  | verify => rfl
  | feed => exact absurd rfl h
  | journalRead => exact absurd rfl h
  | catalogueRead => exact absurd rfl h

/-- A job is set on its chain, and nothing else of the pins changes. -/
theorem setJob_calm (s : State) (c : ChainRef) (j : Job) : s.calm (s.setJob c j) := by
  refine calm_of_parts (setJob_frame s c j) (by decide) (opsWithin_refl _) (fun i d => ?_) rfl
  unfold State.setJob
  rw [chain_modChain]
  split
  · intro e
    show (s.chain c).desc.map _ = none
    rw [i c e]
    rfl
  · exact i d

theorem segJob_setJob {d : Desc} (hd : (s.chain c).desc = some d) (j : Job) :
    (s.setJob c j).segJob = withJob s.segJob (.chain c) j.seg := by
  funext r
  cases r with
  | scrub => rfl
  | chain e =>
    show ((s.setJob c j).job e).bind Job.seg = _
    rw [job_setJob]
    unfold withJob
    by_cases he : e = c
    · rw [if_pos he, if_pos (by rw [he]), hd]; rfl
    · rw [if_neg he, if_neg fun e' => he (by cases e'; rfl)]; rfl

/-- A job set without a segment leaves the one that its chain's job was on. -/
theorem setJob_ends (s : State) (c : ChainRef) {j : Job} (hj : j.seg = none) : s.endsJob c (s.setJob c j) := by
  refine ⟨setJob_calm s c j, ?_⟩
  cases hd : (s.chain c).desc with
  | some d => rw [segJob_setJob hd, hj]
  | none =>
    have free := free_of_desc hd
    rw [withJob_eq_self free]
    exact (quiet_setJob_free free hj).jobs

/-- The scrub verifies no segment any more. -/
theorem scrub_ends (s : State) {v : Audit} (hv : v.scrub = none) :
    s.calm (s.setAudit v) ∧ (s.setAudit v).segJob = withJob s.segJob .scrub none := by
  refine ⟨⟨fun _ => rfl, opsWithin_refl _, id, id, rfl⟩, ?_⟩
  funext r
  cases r with
  | chain d => rfl
  | scrub => exact hv

theorem setAudit_calm (s : State) (v : Audit) : s.calm (s.setAudit v) := ⟨fun _ => rfl, opsWithin_refl _, id, id, rfl⟩

theorem job_of_segJob (h : s.segJob (.chain c) = some g) : ∃ j, s.job c = some j ∧ j.seg = some g :=
  Option.bind_eq_some_iff.mp h

/-- The phase of a job's segment is set, and nothing else of the pins changes. -/
theorem setPhase_moves (hg : s.segJob r = some g) (p : SegPhase) :
    s.calm (s.setPhase r p) ∧ (s.setPhase r p).segJob = withJob s.segJob r (some { g with phase := p }) := by
  cases r with
  | scrub =>
    rw [setPhase_scrub hg]
    refine ⟨setAudit_calm s _, ?_⟩
    funext q
    cases q <;> rfl
  | chain c =>
    obtain ⟨j, hj, hs⟩ := job_of_segJob hg
    obtain ⟨d, hd⟩ := desc_of_job hj
    rw [setPhase_chain_eq hj hs, segJob_setJob hd, withSeg_seg (by rw [hs]; exact Option.some_ne_none g)]
    exact ⟨setJob_calm s c _, rfl⟩

theorem jobState_quiet (h : b.quiet s) (r : JobRef) {st : ChainState} (hs : st ≠ .idle) : b.quiet (s.jobState r st) := by
  cases r with
  | chain c => exact setChainState_quiet h c hs
  | scrub => exact h

/-- A pinned job's phase moves on. -/
theorem setPhase_stand (h : s.pinsStand H) (hg : s.segJob r = some g) (was : g.phase ≠ .waitPin) {p : SegPhase}
    (becomes : p ≠ .waitPin) (reads : p = .reading ∨ p = .waitPlace ∨ s.storeOps.countP (StoreOp.readsFor r) = 0)
    (grants : ∀ c, r = .chain c → c ∉ (s.entry g.extent).granted) : (s.setPhase r p).pinsStand H := by
  obtain ⟨calm, jobs⟩ := setPhase_moves hg p
  unfold State.pinsStand
  rw [jobs]
  exact kept_of_calm ⟨pinLaw_phase h.law hg was becomes reads grants, h.idle, h.form, h.holds⟩ calm

/-! ## A READ requested (R83, R128) -/

/-- A pinned job that has no READ in the store has one requested. -/
theorem startRead_stand (h : s.pinsStand H) (hg : s.segJob r = some g) (was : g.phase ≠ .waitPin)
    (unread : s.storeOps.countP (StoreOp.readsFor r) = 0) (grants : ∀ c, r = .chain c → c ∉ (s.entry g.extent).granted)
    (again : Bool) : (s.startRead r g.extent again).pinsStand H := by
  have frame := request_frame s (channelOf g.extent) (.segRead g.extent (some r) again)
  have ops := storeOps_request s (channelOf g.extent) (.segRead g.extent (some r) again)
  unfold State.startRead
  dsimp only
  generalize s.request (channelOf g.extent) (.segRead g.extent (some r) again) = u at frame ops ⊢
  have entry : u.entry = s.entry := funext (entry_of_catalogue (frame.catalogue (by decide)))
  have chains := chain_of_ports (frame.ports (by decide))
  have jobs : u.segJob = s.segJob := segJob_of_parts (fun c => by rw [job_of_chain (chains c)])
    (by rw [frame.audit (by decide)])
  have moved : ∀ p : SegPhase, p = .reading ∨ p = .waitPlace → ∀ st : ChainState, st ≠ .idle →
      ((u.setPhase r p).jobState r st).pinsStand H := by
    intro p hp st hst
    obtain ⟨calm, segs⟩ := setPhase_moves (s := u) (by rw [jobs]; exact hg) p
    refine stand_of_quiet ?_ (jobState_quiet (quiet_refl _) r hst)
    unfold State.pinsStand
    rw [segs, jobs]
    refine kept_of_calm ⟨?_, idle_of_chains chains h.idle, ?_, fun hH => ?_⟩ calm
    · rw [entry]
      have becomes : p ≠ .waitPin := by rcases hp with rfl | rfl <;> decide
      have moved := pinLaw_phase h.law hg was becomes (hp.imp id .inl) grants
      exact pinLaw_ops (pinLaw_read (g := { g with phase := p }) moved (withJob_self _ _ _) hp unread again)
        (opsWithin_of_perm ops)
    · unfold State.catalogueForm
      rw [frame.catalogue (by decide)]
      exact h.form
    · unfold State.holdsCounted
      rw [entry, frame.settings (by decide)]
      obtain ⟨rising, exact⟩ := h.holds hH
      exact ⟨rising, fun x v counted hv => (exact x v counted hv).trans
        (coverCount_of_holds (by rw [frame.settings (by decide)]) v).symm⟩
  split
  · exact moved .reading (.inl rfl) .running (by decide)
  · exact moved .waitPlace (.inr rfl) .waiting (by decide)

/-- A job past its grant goes on to its READ. -/
theorem goOnPinned_stand (h : s.pinsStand H) (hg : s.segJob (.chain c) = some g) (pinned : g.phase = .pinned)
    (grants : c ∉ (s.entry g.extent).granted) : (s.goOnPinned c g.extent).pinsStand H := by
  have unread := no_reads (r := .chain c) h.law fun k hk => by rw [hg] at hk; cases hk; rw [pinned]; decide
  have goes : ∀ u : State, s.quiet u → u.storeOps = s.storeOps → u.entry = s.entry →
      (u.startRead (.chain c) g.extent false).pinsStand H := fun u quiet ops entry =>
    startRead_stand (stand_of_quiet h quiet) (by rw [quiet.jobs]; exact hg) (by rw [pinned]; decide) (by rw [ops]; exact unread)
      (fun d hd => by cases hd; rw [entry]; exact grants) false
  unfold State.goOnPinned
  dsimp only
  split
  · rename_i j hj
    split
    · have same : (Job.retrieval { j with delivered := j.delivered + 1 }).seg = s.segJob (.chain c) := by
        show j.current = (s.job c).bind Job.seg
        rw [hj]
        rfl
      exact goes _ (quiet_setJob same) rfl rfl
    · exact goes s (quiet_refl s) rfl rfl
  · exact goes s (quiet_refl s) rfl rfl

/-! ## Entries replaced -/

/-- An entry changed under a law that holds of the catalogue with it, where it stays out of the counting of holds or keeps what
is counted. -/
theorem kept_modEntry (h : s.pinsKept H J) (hx : reservedExtents ≤ x) {f : Entry → Entry}
    (law : PinLaw J' (fun y => if y = x then f (s.entry x) else s.entry y) s.storeOps)
    (holds : (f (s.entry x)).counted = true → ∀ v, (f (s.entry x)).seg = some v → H →
      (f (s.entry x)).holds = s.coverCount v) :
    (s.modEntry x f).pinsKept H J' := by
  have frame := modEntry_frame s x f
  have entry := (entry_modEntry s x · f hx)
  refine ⟨?_, idle_of_chains (chain_of_ports (frame.ports (by decide))) h.idle, catalogueForm_setEntry h.form x _,
    fun hH => ⟨?_, fun y v counted hv => ?_⟩⟩
  · rw [funext entry, storeOps_of_store (frame.store (by decide))]
    exact law
  · rw [frame.settings (by decide)]
    exact (h.holds hH).1
  · refine Eq.trans ?_ (coverCount_of_holds (s := s) (by rw [frame.settings (by decide)]) v).symm
    rw [entry] at counted hv ⊢
    split at counted
    · rename_i e
      rw [if_pos e] at hv ⊢
      exact holds counted v hv hH
    · rename_i e
      rw [if_neg e] at hv ⊢
      exact (h.holds hH).2 y v counted hv

/-- An entry that keeps its part in the counting of holds keeps its count right. -/
theorem holds_of_same (h : s.pinsKept H J) {e : Entry}
    (same : e.counted = true → (s.entry x).counted = true ∧ e.seg = (s.entry x).seg ∧ e.holds = (s.entry x).holds) :
    e.counted = true → ∀ v, e.seg = some v → H → e.holds = s.coverCount v := fun counted v hv hH => by
  obtain ⟨was, seg, holds⟩ := same counted
  rw [holds]
  exact (h.holds hH).2 x v was (seg.symm.trans hv)

theorem segJob_modEntry (s : State) (x : Nat) (f : Entry → Entry) : (s.modEntry x f).segJob = s.segJob := by
  have frame := modEntry_frame s x f
  exact segJob_of_parts (fun c => by rw [job_of_chain (chain_of_ports (frame.ports (by decide)) c)])
    (by rw [frame.audit (by decide)])

/-- An entry that changes as the law of entries allows. -/
theorem kept_follow (h : s.pinsKept H J) (hx : reservedExtents ≤ x) {f : Entry → Entry}
    (follows : EntriesFollow J s.storeOps s.entry (fun y => if y = x then f (s.entry x) else s.entry y) x)
    (same : (f (s.entry x)).counted = true → (s.entry x).counted = true ∧ (f (s.entry x)).seg = (s.entry x).seg
      ∧ (f (s.entry x)).holds = (s.entry x).holds) : (s.modEntry x f).pinsKept H J :=
  kept_modEntry h hx (pinLaw_entries h.law fun y => by
    by_cases e : y = x
    · subst e; exact follows
    · exact entriesFollow_of_eq (if_neg e)) (holds_of_same h same)

/-! ## Retirement and retest (R120, R121) -/

/-- An entry that no job stands on and no operation alters becomes RETIRING. -/
theorem retiring_kept (h : s.pinsKept H J) (hx : reservedExtents ≤ x) (free : unoccupied J x)
    (still : s.storeOps.countP (StoreOp.alters x) = 0) (n : Nat) :
    (s.modEntry x (fun e => { e with state := .retiring, retireJournal := some n })).pinsKept H J :=
  kept_follow h hx ⟨by rw [if_pos rfl]; exact ⟨rfl, rfl⟩, .inl free, .inr still⟩ fun counted => by
    simp [Entry.counted] at counted

theorem quiet_kept {t : State} (h : s.pinsKept H J) (k : s.quiet t) : t.pinsKept H J := kept_of_calm h k.1

theorem retire_pins (h : s.pinsKept H J) {v : SegFields} (hv : (s.entry x).seg = some v) (free : unoccupied J x)
    (state : (s.entry x).state = .sealed ∨ (s.entry x).state = .expiryWait) :
    (s.retire x v).segJob = s.segJob ∧ (s.retire x v).pinsKept H J := by
  have appended := appendRaw_quiet (quiet_refl s)
    (.expired x v.source v.serial v.cls (s.activeDays v.cls) (s.retainUntil v) s.today)
  have entry := entry_of_catalogue ((appendRaw_frame s
    (.expired x v.source v.serial v.cls (s.activeDays v.cls) (s.retainUntil v) s.today)).catalogue (by decide)) x
  unfold State.retire
  dsimp only
  generalize s.appendRaw (.expired x v.source v.serial v.cls (s.activeDays v.cls) (s.retainUntil v) s.today) = u at *
  have stood := quiet_kept h appended
  have still := no_alters (x := x) stood.law (by rw [entry]; rcases state with e | e <;> rw [e] <;> decide)
    (by rw [entry]; rcases state with e | e <;> rw [e] <;> decide)
  have retiring := retiring_kept stood (reserved_le_of_seg hv) free still s.journal.next
  have rest := decideLow_quiet (quiet_of_frame (setScanner_frame
    (u.modEntry x (fun e => { e with state := .retiring, retireJournal := some s.journal.next }))
    { u.scanner with retired := u.scanner.retired + 1 }) (by decide))
  have scanner := (modEntry_frame u x (fun e => { e with state := .retiring, retireJournal := some s.journal.next })).scanner
    (by decide)
  rw [scanner]
  exact ⟨rest.jobs.trans ((segJob_modEntry u x _).trans appended.jobs), quiet_kept retiring rest⟩

theorem accepts_of_counted {e e' : Entry} (hs : e'.state = .sealed ∨ e'.state = .expiryWait ∨ e'.state = .damaged)
    (seg : e'.seg = e.seg) (n : Nat) (h : e.accepts n = true) : e'.accepts n = true := by
  unfold Entry.accepts at h ⊢
  rw [seg]
  simp only [Bool.and_eq_true] at h ⊢
  refine ⟨?_, h.2⟩
  rcases hs with e | e | e <;> simp [e]

/-- An entry passes from one of the states that accept pins to another, and keeps its pins, its lists, its segment and its
hold count. -/
theorem restate_kept (h : s.pinsKept H J) (hx : reservedExtents ≤ x) {f : Entry → Entry}
    (was : (s.entry x).state = .sealed ∨ (s.entry x).state = .expiryWait ∨ (s.entry x).state = .damaged)
    (becomes : (f (s.entry x)).state = .sealed ∨ (f (s.entry x)).state = .expiryWait ∨ (f (s.entry x)).state = .damaged)
    (seg : (f (s.entry x)).seg = (s.entry x).seg) (pins : (f (s.entry x)).pins = (s.entry x).pins)
    (holds : (f (s.entry x)).holds = (s.entry x).holds)
    (lists : (f (s.entry x)).pinWait = (s.entry x).pinWait ∧ (f (s.entry x)).granted = (s.entry x).granted) :
    (s.modEntry x f).pinsKept H J := by
  refine kept_follow h hx ⟨by rw [if_pos rfl]; exact lists,
    .inr ⟨by rw [if_pos rfl, pins], fun n hn => by
      rw [if_pos rfl]; exact accepts_of_counted becomes seg n hn⟩, .inr ?_⟩ fun _ => ⟨?_, seg, holds⟩
  · exact no_alters h.law (by rcases was with e | e | e <;> rw [e] <;> decide)
      (by rcases was with e | e | e <;> rw [e] <;> decide)
  · unfold Entry.counted
    rcases was with e | e | e <;> rw [e] <;> decide

theorem retest_pins (h : s.pinsKept H J) (x : Nat) : (s.retest x).segJob = s.segJob ∧ (s.retest x).pinsKept H J := by
  by_cases waits : (s.entry x).state = .expiryWait ∧ (s.entry x).pins = 0
  · cases hv : (s.entry x).seg with
    | none =>
      have same : s.retest x = s := by unfold State.retest; rw [hv]
      rw [same]
      exact ⟨rfl, h⟩
    | some v =>
      rw [retest_of_waits hv waits.1 waits.2]
      split
      · split
        · exact ⟨rfl, h⟩
        · exact retire_pins h hv (unoccupied_of_pins h.law waits.2) (.inr waits.1)
      · exact ⟨segJob_modEntry s x _, restate_kept h (reserved_le_of_seg hv) (.inr (.inl waits.1)) (.inl rfl) rfl rfl rfl ⟨rfl, rfl⟩⟩
  · rw [retest_of_not (by rw [← not_and_or]; exact waits)]
    exact ⟨rfl, h⟩

/-! ## A pin released (R93, R94) -/

/-- A pin to spare is released, with a job left out that has left its segment. -/
theorem releasePin_pins (h : s.pinsKept H (withJob s.segJob r none)) (spare : sparePin (withJob s.segJob r none) s.entry x) :
    (∀ q, q = r ∨ s.segJob q = none → (s.releasePin x).segJob q = s.segJob q)
      ∧ (s.releasePin x).pinsKept H (withJob (s.releasePin x).segJob r none) := by
  have hx : reservedExtents ≤ x := by
    rcases Nat.lt_or_ge x reservedExtents with hx | hx
    · unfold sparePin at spare
      rw [entry_reserved s hx] at spare
      exact absurd spare (Nat.not_succ_le_zero _)
    · exact hx
  cases waits : (s.entry x).pinWait with
  | cons c rest =>
    obtain ⟨g, hg, -, -⟩ := h.law.waiting x c (by rw [waits]; exact List.mem_cons_self)
    have other : JobRef.chain c ≠ r := fun e => by rw [e, withJob_self] at hg; cases hg
    have own := hg
    rw [withJob_of_ne _ other] at own
    rw [releasePin_of_waiting waits]
    obtain ⟨calm, jobs⟩ := setPhase_moves (s := s.modEntry x
      (fun e => { e with pinWait := rest, granted := e.granted ++ [c] })) (by rw [segJob_modEntry]; exact own) .pinned
    rw [segJob_modEntry] at jobs
    rw [jobs]
    refine ⟨fun q hq => withJob_of_ne _ (fun e => ?_) _, kept_of_calm ?_ calm⟩
    · rcases hq with rfl | free
      · exact other e.symm
      · rw [e, own] at free; cases free
    rw [withJob_comm _ other]
    refine kept_modEntry h hx (pinLaw_regrant h.law spare waits hg (by rw [if_pos rfl]) fun y e => if_neg e)
      (holds_of_same h fun counted => ⟨counted, rfl, rfl⟩)
  | nil =>
    have lowered : (s.modEntry x (fun e => { e with pins := e.pins - 1 })).pinsKept H (withJob s.segJob r none) :=
      kept_modEntry h hx (pinLaw_lower h.law spare waits (by rw [if_pos rfl]) fun y e => if_neg e)
        (holds_of_same h fun counted => ⟨counted, rfl, rfl⟩)
    rw [releasePin_of_none waits]
    obtain ⟨jobs, kept⟩ := retest_pins lowered x
    rw [segJob_modEntry] at jobs
    rw [jobs]
    exact ⟨fun _ _ => rfl, kept⟩

/-! ## A segment left (R83, R94, R163) -/

theorem reads_orphaned (o : StoreOp) : StoreOp.binds (if o.readOf r then o.orphaned else o) = true →
    o.binds = true ∧ (if o.readOf r then o.orphaned else o) = o ∧ o.readsFor r = false := by
  cases o with
  | segRead y who again =>
    by_cases e : who = some r <;> simp [StoreOp.readOf, StoreOp.orphaned, StoreOp.binds, StoreOp.readsFor, e]
  | pageRead n who again => cases who with
    | scan => simp [StoreOp.readOf, StoreOp.binds]
    | job d => cases d with
      | none => simp [StoreOp.readOf, StoreOp.binds]
      | some d => by_cases e : JobRef.chain d = r <;> simp [StoreOp.readOf, StoreOp.orphaned, StoreOp.binds, e]
  | segWrite => simp [StoreOp.readOf, StoreOp.readsFor]
  | pageWrite => simp [StoreOp.readOf, StoreOp.binds]
  | headerRead => simp [StoreOp.readOf, StoreOp.binds]
  | erase => simp [StoreOp.readOf, StoreOp.readsFor]
  | journalErase => simp [StoreOp.readOf, StoreOp.binds]

/-- The operations that the law reads, once those of a job are left to be discarded. -/
theorem filter_orphaned (r : JobRef) (l : List StoreOp) :
    (l.map (fun o => if o.readOf r then o.orphaned else o)).filter StoreOp.binds
      = l.filter (fun o => o.binds && !o.readsFor r) := by
  induction l with
  | nil => rfl
  | cons o l ih =>
    simp only [List.map_cons, List.filter_cons, ih]
    cases hb : StoreOp.binds (if o.readOf r then o.orphaned else o) with
    | true =>
      obtain ⟨binds, same, other⟩ := reads_orphaned o hb
      simp [binds, same, other]
    | false =>
      have gone : (o.binds && !o.readsFor r) = false := by
        cases o with
        | segRead y who again =>
          by_cases e : who = some r <;>
            simp_all [StoreOp.readOf, StoreOp.orphaned, StoreOp.binds, StoreOp.readsFor]
        | segWrite => simp [StoreOp.readOf, StoreOp.binds] at hb
        | erase => simp [StoreOp.readOf, StoreOp.binds] at hb
        | pageWrite => rfl
        | headerRead => rfl
        | pageRead => rfl
        | journalErase => rfl
      simp [gone]

/-- A job that leaves the store leaves no READ of its own there, and no other operation changes (R83). -/
theorem leaveStore_ops (s : State) (r : JobRef) : opsWithin s.storeOps (s.leaveStore r).storeOps
    ∧ (s.leaveStore r).storeOps.countP (StoreOp.readsFor r) = 0 := by
  have waits : ((s.leaveStore r).store.placeWait.filterMap (fun q => match q with | .op _ o => some o | .seal => none)).filter
      StoreOp.binds = ((s.store.placeWait.filterMap (fun q => match q with | .op _ o => some o | .seal => none)).filter
        (fun o => !o.readOf r)).filter StoreOp.binds := by
    refine congrArg (List.filter StoreOp.binds) ?_
    show ((s.store.placeWait.filter _).filterMap _) = _
    induction s.store.placeWait with
    | nil => rfl
    | cons q l ih =>
      rcases q with ⟨k, o⟩ | _
      · cases hr : o.readOf r <;> simp_all
      · simpa [List.filter_cons] using ih
  have queues : ((s.leaveStore r).store.queues.toList.flatten).filter StoreOp.binds
      = s.store.queues.toList.flatten.filter (fun o => o.binds && !o.readsFor r) := by
    rw [← filter_orphaned]
    refine congrArg (List.filter StoreOp.binds) ?_
    show (s.store.queues.map _).toList.flatten = _
    rw [Vector.toList_map, List.map_flatten]
  have all : (s.leaveStore r).storeOps.filter StoreOp.binds
      = s.store.queues.toList.flatten.filter (fun o => o.binds && !o.readsFor r)
        ++ ((s.store.placeWait.filterMap (fun q => match q with | .op _ o => some o | .seal => none)).filter
          (fun o => !o.readOf r)).filter StoreOp.binds := by
    unfold State.storeOps
    rw [List.filter_append]
    exact congrArg₂ (· ++ ·) queues waits
  constructor
  · unfold opsWithin
    rw [all]
    unfold State.storeOps
    rw [List.filter_append]
    refine List.Sublist.subperm (List.Sublist.append ?_ ((List.filter_sublist).filter _))
    exact List.monotone_filter_right _ fun o ho => (Bool.and_eq_true _ _ ▸ ho).1
  · rw [countP_binds (readsFor_binds r), all]
    refine List.countP_eq_zero.mpr fun o ho hr => ?_
    rcases List.mem_append.mp ho with ho | ho
    · have := (List.mem_filter.mp ho).2
      simp [hr] at this
    · have own := (List.mem_filter.mp (List.mem_filter.mp ho).1).2
      cases o <;> simp [StoreOp.readsFor] at hr
      simp [StoreOp.readOf, hr] at own

end Sys2Proof.Machine
end

section
/-!
SUPPORT. The law of pins through a job that leaves its segment and one that comes to a segment: searches, deliveries and
verdicts (R93, R94, R126 to R131, R141 to R145).
-/

namespace Sys2Proof.Machine

variable {H : Prop} {J J' : JobRef → Option SegJob} {b s t : State} {c : ChainRef} {r : JobRef} {g : SegJob} {x : Nat}

/-! ## A job leaves its segment (R94) -/

theorem reserved_le_of_accepts {n : Nat} (h : (s.entry x).accepts n = true) : reservedExtents ≤ x := by
  unfold Entry.accepts at h
  cases hv : (s.entry x).seg with
  | none => rw [hv, Bool.and_false] at h; cases h
  | some v => exact reserved_le_of_seg hv

theorem left_quiet (s : State) (r : JobRef) : s.quiet (s.left r)
    ∧ (s.left r).storeOps.countP (StoreOp.readsFor r) = 0 := by
  obtain ⟨within, gone⟩ := leaveStore_ops s r
  have store : (s.left r).storeOps = (s.leaveStore r).storeOps := by cases r <;> rfl
  rw [← store] at within gone
  exact ⟨quiet_of_store (left_frame s r) (by decide) within, gone⟩

theorem filter_absent {l : List ChainRef} (h : ∀ c, r = .chain c → c ∉ l) :
    l.filter (fun d => decide (JobRef.chain d ≠ r)) = l :=
  List.filter_eq_self.mpr fun d hd => decide_eq_true fun e => h d e.symm hd

/-- A job gives up its lane, its READ and its place on the lists of its entry; its pin is left over. -/
theorem left_kept (h : s.pinsStand H) (hg : s.segJob r = some g) {f : Entry → Entry}
    (without : (s.entry g.extent).without r (f (s.entry g.extent)))
    (same : (f (s.entry g.extent)).seg = (s.entry g.extent).seg ∧ (f (s.entry g.extent)).holds = (s.entry g.extent).holds) :
    ((s.left r).modEntry g.extent f).segJob = s.segJob
      ∧ ((s.left r).modEntry g.extent f).pinsKept H (withJob s.segJob r none) := by
  obtain ⟨quiet, gone⟩ := left_quiet s r
  have entry : (s.left r).entry = s.entry := funext (entry_of_catalogue ((left_frame s r).catalogue (by decide)))
  refine ⟨(segJob_modEntry _ _ _).trans quiet.jobs, ?_⟩
  refine kept_modEntry (kept_of_calm h quiet.1) (reserved_le_of_accepts (h.law.stands r g hg)) ?_
    (holds_of_same (x := g.extent) (kept_of_calm h quiet.1) fun counted => ?_)
  · rw [entry]
    refine pinLaw_drop h.law (fun y => ?_) quiet.ops gone
    by_cases e : y = g.extent
    · rw [if_pos e, e]; exact without
    · rw [if_neg e]; exact without_of_eq h.law hg e rfl
  · rw [entry] at counted ⊢
    refine ⟨?_, same⟩
    unfold Entry.counted at counted ⊢
    rw [← without.state]
    exact counted

theorem dropSeg_of_none (h : s.segJob r = none) : s.dropSeg r = s := by
  unfold State.dropSeg
  rw [h]

/-- A job that waits for a pin leaves the pin wait list. -/
theorem dropSeg_of_waitPin (hg : s.segJob r = some g) (hp : g.phase = .waitPin) : s.dropSeg r = (s.left r).modEntry g.extent
    (fun e => { e with pinWait := e.pinWait.filter (fun d => decide (JobRef.chain d ≠ r)) }) := by
  unfold State.dropSeg
  rw [hg]
  dsimp only
  rw [hp]
  cases r <;> rfl

/-- A job leaves its segment: the law stands without it, and a job without a segment is left without one. -/
theorem dropSeg_leaves (h : s.pinsStand H) (r : JobRef) :
    (∀ q, s.segJob q = none → (s.dropSeg r).segJob q = none)
      ∧ (s.dropSeg r).pinsKept H (withJob (s.dropSeg r).segJob r none) := by
  cases hg : s.segJob r with
  | none =>
    rw [dropSeg_of_none hg]
    exact ⟨fun _ hq => hq, kept_of_stand h hg⟩
  | some g =>
    by_cases hp : g.phase = .waitPin
    · have grants := fun d (e : r = .chain d) => not_granted (c := d) h.law (fun k hk => by
        rw [← e, hg] at hk; cases hk; rw [hp]; decide) g.extent
      obtain ⟨jobs, kept⟩ := left_kept h hg (f := fun e =>
          { e with pinWait := e.pinWait.filter (fun d => decide (JobRef.chain d ≠ r)) })
        ⟨rfl, (filter_absent grants).symm, rfl, fun _ => rfl, rfl⟩ ⟨rfl, rfl⟩
      rw [dropSeg_of_waitPin hg hp, jobs]
      exact ⟨fun _ hq => hq, kept⟩
    · have waits := fun d (e : r = .chain d) => not_waiting (c := d) h.law (fun k hk => by
        rw [← e, hg] at hk; cases hk; exact hp) g.extent
      obtain ⟨jobs, kept⟩ := left_kept h hg (f := fun e => { e with granted := e.grantedBut r })
        ⟨(filter_absent waits).symm, rfl, rfl, fun _ => rfl, rfl⟩ ⟨rfl, rfl⟩
      rw [dropSeg_eq hg hp]
      change (s.given r g.extent).segJob = _ at jobs
      change (s.given r g.extent).pinsKept _ _ at kept
      rw [← jobs] at kept
      have released := releasePin_pins kept (x := g.extent) (by
        rw [jobs]
        exact sparePin_of_drop h.law hg hp (by rw [given_entry, if_pos rfl]))
      refine ⟨fun q hq => ?_, released.2⟩
      rw [← jobs] at hq
      rw [released.1 q (.inr hq), hq]

theorem dropSeg_pins (h : s.pinsStand H) (r : JobRef) :
    (s.dropSeg r).pinsKept H (withJob (s.dropSeg r).segJob r none) := (dropSeg_leaves h r).2


/-- The scrub's segment is left, and the scrub is on none. -/
theorem stand_of_scrub (h : s.pinsKept H (withJob s.segJob .scrub none)) {v : Audit} (hv : v.scrub = none) :
    (s.setAudit v).pinsStand H := by
  obtain ⟨calm, jobs⟩ := scrub_ends s hv
  unfold State.pinsStand
  rw [jobs]
  exact kept_of_calm h calm

theorem dropSeg_complete_stand (h : s.pinsStand H) (c : ChainRef) (w : Completion) :
    ((s.dropSeg (.chain c)).complete c w).pinsStand H := stand_of_ends (dropSeg_pins h _) (complete_ends _ c w)

/-- A job set without a segment, once its segment is left. -/
theorem stand_of_setJob (h : s.pinsKept H (withJob s.segJob (.chain c) none)) {j : Job} (hj : j.seg = none) :
    (s.setJob c j).pinsStand H ∧ (s.setJob c j).free c := by
  have ends := setJob_ends s c hj
  exact ⟨stand_of_ends h ends, by unfold State.free; rw [ends.jobs, withJob_self]⟩

/-! ## A job comes to a segment (R93) -/

/-- A job without a segment comes to one with a pin of its own, or onto the pin wait list of its entry. -/
theorem come_kept (h : s.pinsKept H J) (idle : J r = none) (accepts : (s.entry x).accepts g.serial = true) (hgx : g.extent = x)
    {f : Entry → Entry}
    (hx : (g.phase = .pinned ∧ f (s.entry x) = { s.entry x with pins := (s.entry x).pins + 1 })
      ∨ (g.phase = .waitPin ∧ 0 < (s.entry x).pins
        ∧ ∃ c, r = .chain c ∧ f (s.entry x) = { s.entry x with pinWait := (s.entry x).pinWait ++ [c] })) :
    (s.modEntry x f).pinsKept H (withJob J r (some g)) := by
  refine kept_modEntry h (reserved_le_of_accepts accepts)
    (pinLaw_come h.law idle accepts hgx (by rw [if_pos rfl]; exact hx) fun y hy => if_neg hy)
    (holds_of_same (x := x) h fun counted => ?_)
  rcases hx with ⟨-, e⟩ | ⟨-, -, c, -, e⟩ <;> rw [e] at counted ⊢ <;> exact ⟨counted, rfl, rfl⟩

/-- A chain's job that stands on an extent without a pin yet asks for one. -/
theorem askPin_stand (h : s.pinsKept H (withJob s.segJob (.chain c) none)) {n : Nat}
    (hg : s.segJob (.chain c) = some ⟨x, n, .pinned⟩) (accepts : (s.entry x).accepts n = true) :
    (s.askPin c x).pinsStand H := by
  have hx := reserved_le_of_accepts accepts
  unfold State.askPin
  split
  · have come := come_kept (g := ⟨x, n, .pinned⟩) (f := fun e => { e with pins := e.pins + 1 }) h (withJob_self _ _ _) accepts
      rfl (.inl ⟨rfl, rfl⟩)
    rw [withJob_withJob, withJob_eq_self hg, ← segJob_modEntry s x (fun e => { e with pins := e.pins + 1 })] at come
    refine goOnPinned_stand (g := ⟨x, n, .pinned⟩) come (by rw [segJob_modEntry]; exact hg) rfl ?_
    rw [entry_modEntry _ _ _ _ hx, if_pos rfl]
    exact not_granted h.law (fun k hk => by rw [withJob_self] at hk; cases hk) x
  · rename_i full
    have come := come_kept (g := ⟨x, n, .waitPin⟩) (f := fun e => { e with pinWait := e.pinWait ++ [c] }) h
      (withJob_self _ _ _) accepts rfl (.inr ⟨rfl, by omega, c, rfl, rfl⟩)
    rw [withJob_withJob] at come
    obtain ⟨calm, jobs⟩ := setPhase_moves (s := s.modEntry x (fun e => { e with pinWait := e.pinWait ++ [c] }))
      (g := ⟨x, n, .pinned⟩) (r := .chain c) (by rw [segJob_modEntry]; exact hg) .waitPin
    refine stand_of_quiet ?_ (quiet_setChainState (by decide))
    unfold State.pinsStand
    rw [jobs, segJob_modEntry]
    exact kept_of_calm come calm

/-- A job without a segment is set onto one, and asks for a pin on it. -/
theorem reach_stand (h : s.pinsStand H) (idle : s.free c) {d : Desc} (hd : (s.chain c).desc = some d) {j : Job} {n : Nat}
    (hj : j.seg = some ⟨x, n, .pinned⟩) (accepts : (s.entry x).accepts n = true) :
    ((s.setJob c j).askPin c x).pinsStand H := by
  have jobs := segJob_setJob hd j
  rw [hj] at jobs
  refine askPin_stand (n := n) ?_ (by rw [jobs, withJob_self]) accepts
  rw [jobs, withJob_withJob]
  exact kept_of_calm (kept_of_stand h idle) (setJob_calm s c j)

/-! ## Searches (R126, R127) -/

theorem accepts_of_selects {q : Retrieval} {audit : Bool} {e : Entry} (h : q.selects audit e = true) {n : Nat} {v : SegFields}
    (hv : e.seg = some v) (serial : v.serial = n) : e.accepts n = true := by
  unfold Retrieval.selects at h
  unfold Entry.accepts
  rw [hv]
  simp only [Bool.and_eq_true, Bool.or_eq_true, decide_eq_true_eq] at h ⊢
  exact ⟨h.1.elim (fun e => .inl (.inl e)) fun e => .inr e.2, serial⟩

/-- A segment ahead is one of the entry's serial. -/
theorem seg_of_ahead {q : Retrieval} {e : Entry} {n : Nat} (h : q.ahead e = some n) : ∃ v, e.seg = some v ∧ v.serial = n := by
  unfold Retrieval.ahead at h
  split at h
  · rename_i v hv
    split at h
    · cases h; exact ⟨v, hv, rfl⟩
    · cases h
  · cases h

/-- The entry that a search finds accepts a pin for the serial found. -/
theorem find_accepts {q : Retrieval} {audit : Bool} {cat : Table Entry} {n : Nat} (h : q.find audit cat = some (n, x)) :
    ∃ e, (x, e) ∈ cat ∧ e.accepts n = true := by
  unfold Retrieval.find at h
  refine List.foldlRecOn (motive := fun best : Option (Nat × Nat) =>
    ∀ m y, best = some (m, y) → ∃ e, (y, e) ∈ cat ∧ e.accepts m = true) cat _ (fun _ _ e => by cases e)
    (fun best hb p hp m y hm => ?_) n x h
  have found : ∀ k, (if q.selects audit p.2 then q.ahead p.2 else none) = some k → p.2.accepts k = true := fun k hk => by
    split at hk
    · obtain ⟨v, hv, serial⟩ := seg_of_ahead hk
      exact accepts_of_selects ‹_› hv serial
    · cases hk
  split at hm
  · rename_i k b ha
    split at hm
    · cases hm; exact ⟨p.2, hp, found _ ha⟩
    · exact hb m y hm
  · rename_i k ha
    cases hm
    exact ⟨p.2, hp, found _ ha⟩
  · exact hb m y hm

theorem search_stand (h : s.pinsStand H) (idle : s.free c) : (s.search c).pinsStand H := by
  unfold State.search
  split
  · rename_i q hj
    obtain ⟨d, hd⟩ := desc_of_job hj
    dsimp only
    split
    · rename_i n x found
      obtain ⟨e, he, accepts⟩ := find_accepts found
      exact reach_stand h idle hd (n := n) rfl (by rw [entry_of_mem h.form he]; exact accepts)
    · exact stand_of_quiet h (complete_quiet idle (quiet_refl s) _)
  · exact h

/-- A retrieval without a segment is set, and searches. -/
theorem setJob_search_stand (h : s.pinsStand H) (idle : s.free c) {j : Job} (hj : j.seg = none) :
    ((s.setJob c j).search c).pinsStand H :=
  have quiet := setJob_quiet idle (quiet_refl s) hj
  search_stand (stand_of_quiet h quiet) (free_of_quiet idle quiet)

theorem cursorTest_stand (h : s.pinsStand H) (idle : s.free c) (cur : Cursor) : (s.cursorTest c cur).pinsStand H := by
  unfold State.cursorTest
  split
  · rename_i q hj
    obtain ⟨d, hd⟩ := desc_of_job hj
    have between : q.current = none := by
      change (s.job c).bind Job.seg = none at idle
      rw [hj] at idle
      exact idle
    dsimp only
    split
    · rename_i x e found
      have member := List.mem_of_find?_eq_some found
      have serial := List.find?_some found
      split
      · rename_i selects
        split
        · refine reach_stand h idle hd (n := cur.serial) rfl ?_
          rw [entry_of_mem h.form member]
          dsimp only at serial
          split at serial
          · exact accepts_of_selects selects ‹_› (of_decide_eq_true serial)
          · cases serial
        · exact search_stand h idle
      · exact setJob_search_stand h idle between
    · exact setJob_search_stand h idle between
  · exact h

end Sys2Proof.Machine
end

section
/-!
SUPPORT. The law of pins through deliveries, verdicts, the ends of reads and decodes, lanes, grants of pins, and the commands
of the Audit Unit (R93, R94, R129, R139 to R145, R165).
-/

namespace Sys2Proof.Machine

variable {H : Prop} {J J' : JobRef → Option SegJob} {E E' : Nat → Entry} {O : List StoreOp} {b s t : State} {c : ChainRef}
  {r : JobRef} {g : SegJob} {x : Nat}

theorem stand_of_kept (h : t.pinsKept H s.segJob) (jobs : t.segJob = s.segJob) : t.pinsStand H := by
  unfold State.pinsStand
  rw [jobs]
  exact h

theorem setAudit_quiet (h : b.quiet s) {v : Audit} (hv : v.scrub = s.audit.scrub) : b.quiet (s.setAudit v) :=
  quiet_trans h (quiet_setAudit hv)

/-! ## Deliveries (R129) -/

/-- A delivery leaves the pins, or its job is over. -/
theorem deliver_stand (h : s.pinsStand H) {q : Retrieval} (hj : s.job c = some (.retrieval q)) (g : SegJob) (i : Nat)
    (rec' : Rec) : (s.deliver c q g i rec').1.pinsStand H
      ∧ ((s.deliver c q g i rec').2 = true → s.quiet (s.deliver c q g i rec').1) := by
  unfold State.deliver
  split
  · exact ⟨h, fun _ => quiet_refl s⟩
  · have placed : ∀ (o : Output) {k : Retrieval}, k.current = q.current →
        s.quiet ((s.emit o).setJob c (.retrieval k)) := fun o k hk =>
      quiet_trans (emit_quiet (quiet_refl s) o) (quiet_setJob (by
        show k.current = (s.job c).bind Job.seg
        rw [hj, hk]
        rfl))
    dsimp only
    split
    · exact ⟨dropSeg_complete_stand (stand_of_quiet h (placed _ (by rfl))) c _, fun e => by cases e⟩
    · exact ⟨stand_of_quiet h (placed _ (by rfl)), fun _ => placed _ (by rfl)⟩

/-! ## Verdicts (R141, R142) -/

theorem state_of_accepts {e : Entry} {n : Nat} (h : e.accepts n = true) :
    e.state = .sealed ∨ e.state = .expiryWait ∨ e.state = .damaged := by
  unfold Entry.accepts at h
  simp only [Bool.and_eq_true, Bool.or_eq_true, decide_eq_true_eq] at h
  rcases h.1 with (e | e) | e
  · exact .inl e
  · exact .inr (.inl e)
  · exact .inr (.inr e)

theorem quarantine_stand (h : s.pinsStand H) (hx : reservedExtents ≤ x)
    (was : (s.entry x).state = .sealed ∨ (s.entry x).state = .expiryWait ∨ (s.entry x).state = .damaged)
    (source serial : Nat) (finder : Finder) (v : Verdict) (port : Option PortId) :
    (s.quarantine x source serial finder v port).pinsStand H := by
  have damaged := restate_kept h hx (f := fun e => { e with state := .damaged, reports := e.reports + 1 }) was
    (.inr (.inr rfl)) rfl rfl rfl ⟨rfl, rfl⟩
  exact stand_of_quiet (stand_of_kept damaged (segJob_modEntry _ _ _))
    (noticeAll_quiet (ask_quiet (quiet_refl _) _ _) _ _)

theorem applyVerdict_stand (h : s.pinsStand H) {n : Nat} (accepts : (s.entry x).accepts n = true) (finder : Finder)
    (port : Option PortId) (journalPass : Bool) (v : Verdict) :
    (s.applyVerdict x finder port journalPass v).pinsStand H := by
  have noted : s.quiet (s.modEntry x (fun e => { e with verify := some (s.today, v.passes) })) :=
    modEntry_quiet (quiet_refl s) x fun _ => rfl
  have stood := stand_of_quiet h noted
  have hx := reserved_le_of_accepts accepts
  have was := state_of_accepts accepts
  rw [← pinView_state (noted.entries x)] at was
  unfold State.applyVerdict
  dsimp only
  split
  · split
    · split
      · have sealed := restate_kept stood hx (f := fun e => { e with state := .sealed }) was (.inl rfl) rfl rfl rfl ⟨rfl, rfl⟩
        exact stand_of_quiet (stand_of_kept sealed (segJob_modEntry _ _ _)) (ask_quiet (quiet_refl _) _ _)
      · exact stand_of_quiet stood (quiet_ite (ask_quiet (quiet_refl _) _ _) (quiet_refl _))
    · split
      · exact stood
      · exact quarantine_stand stood hx was _ _ _ _ _
  · exact stood

theorem takeReport_stand (h : s.pinsStand H) : s.takeReport.pinsStand H := by
  unfold State.takeReport
  split
  · rename_i f rest _
    have taken := stand_of_quiet h (quiet_setAudit (v := { s.audit with reports := rest }) rfl)
    dsimp only
    split
    · rename_i v hv
      split
      · rename_i named
        exact quarantine_stand taken (reserved_le_of_seg hv) (named.2.imp_right .inl) _ _ _ _ _
      · exact taken
    · exact taken
  · exact h

/-! ## The ends of reads and decodes (R94, R128, R130, R139, R144) -/

theorem scrubDone_stand (h : s.pinsKept H (withJob s.segJob .scrub none)) (count : PassCounts → PassCounts) :
    (s.scrubDone count).pinsStand H := by
  unfold State.scrubDone
  dsimp only
  split
  · exact stand_of_quiet (stand_of_scrub h (by rfl)) (ask_quiet (quiet_refl _) _ _)
  · exact stand_of_scrub h (by rfl)

theorem retrievalSegEnd_stand (h : s.pinsStand H) (c : ChainRef) (q : Retrieval) (g : SegJob) (e : SegEnd) :
    (s.retrievalSegEnd c q g e).pinsStand H := by
  have left := dropSeg_pins h (.chain c)
  unfold State.retrievalSegEnd
  dsimp only
  cases e with
  | whole m =>
    obtain ⟨stands, free⟩ := stand_of_setJob left (j := .retrieval { q with whole := q.whole + 1, current := none }) rfl
    exact search_stand stands free
  | failed f =>
    have noted := quiet_setAudit (s := s.dropSeg (.chain c))
      (v := { (s.dropSeg (.chain c)).audit with reports := (s.dropSeg (.chain c)).audit.reports ++ [⟨g.extent, g.serial, f⟩] }) rfl
    have kept := kept_of_calm left noted.1
    rw [← noted.jobs] at kept
    obtain ⟨stands, free⟩ := stand_of_setJob kept (j := .retrieval { q with failed := q.failed + 1, current := none }) rfl
    exact search_stand stands free

theorem verifySegEnd_stand (h : s.pinsStand H) {v : Verify} (hj : s.job c = some (.verify v)) (e : SegEnd) :
    (s.verifySegEnd c v e).pinsStand H := by
  have own : s.segJob (.chain c) = some v.seg := by
    show (s.job c).bind Job.seg = _
    rw [hj]
    rfl
  unfold State.verifySegEnd
  dsimp only
  split
  · exact dropSeg_complete_stand (applyVerdict_stand h (h.law.stands _ _ own) _ _ _ _) c _
  · exact h

theorem scrubSegEnd_stand (h : s.pinsStand H) (hg : s.audit.scrub = some g) (e : SegEnd) :
    (s.scrubSegEnd g e).pinsStand H := by
  unfold State.scrubSegEnd
  split
  · exact scrubDone_stand (dropSeg_pins (applyVerdict_stand h (h.law.stands .scrub g hg) _ _ _ _) .scrub) _
  · exact h

theorem segEnded_stand (h : s.pinsStand H) (r : JobRef) (e : SegEnd) : (s.segEnded r e).pinsStand H := by
  unfold State.segEnded
  split
  · split
    · split
      · exact retrievalSegEnd_stand h _ _ _ _
      · exact h
    · rename_i hj; exact verifySegEnd_stand h hj e
    · exact h
  · split
    · rename_i hg; exact scrubSegEnd_stand h hg e
    · exact h

/-- A job's segment has been read: it waits for a lane, or decodes. -/
def SegPhase.pastRead : SegPhase → Prop
  | .waitLane _ _ => True
  | .decoding _ _ => True
  | _ => False

theorem phase_of_pastRead {p : SegPhase} (h : p.pastRead) :
    p ≠ .reading ∧ p ≠ .waitPlace ∧ p ≠ .pinned ∧ p ≠ .waitPin := by
  refine ⟨?_, ?_, ?_, ?_⟩ <;> exact fun e => by rw [e] at h; exact h

theorem decodeStands_stand (h : s.pinsStand H) (hg : s.segJob r = some g) (past : g.phase.pastRead) (hd : SegHeader)
    (d : DecodeStep) : (s.decodeStands r hd d).pinsStand H := by
  have own : ∀ k, s.segJob r = some k → k.phase ≠ .reading ∧ k.phase ≠ .waitPlace ∧ k.phase ≠ .pinned ∧ k.phase ≠ .waitPin :=
    fun k hk => by rw [hg] at hk; cases hk; exact phase_of_pastRead past
  unfold State.decodeStands
  cases d with
  | more d =>
    exact setPhase_stand h hg (own g hg).2.2.2 (fun e => by cases e)
      (.inr (.inr (no_reads h.law fun k hk => ⟨(own k hk).1, (own k hk).2.1⟩)))
      fun e he => not_granted h.law (fun k hk => (own k (he ▸ hk)).2.2.1) _
  | whole m => exact segEnded_stand h r _
  | failure i => exact segEnded_stand h r _

theorem decodeGranted_stand (h : s.pinsStand H) (r : JobRef) : (s.decodeGranted r).pinsStand H := by
  unfold State.decodeGranted
  split
  · rename_i g hg
    split
    · rename_i hd body hp
      have running := jobState_quiet (quiet_refl s) r (st := .running) (by decide)
      exact decodeStands_stand (stand_of_quiet h running) (by rw [running.jobs]; exact hg) (by rw [hp]; trivial) _ _
    · exact h
  · exact h

theorem decodeOne_stand (h : s.pinsStand H) (r : JobRef) : (s.decodeOne r).pinsStand H := by
  unfold State.decodeOne
  split
  · rename_i g hg
    split
    · rename_i hd d hp
      split
      · rename_i record d' _
        have handed : (s.handRecord r g d.index record).1.pinsStand H
            ∧ ((s.handRecord r g d.index record).2 = true → s.quiet (s.handRecord r g d.index record).1) := by
          unfold State.handRecord
          split
          · split
            · rename_i hj; exact deliver_stand h hj _ _ _
            · exact ⟨h, fun _ => quiet_refl s⟩
          · exact ⟨h, fun _ => quiet_refl s⟩
        dsimp only
        split
        · rename_i on
          exact decodeStands_stand handed.1 (by rw [(handed.2 on).jobs]; exact hg) (by rw [hp]; trivial) _ _
        · exact handed.1
      · exact segEnded_stand h r _
    · exact h
  · exact h

/-! ## A segment READ that completes (R83) -/

/-- The job of a READ in flight on a channel has no other. -/
theorem unread_of_flight (h : PinLaw J s.entry s.storeOps) {ch : Channel} {again : Bool}
    (flight : s.inFlight ch = some (.segRead x (some r) again)) :
    (s.popQueue ch).storeOps.countP (StoreOp.readsFor r) = 0 := by
  have one := h.oneRead r
  rw [(storeOps_popQueue flight).countP_eq, List.countP_cons_of_pos (by simp [StoreOp.readsFor])] at one
  omega

theorem mem_of_flight {ch : Channel} {o : StoreOp} (flight : s.inFlight ch = some o) : o ∈ s.storeOps :=
  (storeOps_popQueue flight).mem_iff.mpr List.mem_cons_self

theorem readDone_stand (h : s.pinsStand H) (hg : s.segJob r = some g) (phase : g.phase = .reading ∨ g.phase = .waitPlace)
    (unread : s.storeOps.countP (StoreOp.readsFor r) = 0) (hd : SegHeader) (body : List Bool) :
    (s.readDone r hd body).pinsStand H := by
  have waits : (s.setPhase r (.waitLane hd body)).pinsStand H :=
    setPhase_stand h hg (by rcases phase with e | e <;> rw [e] <;> decide) (fun e => by cases e) (.inr (.inr unread))
      fun e he => not_granted h.law (fun k hk => by
        rw [← he, hg] at hk
        cases hk
        rcases phase with e | e <;> rw [e] <;> decide) _
  unfold State.readDone
  cases r with
  | chain c => exact stand_of_quiet waits (waitForLane_quiet (quiet_refl _) c)
  | scrub => exact stand_of_quiet waits (frame_quiet (quiet_refl _) (setArbiter_frame _ _) (by decide))

theorem completeSegRead_stand (h : s.pinsStand H) (ch : Channel) (outcome : ReadOutcome) :
    (s.completeSegRead ch outcome).pinsStand H := by
  have quiet := popQueue_quiet (quiet_refl s) ch
  have popped := stand_of_quiet h quiet
  unfold State.completeSegRead
  split
  · rename_i x r again flight
    obtain ⟨g, hg, hgx, phase⟩ := h.law.reads x r again (mem_of_flight flight)
    have unread := unread_of_flight h.law flight
    rw [← quiet.jobs] at hg
    unfold State.segReadDone
    split
    · exact readDone_stand popped hg phase unread _ _
    · split
      · exact segEnded_stand popped r _
      · rw [← hgx]
        exact startRead_stand popped hg (by rcases phase with e | e <;> rw [e] <;> decide) unread
          (fun d he => not_granted popped.law (fun k hk => by
            rw [← he, hg] at hk
            cases hk
            rcases phase with e | e <;> rw [e] <;> decide) _) true
  · exact popped
  · exact h

/-! ## Lanes (R165) -/

theorem charge_quiet (h : b.quiet s) (p : PortId) (n : Nat) : b.quiet (s.charge p n) := by
  have charged := modPort_quiet h p (f := fun q => { q with tag := q.tag + n * q.interval }) rfl
  unfold State.charge
  dsimp only
  split
  · refine frame_quiet (quiet_trans charged ?_) (setArbiter_frame _ _) (by decide)
    exact quiet_of_chains (setPorts_frame _ _) (by decide) fun c => by simp [State.chain, State.port]
  · exact frame_quiet charged (setArbiter_frame _ _) (by decide)

theorem granted_stand (h : s.pinsStand H) (c : ChainRef) : (s.granted c).pinsStand H := by
  unfold State.granted
  split
  · rename_i f hj
    have free := free_of_job hj rfl
    unfold State.feedGranted
    exact stand_of_quiet h (quiet_ite (setChainState_quiet (setJob_quiet free (quiet_refl s) rfl) c (by decide))
      (endFeed_quiet (quiet_refl s) c _ _))
  · exact decodeGranted_stand h _

theorem grantLane_stand (h : s.pinsStand H) : s.grantLane.pinsStand H := by
  unfold State.grantLane
  split
  · rename_i l _
    split
    · rename_i c _
      refine granted_stand (stand_of_quiet h ?_) c
      exact frame_quiet (frame_quiet (charge_quiet (quiet_refl s) _ _) (leaveArbiter_frame _ c) (by decide))
        (setArbiter_frame _ _) (by decide)
    · split
      · refine decodeGranted_stand (stand_of_quiet h ?_) _
        exact frame_quiet (frame_quiet (quiet_refl s) (setArbiter_frame _ _) (by decide)) (setArbiter_frame _ _) (by decide)
      · exact h
  · exact h

/-! ## Requests granted a pin (R93, R128, R139) -/

/-- A granted request is taken off the list of its entry. -/
theorem pinLaw_taken (h : PinLaw J E O) {l : List ChainRef} (sub : l.Sublist (E x).granted)
    (hx : E' x = { E x with granted := l }) (hE : ∀ y, y ≠ x → E' y = E y) : PinLaw J E' O := by
  have same : ∀ y, (E' y).pinWait = (E y).pinWait ∧ (E' y).granted.Sublist (E y).granted ∧ (E' y).pins = (E y).pins
      ∧ (∀ n, (E' y).accepts n = (E y).accepts n) ∧ (E' y).state = (E y).state := by
    intro y
    by_cases e : y = x
    · subst e; rw [hx]; exact ⟨rfl, sub, rfl, fun _ => rfl, rfl⟩
    · rw [hE y e]; exact ⟨rfl, List.Sublist.refl _, rfl, fun _ => rfl, rfl⟩
  have waits := fun y => (same y).1
  have grants := fun y => (same y).2.1
  have pins := fun y => (same y).2.2.1
  have accepts := fun y => (same y).2.2.2.1
  have state := fun y => (same y).2.2.2.2
  refine ⟨fun q k hk => ?_, fun y => ?_, fun y d hd => ?_, fun q k hk hp => ?_, fun y hn => ?_, fun y d hd => ?_,
    fun y => ?_, h.reads, h.oneRead, fun b y hm => ?_, fun y hm => ?_, h.oneAlters⟩
  · rw [accepts]; exact h.stands q k hk
  · rw [pins]; exact h.counted y
  · rw [waits] at hd; exact h.waiting y d hd
  · rw [waits]; exact h.listed q k hk hp
  · rw [waits] at hn; rw [pins]; exact h.held y hn
  · exact h.granted y d ((grants y).subset hd)
  · rw [waits]; exact ⟨(h.once y).1, (h.once y).2.sublist (grants y)⟩
  · rw [state]; exact h.writes b y hm
  · rw [state]; exact h.erases y hm

/-- A retrieval gives back its pin without a READ, and searches on. -/
theorem giveBack_stand (h : s.pinsStand H) (hg : s.segJob (.chain c) = some g) (pinned : g.phase = .pinned)
    (grants : c ∉ (s.entry g.extent).granted) {j : Job} (hj : j.seg = none) :
    (((s.setJob c j).releasePin g.extent).search c).pinsStand H := by
  have ends := setJob_ends s c hj
  have entry : (s.setJob c j).entry = s.entry := rfl
  have waits := not_waiting (c := c) h.law (fun k hk => by rw [hg] at hk; cases hk; rw [pinned]; decide) g.extent
  have unread := no_reads (r := .chain c) h.law fun k hk => by rw [hg] at hk; cases hk; rw [pinned]; decide
  have left : PinLaw (withJob s.segJob (.chain c) none) s.entry s.storeOps :=
    pinLaw_drop h.law (fun y => by
      by_cases e : y = g.extent
      · subst e
        exact ⟨(filter_absent fun d he => by cases he; exact waits).symm,
          (filter_absent fun d he => by cases he; exact grants).symm, rfl, fun _ => rfl, rfl⟩
      · exact without_of_eq h.law hg e rfl) (opsWithin_refl _) unread
  have kept : (s.setJob c j).pinsKept H (withJob (s.setJob c j).segJob (.chain c) none) := by
    rw [ends.jobs, withJob_withJob]
    exact kept_of_calm ⟨left, h.idle, h.form, h.holds⟩ ends.1
  have spare : sparePin (withJob (s.setJob c j).segJob (.chain c) none) (s.setJob c j).entry g.extent := by
    rw [ends.jobs, withJob_withJob, entry]
    exact sparePin_of_drop h.law hg (by rw [pinned]; decide) rfl
  obtain ⟨own, released⟩ := releasePin_pins kept spare
  have idle := own _ (.inl rfl)
  rw [ends.jobs, withJob_self] at idle
  rw [withJob_eq_self idle] at released
  exact search_stand released idle

theorem pinGranted_stand (h : s.pinsStand H) (hg : s.segJob (.chain c) = some g) (pinned : g.phase = .pinned)
    (grants : c ∉ (s.entry g.extent).granted) : (s.pinGranted c g.extent).pinsStand H := by
  unfold State.pinGranted
  split
  · dsimp only
    split
    · exact goOnPinned_stand h hg pinned grants
    · exact giveBack_stand h hg pinned grants rfl
  · exact goOnPinned_stand h hg pinned grants
  · exact h

theorem grantPin_stand (h : s.pinsStand H) (x : Nat) : (s.grantPin x).pinsStand H := by
  unfold State.grantPin
  split
  · rename_i c l grants
    obtain ⟨g, hg, hgx, pinned⟩ := h.law.granted x c (by rw [grants]; exact List.mem_cons_self)
    have hx : reservedExtents ≤ x := hgx ▸ reserved_le_of_accepts (h.law.stands _ _ hg)
    have once := (h.law.once x).2
    rw [grants, List.nodup_cons] at once
    have taken : (s.modEntry x (fun e => { e with granted := l })).pinsKept H s.segJob :=
      kept_modEntry h hx (pinLaw_taken h.law (l := l) (by rw [grants]; exact List.sublist_cons_self c l) (by rw [if_pos rfl])
        fun y e => if_neg e) (holds_of_same (x := x) h fun counted => ⟨counted, rfl, rfl⟩)
    have stands := stand_of_kept taken (segJob_modEntry _ _ _)
    subst hgx
    refine pinGranted_stand stands (by rw [segJob_modEntry]; exact hg) pinned ?_
    rw [entry_modEntry _ _ _ _ hx, if_pos rfl]
    exact once.1
  · exact h

/-! ## VERIFY, SCRUB_SET and SCRUB_CONSIDER (R139, R143, R144) -/

theorem beginScrub_stand (h : s.pinsStand H) (idle : s.audit.scrub = none) {n : Nat} (accepts : (s.entry x).accepts n = true) :
    (s.beginScrub x n).pinsStand H := by
  have hx := reserved_le_of_accepts accepts
  have come := come_kept (r := .scrub) (g := ⟨x, n, .pinned⟩) (f := fun e => { e with pins := e.pins + 1 }) h idle accepts rfl
    (.inl ⟨rfl, rfl⟩)
  unfold State.beginScrub
  dsimp only
  generalize hu : s.modEntry x (fun e => { e with pins := e.pins + 1 }) = u at come ⊢
  have jobs : (u.setAudit { u.audit with scrub := some ⟨x, n, .pinned⟩ }).segJob
      = withJob s.segJob .scrub (some ⟨x, n, .pinned⟩) := by
    funext q
    cases q with
    | scrub => rfl
    | chain d => subst hu; exact congrFun (segJob_modEntry s x _) (.chain d)
  have stands : (u.setAudit { u.audit with scrub := some ⟨x, n, .pinned⟩ }).pinsStand H := by
    unfold State.pinsStand
    rw [jobs]
    exact kept_of_calm come (setAudit_calm u _)
  have own : (u.setAudit { u.audit with scrub := some ⟨x, n, .pinned⟩ }).segJob .scrub = some ⟨x, n, .pinned⟩ := rfl
  exact startRead_stand stands own (fun e => by cases e)
    (no_reads stands.law fun k hk => by
      rw [own] at hk
      cases hk
      exact ⟨(fun e => by cases e), fun e => by cases e⟩) (fun d he => by cases he) false

theorem considerScrub_stand (h : s.pinsStand H) : s.considerScrub.pinsStand H := by
  unfold State.considerScrub
  split
  · rename_i due
    have idle : s.audit.scrub = none := due.2.2.1
    have done := fun count => scrubDone_stand (kept_of_stand (r := .scrub) h idle) count
    dsimp only
    split
    · rename_i v hv
      split
      · rename_i state
        split
        · refine beginScrub_stand h idle ?_
          unfold Entry.accepts
          rw [hv]
          rcases state with e | e <;> simp [e]
        · exact done _
      · exact done _
    · exact done _
  · exact h

theorem endScrub_stand (h : s.pinsStand H) (idle : s.free c) : s.endScrub.pinsStand H ∧ s.endScrub.free c := by
  obtain ⟨free, kept⟩ := dropSeg_leaves h .scrub
  unfold State.endScrub
  exact ⟨stand_of_scrub kept rfl, free _ idle⟩

end Sys2Proof.Machine
end

section
/-!
SUPPORT. The law of pins and hold counts through the entries of the catalogue: the scanner, the reports of durability, the
extents allocated, written, erased and retired, and the holds (R77 to R85, R90, R92, R111 to R122, R146).
-/

namespace Sys2Proof.Machine

variable {H : Prop} {J : JobRef → Option SegJob} {b s t : State} {c : ChainRef} {r : JobRef} {g : SegJob} {x : Nat}

/-! ## Entries that no job stands on -/

theorem reserved_le_of_state (h : (s.entry x).state ≠ .reserved) : reservedExtents ≤ x := by
  rcases Nat.lt_or_ge x reservedExtents with hx | hx
  · rw [entry_reserved s hx] at h
    exact absurd rfl h
  · exact hx

/-- Whether an entry takes part in the counting of holds depends on its state alone. -/
theorem counted_of_state {e : Entry} {st : EntryState} (h : e.state = st) :
    e.counted = ({ Entry.free with state := st } : Entry).counted := by
  unfold Entry.counted
  rw [h]

/-- An entry out of the counting of holds accepts no pin (R92, R93). -/
theorem closed_of_uncounted {e : Entry} (h : e.counted = false) (n : Nat) : e.accepts n = false := by
  change (e.counted && _) = false
  rw [h, Bool.false_and]

/-- An entry that accepts no pin is changed, where no WRITE and no ERASE of it stands. -/
theorem closed_kept (h : s.pinsKept H J)
    (was : (s.entry x).counted = false)
    (hx : reservedExtents ≤ x) (still : s.storeOps.countP (StoreOp.alters x) = 0) {f : Entry → Entry}
    (lists : (f (s.entry x)).pinWait ⊆ (s.entry x).pinWait ∧ (f (s.entry x)).granted ⊆ (s.entry x).granted)
    (holds : (f (s.entry x)).counted = true → ∀ v, (f (s.entry x)).seg = some v → H →
      (f (s.entry x)).holds = s.coverCount v) :
    (s.modEntry x f).pinsKept H J := by
  have free := unoccupied_of_closed h.law fun n => closed_of_uncounted was n
  obtain ⟨waits, grants⟩ := lists_of_unoccupied h.law free
  refine kept_modEntry h hx (pinLaw_entries h.law fun y => ?_) holds
  by_cases e : y = x
  · subst e
    refine ⟨?_, .inl free, .inr still⟩
    rw [if_pos rfl, waits, grants]
    rw [waits, grants] at lists
    exact ⟨List.subset_nil.mp lists.1, List.subset_nil.mp lists.2⟩
  · exact entriesFollow_of_eq (if_neg e)

/-- The operation in flight on an extent is gone from the store. -/
theorem unaltered_of_flight (h : PinLaw J s.entry s.storeOps) {ch : Channel} {o : StoreOp} (flight : s.inFlight ch = some o)
    (alters : o.alters x = true) : (s.popQueue ch).storeOps.countP (StoreOp.alters x) = 0 := by
  have one := h.oneAlters x
  rw [(storeOps_popQueue flight).countP_eq, List.countP_cons_of_pos alters] at one
  omega

/-- An operation requested under a law that holds with it. -/
theorem request_stand (h : s.pinsStand H) (ch : Channel) {op : StoreOp} (law : PinLaw s.segJob s.entry (op :: s.storeOps)) :
    (s.request ch op).pinsStand H := by
  have frame := request_frame s ch op
  have chains := chain_of_ports (frame.ports (by decide))
  have jobs : (s.request ch op).segJob = s.segJob := segJob_of_parts (fun c => by rw [job_of_chain (chains c)])
    (by rw [frame.audit (by decide)])
  have entry : (s.request ch op).entry = s.entry := funext (entry_of_catalogue (frame.catalogue (by decide)))
  refine stand_of_kept ⟨?_, idle_of_chains chains h.idle, ?_, fun hH => ?_⟩ jobs
  · rw [entry]
    exact pinLaw_ops law (opsWithin_of_perm (storeOps_request s ch op))
  · unfold State.catalogueForm
    rw [frame.catalogue (by decide)]
    exact h.form
  · unfold State.holdsCounted
    rw [entry, frame.settings (by decide)]
    obtain ⟨rising, exact⟩ := h.holds hH
    exact ⟨rising, fun x v counted hv => (exact x v counted hv).trans
      (coverCount_of_holds (by rw [frame.settings (by decide)]) v).symm⟩

/-! ## The Expiry Scanner (R118 to R121) -/

theorem setScanner_quiet (h : b.quiet s) (v : Scanner) : b.quiet (s.setScanner v) :=
  frame_quiet h (setScanner_frame s v) (by decide)

theorem visit_stand (h : s.pinsStand H) (x : Nat) : (s.visit x).pinsStand H := by
  have restated := fun (f : Entry → Entry) was becomes seg pins holds lists hx =>
    stand_of_kept (restate_kept (x := x) (f := f) h hx was becomes seg pins holds lists) (segJob_modEntry s x f)
  unfold State.visit
  dsimp only
  split
  · rename_i v hv
    have hx := reserved_le_of_seg hv
    split
    · rename_i was
      split
      · exact h
      · split
        · exact h
        · split
          · rename_i pins
            obtain ⟨jobs, kept⟩ := retire_pins h hv (unoccupied_of_pins h.law pins) (.inl was)
            exact stand_of_kept kept jobs
          · exact stand_of_quiet (restated (fun e => { e with state := .expiryWait }) (.inl was) (.inr (.inl rfl)) rfl rfl
              rfl ⟨rfl, rfl⟩ hx) (setScanner_quiet (quiet_refl _) _)
    · rename_i was
      split
      · obtain ⟨jobs, kept⟩ := retest_pins h x
        exact stand_of_kept kept jobs
      · split
        · exact h
        · exact restated (fun e => { e with state := .sealed }) (.inr (.inl was)) (.inl rfl) rfl rfl rfl ⟨rfl, rfl⟩ hx
    · exact h
  · exact h

theorem scanVisit_stand (h : s.pinsStand H) : s.scanVisit.pinsStand H := by
  unfold State.scanVisit
  split
  · have moved := stand_of_quiet (visit_stand h s.scanner.position) (setScanner_quiet (quiet_refl _)
      { (s.visit s.scanner.position).scanner with position := s.scanner.position + 1 })
    dsimp only
    split
    · unfold State.endWalk
      exact stand_of_quiet moved (quiet_ite (setScanner_quiet (quiet_refl _) _) (setScanner_quiet (quiet_refl _) _))
    · exact moved
  · exact h

/-! ## Reports of durability (R90, R122, R149) -/

theorem tellFile_quiet (h : b.quiet s) (v : SegFields) : b.quiet (s.tellFile v) := by
  unfold State.tellFile
  split
  · exact handOver_quiet (modFile_quiet h _ _) _
  · exact h

theorem sealDurable_stand (h : s.pinsStand H) (x n : Nat) (toFile : Bool) : (s.sealDurable x n toFile).pinsStand H := by
  unfold State.sealDurable
  split
  · rename_i v hv
    split
    · rename_i named
      have was := named.1
      have still := no_alters h.law (x := x) (by rw [was]; decide) (by rw [was]; decide)
      have sealed := stand_of_kept (closed_kept (x := x)
        (f := fun e => { e with state := .sealed, sealJournal := none, holds := s.coverCount v }) h
        (counted_of_state was) (reserved_le_of_seg hv) still ⟨List.Subset.refl _, List.Subset.refl _⟩ fun _ w hw _ => by
          have same : v = w := Option.some.inj (hv.symm.trans hw)
          rw [same]) (segJob_modEntry _ _ _)
      have counted := recomputeL_quiet (quiet_refl (s.modEntry x
        (fun e => { e with state := .sealed, sealJournal := none, holds := s.coverCount v })))
      exact stand_of_quiet sealed (quiet_ite (tellFile_quiet counted v) counted)
    · exact h
  · exact h

theorem retireDurable_stand (h : s.pinsStand H) (x n : Nat) : (s.retireDurable x n).pinsStand H := by
  unfold State.retireDurable
  split
  · rename_i named
    have was := named.1
    have hx : reservedExtents ≤ x := reserved_le_of_state (by rw [was]; decide)
    have still := no_alters h.law (x := x) (by rw [was]; decide) (by rw [was]; decide)
    have erasing := stand_of_kept (closed_kept (x := x)
      (f := fun e => { e with state := .erasing, retireJournal := none }) h (counted_of_state was) hx still
      ⟨List.Subset.refl _, List.Subset.refl _⟩ fun counted => by cases counted) (segJob_modEntry _ _ _)
    refine request_stand erasing _ (pinLaw_alter (x := x) erasing.law ?_ (.inr ⟨rfl, ?_⟩))
    · rw [storeOps_of_store ((modEntry_frame s x _).store (by decide))]
      exact still
    · rw [entry_modEntry _ _ _ _ hx, if_pos rfl]
  · exact h

theorem reportDurable_stand (h : s.pinsStand H) (e : JEntry) : (s.reportDurable e).pinsStand H := by
  unfold State.reportDurable
  split
  · exact sealDurable_stand h _ _ _
  · exact sealDurable_stand h _ _ _
  · exact retireDurable_stand h _ _
  · exact retireDurable_stand h _ _
  · exact h

theorem stand_foldl {α : Type} {f : State → α → State} (hf : ∀ (s : State) a, s.pinsStand H → (f s a).pinsStand H)
    (h : s.pinsStand H) (l : List α) : (l.foldl f s).pinsStand H :=
  List.foldlRecOn (motive := State.pinsStand H) l f h fun s hs a _ => hf s a hs

theorem pageWritten_stand (h : s.pinsStand H) (i : Fin 2) : (s.pageWritten i).pinsStand H := by
  have flashed := fun v => frame_quiet (quiet_refl s) (setFlash_frame s v) (by decide)
  unfold State.pageWritten
  dsimp only
  refine stand_of_quiet (stand_foldl (fun _ e hs => reportDurable_stand hs e) (stand_of_quiet h ?_) _)
    (decideLow_quiet (reserveWait_quiet (quiet_refl _)))
  refine pumpPages_quiet 6 (startPageWrite_quiet (frame_quiet ?_ (advanceWrite_frame _) (by decide)))
  exact setJournal_quiet (flashed _) _

theorem pageFailed_quiet (h : b.quiet s) (i : Fin 2) : b.quiet (s.pageFailed i) := by
  unfold State.pageFailed
  refine startPageWrite_quiet (setJournal_quiet (frame_quiet (setJournal_quiet (frame_quiet h (setFlash_frame _ _) (by decide)) _)
    (advanceWrite_frame _) (by decide)) _)

theorem completePage_stand (h : s.pinsStand H) (ok : Bool) : (s.completePage ok).pinsStand H := by
  unfold State.completePage
  split
  · have popped := popQueue_quiet (quiet_refl s) 0
    split
    · exact pageWritten_stand (stand_of_quiet h popped) _
    · exact stand_of_quiet h (pageFailed_quiet popped _)
  · exact h

/-! ## Extents allocated (R77 to R79) -/

theorem firstFree_free (h : s.catalogueForm) {ch : Channel} (hx : s.firstFree ch = some x) :
    reservedExtents ≤ x ∧ s.entry x = Entry.free := by
  obtain ⟨rfl, data, -⟩ := firstFree_some hx
  exact ⟨data, by rw [entry_of_table data, (lowestAbsent_spec h.1 _).1]; rfl⟩

/-- A seal on the place wait list is no operation of the store. -/
theorem storeOps_eraseSeal (s : State) (full : Bool) :
    (s.setStore { s.store with placeWait := s.store.placeWait.erase .seal, full := full }).storeOps = s.storeOps := by
  unfold State.storeOps
  refine congrArg (_ ++ ·) ?_
  rw [State.setStore_store]
  dsimp only
  induction s.store.placeWait with
  | nil => rfl
  | cons q l ih =>
    rw [List.erase_cons]
    rcases q with ⟨k, o⟩ | _
    · simp only [List.filterMap_cons]
      simpa using ih
    · rfl

/-- A FREE extent becomes WRITING, and its WRITE joins the queue of its channel. -/
theorem allocated_stand (h : s.pinsStand H) (hx : reservedExtents ≤ x) (free : s.entry x = Entry.free) {e : Entry}
    (writing : e.state = .writing) (lists : e.pinWait = [] ∧ e.granted = []) (ch : Channel) (k : Nat) (full : Bool) :
    let w := s.setEntry x e
    let u := w.setStore { w.store with placeWait := w.store.placeWait.erase .seal, full := full }
    (u.setQueue ch (u.queue ch ++ [.segWrite k x])).pinsStand H := by
  have still := no_alters h.law (x := x) (by rw [free]; decide) (by rw [free]; decide)
  have written : (s.modEntry x (fun _ => e)).pinsStand H :=
    stand_of_kept (closed_kept h (by rw [free]; rfl) hx still (by rw [lists.1, lists.2]; exact ⟨List.nil_subset _, List.nil_subset _⟩)
      fun counted => by rw [counted_of_state writing] at counted; cases counted) (segJob_modEntry _ _ _)
  have named : (s.modEntry x (fun _ => e)).entry x = e := by rw [entry_modEntry _ _ _ _ hx, if_pos rfl]
  have store := (modEntry_frame s x (fun _ => e)).store (by decide)
  change (s.setEntry x e).store = s.store at store
  change (s.setEntry x e).pinsStand H at written
  change (s.setEntry x e).entry x = e at named
  intro w u
  change w.pinsStand H at written
  change w.entry x = e at named
  have law := pinLaw_alter (x := x) (o := .segWrite k x) written.law (by rw [storeOps_of_store store]; exact still)
    (.inl ⟨k, rfl, by rw [named]; exact writing⟩)
  have joined := storeOps_joined (w.setStore { w.store with placeWait := w.store.placeWait.erase .seal, full := full }) ch
    (.segWrite k x)
  rw [storeOps_eraseSeal] at joined
  exact ⟨pinLaw_ops law (opsWithin_of_perm joined), written.idle, written.form, written.holds⟩

theorem allocate_stand (h : s.pinsStand H) (ch : Channel) : (s.allocate ch).pinsStand H := by
  unfold State.allocate
  split
  · rename_i k rest x _ found
    split
    · split
      · rename_i v _ _ hd attempt _ _
        obtain ⟨hx, free⟩ := firstFree_free h.form found
        have staged := setBuf_quiet (frame_quiet (quiet_refl s) (setStager_frame s { s.stager with seals := rest }) (by decide))
          k { v with state := .sealing hd attempt (some x) }
        exact allocated_stand (stand_of_quiet h staged) hx free
          (e := { Entry.free with state := .writing, seg := some hd.seg }) rfl ⟨rfl, rfl⟩ ch k false
      · exact h
    · exact h
  · exact h

/-- Seals that wait for queue places are no operations of the store. -/
theorem sealWaits_quiet (h : b.quiet s) : b.quiet s.sealWaits := by
  refine quiet_trans h (quiet_of_store (setStore_frame s _) (by decide) ?_)
  have seals : ∀ n, (List.replicate n PlaceReq.seal).filterMap (fun q => match q with | .op _ o => some o | .seal => none) = [] :=
    fun n => List.filterMap_eq_nil_iff.mpr fun q hq => by rw [List.eq_of_mem_replicate hq]
  have same : s.sealWaits.storeOps = s.storeOps := by
    unfold State.sealWaits State.storeOps
    rw [State.setStore_store]
    refine congrArg (_ ++ ·) ?_
    rw [List.filterMap_append]
    exact (congrArg (_ ++ ·) (seals _)).trans (List.append_nil _)
  show opsWithin s.storeOps s.sealWaits.storeOps
  rw [same]
  exact opsWithin_refl _

theorem storeFull_quiet (h : b.quiet s) : b.quiet s.storeFull := by
  unfold State.storeFull
  refine quiet_trans h (quiet_ite (quiet_refl s) (noticeAll_quiet ?_ _ _))
  exact quiet_of_store (setStore_frame s _) (by decide) (opsWithin_refl _)

theorem sealAllocation_stand (h : s.pinsStand H) : s.sealAllocation.pinsStand H := by
  unfold State.sealAllocation
  split
  · exact h
  · split
    · exact stand_of_quiet h (storeFull_quiet (quiet_refl s))
    · split
      · exact allocate_stand h _
      · exact stand_of_quiet h (sealWaits_quiet (quiet_refl s))

/-! ## Queue places given (R76) -/

/-- A waiting operation that is given a place of its channel stays among the operations of the store. -/
theorem storeOps_given (s : State) (ch : Channel) {k : Channel} {op : StoreOp} (h : PlaceReq.op k op ∈ s.store.placeWait) :
    ((s.setStore { s.store with placeWait := s.store.placeWait.erase (.op k op) }).setQueue ch
      ((s.setStore { s.store with placeWait := s.store.placeWait.erase (.op k op) }).queue ch ++ [op])).storeOps.Perm
        s.storeOps := by
  refine (storeOps_joined _ ch op).trans ?_
  have wait := (List.perm_cons_erase h).filterMap
    (fun q => match q with | PlaceReq.op _ o => some o | PlaceReq.seal => none)
  unfold State.storeOps
  rw [State.setStore_store]
  refine (List.perm_middle.symm).trans (List.Perm.append_left _ ?_)
  exact wait.symm

theorem placeGivenTo_stand (h : s.pinsStand H) {op : StoreOp} (stands : op ∈ s.storeOps) : (s.placeGivenTo op).pinsStand H := by
  unfold State.placeGivenTo
  split
  · rename_i x r again
    obtain ⟨g, hg, -, phase⟩ := h.law.reads _ _ _ stands
    refine stand_of_quiet ?_ (jobState_quiet (quiet_refl _) r (by decide))
    exact setPhase_stand h hg (by rcases phase with e | e <;> rw [e] <;> decide) (by decide) (.inl rfl)
      fun d he => not_granted h.law (fun k hk => by
        rw [← he, hg] at hk
        cases hk
        rcases phase with e | e <;> rw [e] <;> decide) _
  · exact stand_of_quiet h (setChainState_quiet (quiet_refl s) _ (by decide))
  · exact h

theorem givePlace_stand (h : s.pinsStand H) (ch : Channel) : (s.givePlace ch).pinsStand H := by
  unfold State.givePlace
  split
  · split
    · rename_i k op found
      have given := storeOps_given s ch (List.mem_of_find?_eq_some found)
      dsimp only
      refine placeGivenTo_stand (stand_of_quiet h ?_)
        ((storeOps_joined _ ch op).mem_iff.mpr List.mem_cons_self)
      exact quiet_of_store (sameBut_trans (setStore_frame s _) (setQueue_frame _ _ _)) (by decide) (opsWithin_of_perm given)
    · exact allocate_stand h ch
    · exact h
  · exact h

/-! ## Extents written, erased and retired (R80 to R85) -/

theorem setContent_quiet (h : b.quiet s) (x : Nat) (v : ExtentContent) : b.quiet (s.setContent x v) :=
  frame_quiet h (setFlash_frame s _) (by decide)

/-- An extent that accepts no pin and awaits no operation is FREE, or BAD, or JOURNALING. -/
theorem replaced_stand (h : s.pinsStand H)
    (was : (s.entry x).counted = false)
    (hx : reservedExtents ≤ x) (still : s.storeOps.countP (StoreOp.alters x) = 0) {f : Entry → Entry}
    (lists : (f (s.entry x)).pinWait ⊆ (s.entry x).pinWait ∧ (f (s.entry x)).granted ⊆ (s.entry x).granted)
    (becomes : (f (s.entry x)).counted = false) :
    (s.modEntry x f).pinsStand H :=
  stand_of_kept (closed_kept h was hx still lists fun counted => by rw [becomes] at counted; cases counted)
    (segJob_modEntry _ _ _)

theorem retireExtent_stand (h : s.pinsStand H)
    (was : (s.entry x).counted = false)
    (hx : reservedExtents ≤ x) (still : s.storeOps.countP (StoreOp.alters x) = 0) : (s.retireExtent x).pinsStand H := by
  have marked := setSettings_quiet (quiet_refl s) (v := { s.settings with bad := insertNat x s.settings.bad }) rfl
  exact replaced_stand (f := fun _ => { Entry.free with state := .bad }) (stand_of_quiet h marked) was hx still
    ⟨List.nil_subset _, List.nil_subset _⟩ rfl

theorem completeWrite_stand (h : s.pinsStand H) (ch : Channel) (ok : Bool) : (s.completeWrite ch ok).pinsStand H := by
  unfold State.completeWrite
  split
  · rename_i k x flight
    have quiet := popQueue_quiet (quiet_refl s) ch
    have state := h.law.writes k x (mem_of_flight flight)
    have still := unaltered_of_flight h.law flight (x := x) (by simp [StoreOp.alters])
    have hx : reservedExtents ≤ x := reserved_le_of_state (by rw [state]; decide)
    have was : ((s.popQueue ch).entry x).counted = false := counted_of_state state
    have contents := fun v => stand_of_quiet h (setContent_quiet quiet x v)
    dsimp only
    split
    · split
      · rename_i v _ _ hd attempt _ _
        split
        · exact stand_of_quiet (replaced_stand (f := fun e => { e with state := .journaling })
            (contents (.segment hd (headerCheck hd) v.body)) was hx still ⟨List.Subset.refl _, List.Subset.refl _⟩ rfl)
            (ask_quiet (frame_quiet (quiet_refl _) (freeBuf_frame _ _) (by decide)) _ _)
        · unfold State.segFailed
          dsimp only
          exact stand_of_quiet (retireExtent_stand (contents .incomplete) was hx still)
            (ask_quiet (setBuf_quiet (quiet_refl _) _ _) _ _)
      · exact stand_of_quiet h quiet
    · exact stand_of_quiet h quiet
  · exact h

theorem completeErase_stand (h : s.pinsStand H) (ch : Channel) (ok : Bool) : (s.completeErase ch ok).pinsStand H := by
  unfold State.completeErase
  split
  · rename_i x flight
    have quiet := popQueue_quiet (quiet_refl s) ch
    have state := h.law.erases x (mem_of_flight flight)
    have still := unaltered_of_flight h.law flight (x := x) (by simp [StoreOp.alters])
    have hx : reservedExtents ≤ x := reserved_le_of_state (by rw [state]; decide)
    have was : ((s.popQueue ch).entry x).counted = false := counted_of_state state
    have contents := fun v => stand_of_quiet h (setContent_quiet quiet x v)
    dsimp only
    split
    · exact replaced_stand (f := fun _ => Entry.free) (contents _) was hx still
        ⟨List.nil_subset _, List.nil_subset _⟩ rfl
    · exact stand_of_quiet (retireExtent_stand (contents .incomplete) was hx still) (ask_quiet (quiet_refl _) _ _)
  · exact h

end Sys2Proof.Machine
end

section
/-!
SUPPORT. The law of hold counts through placements and releases (R92, R111 to R114).
-/

namespace Sys2Proof.Machine

variable {H : Prop} {s t : State} {x : Nat}

/-! ## Counting in a table -/

theorem countP_tput_absent {α : Type} (p : Nat × α → Bool) {t : Table α} {n : Nat} (absent : tget t n = none) (v : α) :
    (tput t n v).countP p = t.countP p + if p (n, v) then 1 else 0 := by
  induction t with
  | nil => unfold tput; rw [List.countP_cons]
  | cons q t ih =>
    obtain ⟨m, w⟩ := q
    rw [tget_cons] at absent
    unfold tput
    split
    · rw [List.countP_cons]
    · split
      · rename_i e; rw [if_pos e] at absent; cases absent
      · rename_i e
        rw [if_neg e] at absent
        rw [List.countP_cons, List.countP_cons, ih absent]
        omega

theorem countP_tdel_present {α : Type} (p : Nat × α → Bool) {t : Table α} (rising : Table.rising t = true) {n : Nat} {v : α}
    (present : tget t n = some v) : t.countP p = (tdel t n).countP p + if p (n, v) then 1 else 0 := by
  have absent : tget (tdel t n) n = none := by rw [tget_tdel, if_pos rfl]
  have back : tput (tdel t n) n v = t := table_ext (rising_tput (rising_tdel rising n) n v) rising fun m => by
    rw [tget_tput, tget_tdel]
    split
    · rename_i e; rw [e, present]
    · rfl
  rw [← countP_tput_absent p absent v, back]

/-! ## The catalogue under a hold placed or released -/

/-- An entry changed by the counting of a hold: its hold count, and its state where an EXPIRY_WAIT entry is held. -/
structure Entry.recounted (e e' : Entry) : Prop where
  lists : e'.pinWait = e.pinWait ∧ e'.granted = e.granted
  pins : e'.pins = e.pins
  seg : e'.seg = e.seg
  state : e'.state = e.state ∨ (e.state = .expiryWait ∧ e'.state = .sealed)

theorem recounted_counted {e e' : Entry} (h : e.recounted e') : e'.counted = e.counted := by
  rcases h.state with st | ⟨st, st'⟩
  · unfold Entry.counted; rw [st]
  · rw [counted_of_state st, counted_of_state st']; rfl

theorem recounted_accepts {e e' : Entry} (h : e.recounted e') (n : Nat) : e'.accepts n = e.accepts n := by
  change (e'.counted && _) = (e.counted && _)
  rw [recounted_counted h, h.seg]

theorem placedOn_recounted (hold : Hold) (e : Entry) : e.recounted (hold.placedOn e) := by
  unfold Hold.placedOn
  split
  · refine ⟨⟨rfl, rfl⟩, rfl, rfl, ?_⟩
    dsimp only
    split
    · rename_i st; exact .inr ⟨st, rfl⟩
    · exact .inl rfl
  · exact ⟨⟨rfl, rfl⟩, rfl, rfl, .inl rfl⟩

theorem liftedFrom_recounted (hold : Hold) (e : Entry) : e.recounted (hold.liftedFrom e) := by
  unfold Hold.liftedFrom
  split <;> exact ⟨⟨rfl, rfl⟩, rfl, rfl, .inl rfl⟩

theorem covers_of_seg {hold : Hold} {e : Entry} {v : SegFields} (hv : e.seg = some v) : hold.coversEntry e = hold.covers v := by
  unfold Hold.coversEntry
  rw [hv]
  rfl

/-- A hold placed counts once more every entry that it covers and that takes part. -/
theorem placedOn_holds (hold : Hold) {e : Entry} {v : SegFields} (hv : e.seg = some v) (counted : e.counted = true) :
    (hold.placedOn e).holds = e.holds + if hold.covers v then 1 else 0 := by
  unfold Hold.placedOn
  rw [covers_of_seg hv, counted]
  split
  · rename_i c; rw [if_pos c.1]
  · rename_i c; rw [if_neg fun d => c ⟨d, rfl⟩]; rfl

theorem liftedFrom_holds (hold : Hold) {e : Entry} {v : SegFields} (hv : e.seg = some v) (counted : e.counted = true) :
    (hold.liftedFrom e).holds = e.holds - if hold.covers v then 1 else 0 := by
  unfold Hold.liftedFrom
  rw [covers_of_seg hv, counted]
  split
  · rename_i c; rw [if_pos c.1]
  · rename_i c; rw [if_neg fun d => c ⟨d, rfl⟩]; rfl

/-- The catalogue recounted entry by entry. -/
theorem entry_of_mapped {f : Entry → Entry} (hf : ∀ e, e.seg = none → f e = e)
    (cat : t.catalogue = s.catalogue.map (fun p => (p.1, f p.2))) (x : Nat) : t.entry x = f (s.entry x) := by
  rcases Nat.lt_or_ge x reservedExtents with hx | hx
  · rw [entry_reserved t hx, entry_reserved s hx, hf _ rfl]
  · rw [entry_of_table hx, entry_of_table hx, cat, tget_map]
    cases tget s.catalogue x with
    | none => exact (hf _ rfl).symm
    | some e => rfl

/-- The law stands where the catalogue is recounted as the table of holds changes. -/
theorem recounted_stand (h : s.pinsStand H) {f : Entry → Entry} (recounts : ∀ e : Entry, e.recounted (f e))
    (hf : ∀ e, e.seg = none → f e = e) (frame : s.sameBut [.catalogue, .settings, .retention] t)
    (cat : t.catalogue = s.catalogue.map (fun p => (p.1, f p.2)))
    (holds : H → Table.rising t.settings.holds = true ∧ ∀ e v, e.seg = some v → e.counted = true →
      e.holds = s.coverCount v → (f e).holds = t.coverCount v) : t.pinsStand H ∧ t.segJob = s.segJob := by
  have entry := entry_of_mapped hf cat
  have chains := chain_of_ports (frame.ports (by decide))
  have jobs : t.segJob = s.segJob := segJob_of_parts (fun c => by rw [job_of_chain (chains c)]) (by rw [frame.audit (by decide)])
  refine ⟨stand_of_kept ⟨?_, idle_of_chains chains h.idle, ⟨?_, ?_⟩, fun hH => ?_⟩ jobs, jobs⟩
  · rw [storeOps_of_store (frame.store (by decide))]
    refine pinLaw_entries h.law fun y => ?_
    have re := recounts (s.entry y)
    rw [← entry y] at re
    refine ⟨re.lists, .inr ⟨Nat.le_of_eq re.pins.symm, fun n hn => (recounted_accepts re n).trans hn⟩, ?_⟩
    refine re.state.imp_right fun st => no_alters h.law (by rw [st.1]; decide) (by rw [st.1]; decide)
  · rw [cat]; exact rising_map h.form.1 f
  · rw [cat]
    intro p hp
    obtain ⟨q, hq, rfl⟩ := List.mem_map.mp hp
    exact h.form.2 q hq
  · obtain ⟨rising, counts⟩ := holds hH
    refine ⟨rising, fun y v counted hv => ?_⟩
    have re := recounts (s.entry y)
    rw [entry y] at counted hv ⊢
    rw [recounted_counted re] at counted
    rw [re.seg] at hv
    exact counts _ v hv counted ((h.holds hH).2 y v counted hv)

theorem placedOn_of_no_seg (hold : Hold) {e : Entry} (he : e.seg = none) : hold.placedOn e = e := by
  unfold Hold.placedOn Hold.coversEntry
  rw [he]
  rfl

theorem liftedFrom_of_no_seg (hold : Hold) {e : Entry} (he : e.seg = none) : hold.liftedFrom e = e := by
  unfold Hold.liftedFrom Hold.coversEntry
  rw [he]
  rfl

/-! ## HOLD_PLACE and HOLD_RELEASE (R112, R114) -/

theorem refuse_quiet {b : State} {a : At} (hb : b.free (refOf a)) (h : b.quiet s) (st : Status) : b.quiet (s.refuse a st) :=
  complete_quiet hb h _

theorem done_quiet {b : State} {a : At} (hb : b.free (refOf a)) (h : b.quiet s) (r : Results) : b.quiet (s.done a r) :=
  complete_quiet hb h _

theorem placeHold_stand (h : s.pinsStand H) {a : At} (idle : s.free (refOf a)) {slot : Nat} (hold : Hold)
    (absent : H → tget s.settings.holds slot = none) : (s.placeHold a slot hold).pinsStand H := by
  have placed := recounted_stand h (f := hold.placedOn) (placedOn_recounted hold) (fun _ => placedOn_of_no_seg hold)
    (t := ((s.setSettings { s.settings with holds := tput s.settings.holds slot hold }).setRetention
      { s.retention with lastHoldId := hold.id }).setCatalogue (s.catalogue.map (fun p => (p.1, hold.placedOn p.2)))) ?_ rfl
    fun hH => ?_
  · exact stand_of_quiet placed.1 (done_quiet ((congrFun placed.2 _).trans idle) (append_quiet (quiet_refl _) _) _)
  · have frame := sameBut_then (m := [.catalogue, .settings, .retention]) (setSettings_frame s
      { s.settings with holds := tput s.settings.holds slot hold }) (setRetention_frame _ { s.retention with lastHoldId := hold.id })
      (by decide) (by decide)
    exact sameBut_then frame (setCatalogue_frame _ _) (by decide) (by decide)
  · refine ⟨rising_tput (h.holds hH).1 slot hold, fun e v hv counted exact => ?_⟩
    rw [placedOn_holds hold hv counted, exact]
    exact (countP_tput_absent _ (absent hH) hold).symm

theorem takeHold_stand (h : s.pinsStand H) {a : At} (idle : s.free (refOf a)) (source : Option Nat) (lo hi : Nat) :
    (s.takeHold a source lo hi).pinsStand H := by
  have refused := fun st => stand_of_quiet h (refuse_quiet idle (quiet_refl s) st)
  unfold State.takeHold
  split
  · exact refused _
  · split
    · exact refused _
    · rename_i slot free
      split
      · exact refused _
      · exact placeHold_stand h idle _ fun hH => ((lowestFree_spec (h.holds hH).1 64 slot).mp free).2.1

theorem liftHold_stand {acc : State × Nat × Nat} (h : acc.1.pinsStand H) (port : PortId) {p : Nat × Hold}
    (listed : H → tget acc.1.settings.holds p.1 = some p.2) :
    (liftHold port acc p).1.pinsStand H ∧ (liftHold port acc p).1.segJob = acc.1.segJob
      ∧ (liftHold port acc p).1.settings.holds = tdel acc.1.settings.holds p.1 := by
  unfold liftHold
  dsimp only
  have lifted := recounted_stand h (f := p.2.liftedFrom) (liftedFrom_recounted p.2) (fun _ => liftedFrom_of_no_seg p.2)
    (t := (acc.1.setCatalogue (acc.1.catalogue.map (fun q => (q.1, p.2.liftedFrom q.2)))).setSettings
      { acc.1.settings with holds := tdel acc.1.settings.holds p.1 }) ?_ rfl fun hH => ?_
  · have appended := append_quiet (quiet_refl ((acc.1.setCatalogue (acc.1.catalogue.map
      (fun q => (q.1, p.2.liftedFrom q.2)))).setSettings { acc.1.settings with holds := tdel acc.1.settings.holds p.1 }))
      (.holdReleased p.2.id p.2.source p.2.a p.2.b p.2.unknown (acc.1.covered p.2) (acc.1.freed p.2) port)
    exact ⟨stand_of_quiet lifted.1 appended, appended.jobs.trans lifted.2, appended.holds⟩
  · exact sameBut_then (setCatalogue_frame acc.1 _) (setSettings_frame _ _) (by decide) (by decide)
  · have rising := (h.holds hH).1
    refine ⟨rising_tdel rising p.1, fun e v hv counted exact => ?_⟩
    have count := countP_tdel_present (fun q : Nat × Hold => q.2.covers v) rising (listed hH)
    change acc.1.coverCount v = (tdel acc.1.settings.holds p.1).countP (fun q => q.2.covers v) + if p.2.covers v then 1 else 0
      at count
    rw [liftedFrom_holds p.2 hv counted, exact, count, Nat.add_sub_cancel]
    rfl

theorem liftHolds_stand (port : PortId) (l : List (Nat × Hold)) {acc : State × Nat × Nat} (h : acc.1.pinsStand H)
    (listed : H → (l.map Prod.fst).Nodup ∧ ∀ p ∈ l, tget acc.1.settings.holds p.1 = some p.2) :
    (l.foldl (liftHold port) acc).1.pinsStand H ∧ (l.foldl (liftHold port) acc).1.segJob = acc.1.segJob := by
  induction l generalizing acc with
  | nil => exact ⟨h, rfl⟩
  | cons p l ih =>
    obtain ⟨stands, jobs, holds⟩ := liftHold_stand h port (p := p) fun hH => (listed hH).2 p List.mem_cons_self
    have rest := ih stands fun hH => by
      obtain ⟨nodup, all⟩ := listed hH
      rw [List.map_cons, List.nodup_cons] at nodup
      refine ⟨nodup.2, fun q hq => ?_⟩
      rw [holds, tget_tdel, if_neg fun e => nodup.1 (List.mem_map.mpr ⟨q, hq, e⟩)]
      exact all q (List.mem_cons_of_mem p hq)
    exact ⟨rest.1, rest.2.trans jobs⟩

theorem releaseHolds_stand (h : s.pinsStand H) {a : At} (idle : s.free (refOf a)) (id : Nat) :
    (s.releaseHolds a id).pinsStand H := by
  have refused := fun st => stand_of_quiet h (refuse_quiet idle (quiet_refl s) st)
  unfold State.releaseHolds
  dsimp only
  split
  · exact refused _
  · split
    · exact refused _
    · obtain ⟨stands, jobs⟩ := liftHolds_stand a.port (holdsNamed s.settings.holds id) (acc := (s, 0, 0)) h fun hH => by
        have rising := (h.holds hH).1
        have named : Table.rising (holdsNamed s.settings.holds id) = true := rising_filter rising _
        exact ⟨((rising_iff_pairwise _).mp named).imp Nat.ne_of_lt,
          fun p hp => tget_of_mem rising (List.mem_filter.mp hp).1⟩
      exact stand_of_quiet stands (done_quiet ((congrFun jobs _).trans idle) (quiet_refl _) _)

end Sys2Proof.Machine
end

section
/-!
SUPPORT. The law of pins through the Journal's commands and events, the feeds, the ends of chains, and the clock.
-/

namespace Sys2Proof.Machine

variable {H : Prop} {b s t : State} {c : ChainRef}

/-! ## The Journal (R150, R152, R154, R155) -/

theorem readPage_quiet (hb : b.free c) (h : b.quiet s) (j : JournalRead) (slot : Nat) (again : Bool) :
    b.quiet (s.readPage c j slot again) := by
  refine setChainState_quiet (request_quiet (setJob_quiet hb h rfl) 0 rfl) c ?_
  split <;> exact fun e => by cases e

theorem readOn_quiet (hb : b.free c) (n : Nat) (h : b.quiet s) (j : JournalRead) (page : Option (Nat × List StoredEntry)) :
    b.quiet (State.readOn n s c j page) := by
  induction n generalizing s j with
  | zero => exact h
  | succ n ih =>
    unfold State.readOn
    split
    · exact complete_quiet hb h _
    · split
      · exact complete_quiet hb h _
      · dsimp only
        split
        · exact ih (emit_quiet h _) _
        · split
          · exact ih (emit_quiet h _) _
          · exact readPage_quiet hb h _ _ _
        · exact readPage_quiet hb h _ _ _

theorem countFailure_quiet (h : b.quiet s) : b.quiet s.countFailure := setJournal_quiet h _

theorem completePageRead_quiet (s : State) (o : PageOutcome) : s.quiet (s.completePageRead o) := by
  have popped := popQueue_quiet (quiet_refl s) 0
  unfold State.completePageRead
  split
  · split
    · rename_i c _ _ _ j hj
      have free : s.free c := free_of_job hj rfl
      unfold State.pageReadDone
      split
      · exact readOn_quiet free readFuel (setChainState_quiet popped c (by decide)) _ _
      · exact quiet_ite (complete_quiet free (countFailure_quiet popped) _) (readPage_quiet free (countFailure_quiet popped) _ _ _)
    · exact popped
  · exact popped
  · exact quiet_refl s

theorem closePage_quiet (s : State) : s.quiet s.closePage := by
  unfold State.closePage
  split
  · exact quiet_ite (quiet_refl s) (pumpPages_quiet 6 (startPageWrite_quiet (setJournal_quiet (quiet_refl s) _)))
  · exact quiet_refl s

theorem completeJournalErase_quiet (s : State) (ok : Bool) : s.quiet (s.completeJournalErase ok) := by
  have popped := popQueue_quiet (quiet_refl s) 0
  unfold State.completeJournalErase
  split
  · refine quiet_ite ?_ (request_quiet (countFailure_quiet popped) 0 rfl)
    exact startPageWrite_quiet (setJournal_quiet (frame_quiet popped (setFlash_frame _ _) (by decide)) _)
  · exact quiet_refl s

theorem release_quiet (h : b.quiet s) (n : Nat) : b.quiet (s.release n) := by
  have released := setSettings_quiet h (v := { s.settings with release := n }) rfl
  unfold State.release State.eraseReleased
  dsimp only
  refine decideLow_quiet (reserveWait_quiet (quiet_trans released (quiet_foldl (fun s x => ?_) four _)))
  exact quiet_ite (request_quiet (setJournal_quiet (quiet_refl s) _) 0 rfl) (quiet_refl s)

theorem popAppend_quiet (h : b.quiet s) : b.quiet s.popAppend := setJournal_quiet h _

theorem serveRecord_quiet (h : b.quiet s) (c : ChainRef) : b.quiet (s.serveRecord c) := by
  unfold State.serveRecord
  split
  · rename_i f hf
    have free := free_of_feed hf
    split
    · refine quiet_trans h (quiet_ite ?_ (nextAppend_quiet (takeAndMove_quiet free (popAppend_quiet ?_) _ _)))
      · exact nextAppend_quiet (frame_quiet (quiet_refl s) (joinBufferWait_frame s c) (by decide))
      · exact frame_quiet (quiet_refl s) (setStager_frame s _) (by decide)
    · exact h
  · exact h

theorem serveAppend_quiet (s : State) : s.quiet s.serveAppend := by
  have popped := popAppend_quiet (quiet_refl s)
  unfold State.serveAppend
  split
  · refine quiet_ite ?_ (quiet_refl s)
    split
    · exact nextAppend_quiet (appendWith_quiet popped _ _)
    · exact serveRecord_quiet (quiet_refl s) _
    · exact nextAppend_quiet (commitPolicy_quiet popped _)
  · exact quiet_refl s

/-! ## Feeds -/

theorem haltAt_quiet (h : b.quiet s) (f : Feed) (kind : FaultKind) (r : Option (Seq × Nat)) (found : Option Nat) :
    b.quiet (s.haltAt c f kind r found) := by
  unfold State.haltAt
  split
  · exact endFeed_quiet (notice_quiet (modFile_quiet (modStream_quiet h _ _) _ _) _ _ _) c _ _
  · exact h

theorem acceptTrailer_quiet (hb : b.free c) (h : b.quiet s) (f : Feed) (tr : Trailer) : b.quiet (s.acceptTrailer c f tr) := by
  unfold State.acceptTrailer
  exact handOver_quiet (endFeed_quiet (setJob_quiet hb (handOff_quiet (modFile_quiet h _ _) _) rfl) c _ _) _

theorem framing_quiet (hb : b.free c) (h : b.quiet s) (f : Feed) (st : Stream) : b.quiet (s.framing c f st) := by
  have flagged : b.quiet (s.raise f.stream .framing) := modStream_quiet h _ _
  unfold State.framing
  exact quiet_ite (moveFeed_quiet (setJob_quiet hb (modFile_quiet flagged _ _) rfl) c _) (haltAt_quiet flagged _ _ _ _)

theorem trailerPlace_quiet (hb : b.free c) (h : b.quiet s) (f : Feed) (st : Stream) (n : Nat) (tr : Trailer) :
    b.quiet (s.trailerPlace c f st n tr) := by
  have flagged : b.quiet (s.raise f.stream .trailerFile) := modStream_quiet h _ _
  unfold State.trailerPlace
  exact quiet_ite (acceptTrailer_quiet hb h _ _) (quiet_ite (acceptTrailer_quiet hb flagged _ _) (haltAt_quiet flagged _ _ _ _))

theorem fitTest_quiet (h : b.quiet s) (k : Nat) (g : FileEntry) (r : Rec) : b.quiet (s.fitTest k g r).1 := by
  unfold State.fitTest
  split
  · split
    · exact h
    · exact handOff_quiet h k
  · exact h

theorem checkedRecord_quiet (hb : b.free c) (h : b.quiet s) (f : Feed) (g : FileEntry) (st : Stream) (raw : RawRec)
    (k : Checked) : b.quiet (s.checkedRecord c f g st raw k) := by
  have flagged := modStream_quiet h f.stream (fun st => { st with sticky := k.sticky })
  unfold State.checkedRecord
  dsimp only
  split
  · exact haltAt_quiet flagged _ _ _ _
  · exact moveFeed_quiet (countTaking_quiet hb flagged _ _ _ _ _) _ _
  · exact moveFeed_quiet (countTaking_quiet hb flagged _ _ _ _ _) _ _
  · exact takeOrWait_quiet hb flagged _ _
  · exact takeOrWait_quiet hb (fitTest_quiet flagged _ _ _) _ _

theorem recordPlace_quiet (s : State) (c : ChainRef) (bytes : List Byte) : s.quiet (s.recordPlace c bytes) := by
  unfold State.recordPlace
  split
  · rename_i f hf
    have free := free_of_feed hf
    refine quiet_ite ?_ (quiet_refl s)
    split
    · unfold State.readPlace
      exact quiet_ite (checkedRecord_quiet free (quiet_refl s) _ _ _ _ _)
        (quiet_ite (trailerPlace_quiet free (quiet_refl s) _ _ _ _)
          (quiet_ite (moveFeed_quiet (quiet_refl s) _ _) (framing_quiet free (quiet_refl s) _ _)))
    · exact quiet_refl s
  · exact quiet_refl s

theorem takeWaiting_quiet (h : b.quiet s) (c : ChainRef) : b.quiet (s.takeWaiting c) := by
  unfold State.takeWaiting
  split
  · rename_i f hf
    have free := free_of_feed hf
    split
    · have left := frame_quiet (quiet_refl s)
        (setStager_frame s { s.stager with wait := s.stager.wait.filter (fun d => decide (d ≠ c)) }) (by decide)
      exact quiet_trans h (quiet_ite (nextAppend_quiet (takeAndMove_quiet free (popAppend_quiet left) _ _))
        (takeAndMove_quiet free left _ _))
    · exact h
  · exact h

theorem passOver_quiet (h : b.quiet s) (c : ChainRef) : b.quiet (s.passOver c) := by
  unfold State.passOver
  split
  · exact quiet_trans h (quiet_ite (quiet_refl s) (joinAppend_quiet (quiet_refl s) _))
  · exact h

theorem giveTo_quiet (l : List ChainRef) (h : b.quiet s) : b.quiet (State.giveTo l s) := by
  induction l generalizing s with
  | nil => exact h
  | cons c l ih =>
    unfold State.giveTo
    split
    · exact takeWaiting_quiet h c
    · exact ih (passOver_quiet h c)

theorem expireDeadline_quiet (s : State) (k : Nat) : s.quiet (s.expireDeadline k) := by
  unfold State.expireDeadline
  split
  · exact quiet_ite (handOver_quiet (endFeedOf_quiet
      (freeFailed_quiet (handOff_quiet (modFile_quiet (quiet_refl s) k (.closing .deadline)) k) k) _ _) _) (quiet_refl s)
  · exact quiet_refl s

/-! ## The ends of chains (R159, R161, R163) -/

theorem leaveStore_quiet (h : b.quiet s) (r : JobRef) : b.quiet (s.leaveStore r) :=
  quiet_trans h (quiet_of_store (leaveStore_frame s r) (by decide) (leaveStore_ops s r).1)

theorem free_of_no_job (h : s.job c = none) : s.free c := by
  show (s.job c).bind Job.seg = none
  rw [h]
  rfl

theorem stopJob_stand (h : s.pinsStand H) (c : ChainRef) : (s.stopJob c).pinsStand H := by
  have ended := fun (free : s.free c) w => stand_of_quiet h (complete_quiet free (quiet_refl s) w)
  unfold State.stopJob
  split
  · exact stand_of_quiet h (endFeed_quiet (quiet_refl s) c _ _)
  · exact dropSeg_complete_stand h c _
  · exact dropSeg_complete_stand h c _
  · rename_i hj
    exact stand_of_quiet h (complete_quiet (free_of_job hj rfl) (leaveStore_quiet (quiet_refl s) _) _)
  · rename_i hj; exact ended (free_of_job hj rfl) _
  · rename_i hj; exact ended (free_of_no_job hj) _

theorem resetJob_stand (h : s.pinsStand H) (c : ChainRef) : (s.resetJob c).pinsStand H := by
  have stopped := fun {u : State} (k : s.quiet u) (free : s.free c) =>
    stand_of_ends (kept_of_stand (stand_of_quiet h k) (free_of_quiet free k)) (stopped_ends u c)
  unfold State.resetJob
  dsimp only
  split
  · rename_i hj; exact stopped (leaveFeed_quiet (quiet_refl s) c) (free_of_job hj rfl)
  · exact stand_of_ends (dropSeg_pins h _) (stopped_ends _ c)
  · exact stand_of_ends (dropSeg_pins h _) (stopped_ends _ c)
  · rename_i hj; exact stopped (leaveStore_quiet (quiet_refl s) _) (free_of_job hj rfl)
  · rename_i hj; exact stopped (quiet_refl s) (free_of_job hj rfl)
  · rename_i hj; exact stopped (quiet_refl s) (free_of_no_job hj)

/-- A chain that fetches holds no descriptor. -/
theorem free_of_fetching (h : s.fetching c = true) : s.free c := by
  unfold State.fetching at h
  simp only [Bool.and_eq_true, Option.isNone_iff_eq_none] at h
  exact free_of_desc h.2

theorem fetchFails_stand (h : s.pinsStand H) (c : ChainRef) : (s.fetchFails c).pinsStand H := by
  unfold State.fetchFails
  split
  · rename_i fetches
    exact stand_of_quiet h (notice_quiet (idleChain_quiet (free_of_fetching fetches) (quiet_refl s)) _ _ _)
  · exact h

theorem bufferReadFails_stand (h : s.pinsStand H) (c : ChainRef) : (s.bufferReadFails c).pinsStand H := by
  unfold State.bufferReadFails
  split
  · exact stand_of_quiet h (quiet_ite (endFeed_quiet (quiet_refl s) c _ _) (quiet_refl s))
  · exact dropSeg_complete_stand h c _
  · exact h

theorem orphanFiles_quiet (h : b.quiet s) (p : PortId) : b.quiet (s.orphanFiles p) :=
  frame_quiet h (setFiles_frame s _) (by decide)

theorem portReset_stand (h : s.pinsStand H) (p : PortId) : (s.portReset p).pinsStand H := by
  unfold State.portReset
  have down := stand_of_quiet h (modPort_quiet (quiet_refl s) p (f := fun q => { q with state := .down }) rfl)
  have reset := stand_foldl (f := fun s c => s.resetJob ⟨p, c⟩) (fun _ c hs => resetJob_stand hs ⟨p, c⟩) down four
  exact stand_of_quiet reset (orphanFiles_quiet (modPort_quiet (quiet_refl _) p (afterReset_chains _ _)) p)

/-! ## The clock (R100 to R102, R106) -/

theorem shortenDeadlines_quiet (h : b.quiet s) (n : Nat) : b.quiet (s.shortenDeadlines n) :=
  frame_quiet h (setFiles_frame s _) (by decide)

theorem setClock_quiet (h : b.quiet s) (v : Clock) : b.quiet (s.setClock v) := frame_quiet h (setClock_frame s v) (by decide)

theorem dayRoll_quiet (h : b.quiet s) (d : Nat) : b.quiet (s.dayRoll d) := by
  unfold State.dayRoll
  refine askCommit_quiet (noticeAll_quiet (setSettings_quiet h ?_) _ _) d
  rfl

theorem advanceClock_quiet (h : b.quiet s) : b.quiet s.advanceClock := by
  have moved := shortenDeadlines_quiet (setClock_quiet (quiet_refl s) { s.clock with value := s.clock.value + 1 }) 1
  unfold State.advanceClock
  exact quiet_trans h (quiet_ite (quiet_refl s) (quiet_ite (dayRoll_quiet moved 1) moved))

theorem dividerSecond_quiet (s : State) : s.quiet s.dividerSecond := by
  unfold State.dividerSecond
  refine quiet_ite (quiet_refl s) ?_
  split
  · exact advanceClock_quiet (quiet_refl s)
  · exact advanceClock_quiet (quiet_refl s)
  · exact setClock_quiet (quiet_refl s) _

theorem pulse_quiet (s : State) : s.quiet s.pulse := by
  unfold State.pulse
  refine quiet_ite (quiet_refl s) ?_
  split
  · exact quiet_refl s
  · exact advanceClock_quiet (setClock_quiet (quiet_refl s) _)
  · exact setClock_quiet (quiet_refl s) _

theorem watchdogExpires_quiet (s : State) : s.quiet s.watchdogExpires := by
  unfold State.watchdogExpires
  exact quiet_ite (noticeAll_quiet (advanceClock_quiet (advanceClock_quiet (setClock_quiet (quiet_refl s) _))) _ _) (quiet_refl s)

theorem commitReady_quiet (s : State) : s.quiet s.commitReady := by
  unfold State.commitReady
  split
  · exact quiet_ite (nextAppend_quiet (commitPolicy_quiet (popAppend_quiet (quiet_refl s)) _)) (quiet_refl s)
  · exact quiet_refl s

/-! ## The walk of a CATALOGUE_READ (R95) -/

theorem free_of_walk {w : CatalogueRead} (h : s.walk c = some w) : s.free c := by
  unfold State.walk at h
  split at h
  · rename_i hj; exact free_of_job hj rfl
  · cases h

theorem walkOn_quiet (hb : b.free c) (h : b.quiet s) (w : CatalogueRead) : b.quiet (s.walkOn c w) := by
  have shown : ∀ (on : Bool) (o : Output), b.quiet (if on then s.emit o else s) := fun _ o => quiet_ite (emit_quiet h o) h
  unfold State.walkOn
  exact quiet_ite (complete_quiet hb (shown _ _) _) (quiet_ite (complete_quiet hb (shown _ _) _)
    (setJob_quiet hb (shown _ _) rfl))

theorem tick_quiet (s : State) : s.quiet s.tick := by
  unfold State.tick
  split
  · split
    · rename_i hw; exact walkOn_quiet (free_of_walk hw) (quiet_refl s) _
    · exact quiet_refl s
  · exact quiet_refl s

end Sys2Proof.Machine
end

section
/-!
SUPPORT. The law of pins and hold counts through the effects of the descriptors' commands.
-/

namespace Sys2Proof.Machine

variable {H : Prop} {s t u : State} {a : At} {c : ChainRef}

/-! ## Descriptors that arrive (R160) -/

theorem holding_quiet (fetches : s.fetching (refOf a) = true) : s.quiet (s.holding a) := by
  refine quiet_modChain (free_of_fetching fetches).symm fun _ idle => ?_
  unfold State.fetching at fetches
  simp only [Bool.and_eq_true, decide_eq_true_eq] at fetches
  exact absurd (idle.symm.trans fetches.1.2) (by decide)

/-- A command's own effect begins with its chain on a descriptor without a job. -/
theorem descriptor_stand (h : s.pinsStand H) (a : At) (role : Role) {effect : State → State}
    (he : ∀ {u : State}, u.pinsStand H → u.free (refOf a) → (∃ d, (u.chain (refOf a)).desc = some d) →
      (effect u).pinsStand H) : (s.descriptor a role effect).pinsStand H := by
  unfold State.descriptor
  split
  · rename_i fetches
    have quiet := holding_quiet fetches
    have stood := stand_of_quiet h quiet
    have free := free_of_quiet (free_of_fetching fetches) quiet
    have held := chain_holding s a
    change (if (role.admits (s.roles a.port)) = true then effect (s.holding a)
      else (s.holding a).complete (refOf a) (Completion.plain .refusedRole 0)).pinsStand H
    split
    · exact he stood free ⟨_, by rw [held]⟩
    · exact stand_of_quiet stood (complete_quiet free (quiet_refl _) _)
  · exact h

theorem bufferDescriptor_stand (h : s.pinsStand H) (a : At) (buf : Buf) (role : Role) {effect : State → State}
    (he : ∀ {u : State}, u.pinsStand H → u.free (refOf a) → (∃ d, (u.chain (refOf a)).desc = some d) →
      (effect u).pinsStand H) : (s.bufferDescriptor a buf role effect).pinsStand H :=
  descriptor_stand h a role fun stood free held => by
    split
    · exact stand_of_quiet stood (complete_quiet free (quiet_refl _) _)
    · exact he stood free held

/-- A command whose own effect leaves the pins. -/
theorem descriptor_quiet (h : s.pinsStand H) (a : At) (role : Role) {effect : State → State}
    (he : ∀ {u : State}, u.free (refOf a) → u.quiet (effect u)) : (s.descriptor a role effect).pinsStand H :=
  descriptor_stand h a role fun stood free _ => stand_of_quiet stood (he free)

theorem bufferDescriptor_quiet (h : s.pinsStand H) (a : At) (buf : Buf) (role : Role) {effect : State → State}
    (he : ∀ {u : State}, u.free (refOf a) → u.quiet (effect u)) : (s.bufferDescriptor a buf role effect).pinsStand H :=
  bufferDescriptor_stand h a buf role fun stood free _ => stand_of_quiet stood (he free)

theorem writePlaces_quiet {b : State} (h : b.quiet s) (p : PortId) (addr i : Nat) (l : List Place) :
    b.quiet (s.writePlaces p addr i l) := by
  induction l generalizing s i with
  | nil => exact h
  | cons x l ih => exact ih (emit_quiet h _) _

theorem setStaged_quiet {b : State} (h : b.quiet s) (i : Fin 8) (g : Staged) : b.quiet (s.setStaged i g) :=
  frame_quiet h (setRetention_frame s _) (by decide)

section
variable (free : s.free (refOf a))
include free

theorem refused_quiet (st : Status) : s.quiet (s.refuse a st) := refuse_quiet free (quiet_refl s) st

/-! ## The commands on streams and files -/

theorem openStream_quiet (source cls : Nat) (fill : Byte) (mask : BitVec 8) (first : Seq) (widths force : Three)
    (samples tolerance : Nat) : s.quiet (s.openStream a source cls fill mask first widths force samples tolerance) := by
  unfold State.openStream
  refine quiet_ite (refused_quiet free _) (quiet_ite (refused_quiet free _) ?_)
  split
  · exact refused_quiet free _
  · exact done_quiet free (frame_quiet (quiet_refl s) (setStreams_frame s _) (by decide)) _

theorem closeStream_quiet (source : Nat) : s.quiet (s.closeStream a source) := by
  unfold State.closeStream
  split
  · exact refused_quiet free _
  · exact quiet_ite (refused_quiet free _)
      (done_quiet free (frame_quiet (quiet_refl s) (setStreams_frame s _) (by decide)) _)

theorem snapshot_quiet (buf : Buf) (source : Nat) : s.quiet (s.snapshot a buf source) := by
  unfold State.snapshot
  refine quiet_ite (refused_quiet free _) ?_
  split
  · exact refused_quiet free _
  · exact complete_quiet free (modStream_quiet (emit_quiet (quiet_refl s) _) _ _) _

theorem maskStream_quiet (source : Nat) (mask : BitVec 8) (clear : Bool) : s.quiet (s.maskStream a source mask clear) := by
  unfold State.maskStream
  split
  · exact refused_quiet free _
  · exact done_quiet free (modStream_quiet (quiet_refl s) _ _) _

theorem setWidths_quiet (source : Nat) (force : Three) (tolerance : Nat) :
    s.quiet (s.setWidths a source force tolerance) := by
  unfold State.setWidths
  refine quiet_ite (refused_quiet free _) ?_
  split
  · exact refused_quiet free _
  · exact done_quiet free (modStream_quiet (quiet_refl s) _ _) _

theorem readGaps_quiet (buf : Buf) (source : Nat) : s.quiet (s.readGaps a buf source) := by
  unfold State.readGaps
  refine quiet_ite (refused_quiet free _) ?_
  split
  · exact refused_quiet free _
  · exact complete_quiet free (writePlaces_quiet (quiet_refl s) _ _ _ _) _

theorem openFile_quiet (source fileNo minutes : Nat) : s.quiet (s.openFile a source fileNo minutes) := by
  unfold State.openFile
  refine quiet_ite (refused_quiet free _) ?_
  split
  · exact refused_quiet free _
  · refine quiet_ite (refused_quiet free _) ?_
    split
    · exact refused_quiet free _
    · exact done_quiet free (modStream_quiet (frame_quiet (quiet_refl s) (setFiles_frame s _) (by decide)) _ _) _

theorem takeFeed_quiet (buf : Buf) (source fileNo : Nat) : s.quiet (s.takeFeed a buf source fileNo) := by
  unfold State.takeFeed
  refine quiet_ite (refused_quiet free _) ?_
  split
  · exact refused_quiet free _
  · exact quiet_ite (waitForLane_quiet (setJob_quiet free (quiet_refl s) rfl) _) (refused_quiet free _)

theorem resumeFile_quiet (source fileNo : Nat) : s.quiet (s.resumeFile a source fileNo) := by
  unfold State.resumeFile
  split
  · exact refused_quiet free _
  · rename_i k f _
    have resumed := modFile_quiet (quiet_refl s) k FileEntry.resumed
    have again : ∀ (s : State) k, s.quiet (s.freshAttempts k) := fun s k => by
      unfold State.freshAttempts
      split
      · split
        · exact joinSeals_quiet (setBuf_quiet (quiet_refl s) _ _) _
        · exact quiet_refl s
      · exact quiet_refl s
    exact quiet_ite (handOver_quiet (done_quiet free (quiet_ite
      (quiet_trans resumed (quiet_foldl again _ _)) resumed) _) _) (refused_quiet free _)

theorem abandonFile_quiet (source fileNo : Nat) : s.quiet (s.abandonFile a source fileNo) := by
  unfold State.abandonFile
  split
  · exact refused_quiet free _
  · rename_i k f _
    have discarded : s.quiet (s.discardOpen k) := by
      unfold State.discardOpen
      split
      · exact modFile_quiet (frame_quiet (quiet_refl s) (freeBuf_frame s _) (by decide)) k _
      · exact quiet_refl s
    have closing := done_quiet free (modFile_quiet (freeFailed_quiet discarded k) k (.closing .abandon)) .none
    exact quiet_ite (handOver_quiet (endFeedOf_quiet closing _ _) _) (refused_quiet free _)

theorem adoptFile_quiet (source fileNo : Nat) : s.quiet (s.adoptFile a source fileNo) := by
  unfold State.adoptFile
  split
  · exact refused_quiet free _
  · exact quiet_ite (done_quiet free (modFile_quiet (quiet_refl s) _ _) _) (refused_quiet free _)

/-! ## The commands on the archive, the policy and the clock -/

theorem beginWalkOf_quiet (buf : Buf) (start : Nat) (source : Option Nat) (filter : Option EntryState) :
    s.quiet (s.beginWalkOf a buf start source filter) := by
  unfold State.beginWalkOf
  exact quiet_ite (refused_quiet free _) (setJob_quiet free (quiet_refl s) rfl)

theorem setProjection_quiet (p : Projection) : s.quiet (s.setProjection a p) := by
  unfold State.setProjection
  exact quiet_ite (refused_quiet free _)
    (quiet_ite (done_quiet free (modPort_quiet (quiet_refl s) _ (by rfl)) _) (refused_quiet free _))

theorem proposePolicy_quiet (cls days : Nat) : s.quiet (s.proposePolicy a cls days) := by
  unfold State.proposePolicy
  split
  · exact quiet_ite (refused_quiet free _)
      (complete_quiet free (refreshCommit_quiet (setStaged_quiet (quiet_refl s) _ _)) _)
  · exact refused_quiet free _

theorem endorsePolicy_quiet (cls days : Nat) : s.quiet (s.endorsePolicy a cls days) := by
  unfold State.endorsePolicy
  split
  · refine quiet_ite (refused_quiet free _) ?_
    unfold State.endorseRow
    split
    · exact refused_quiet free _
    · exact quiet_ite (refused_quiet free _) (quiet_ite (done_quiet free (setStaged_quiet (quiet_refl s) _ _) _)
        (complete_quiet free (quiet_refl s) _))
    · exact quiet_ite (refused_quiet free _) (quiet_ite (done_quiet free (quiet_refl s) _)
        (complete_quiet free (quiet_refl s) _))
  · exact refused_quiet free _

theorem setClockValue_quiet (value : Nat) : s.quiet (s.setClockValue a value) := by
  unfold State.setClockValue
  refine quiet_ite (refused_quiet free _) (quiet_ite (refused_quiet free _) ?_)
  unfold State.moveClock
  have moved := fun v body n => shortenDeadlines_quiet (append_quiet (setClock_quiet (quiet_refl s) v) body) n
  exact complete_quiet free (quiet_ite (moved _ _ _) (dayRoll_quiet (moved _ _ _) _)) _

theorem takeRelease_quiet (serial : Nat) : s.quiet (s.takeRelease a serial) := by
  unfold State.takeRelease
  exact complete_quiet free (quiet_ite (quiet_refl s) (release_quiet (quiet_refl s) _)) _

theorem beginJournalRead_quiet (buf : Buf) (serial : Nat) : s.quiet (s.beginJournalRead a buf serial) :=
  readOn_quiet free _ (setJob_quiet free (quiet_refl s) rfl) _ _

theorem readStatus_quiet (buf : Buf) : s.quiet (s.readStatus a buf) := by
  unfold State.readStatus
  exact quiet_ite (refused_quiet free _) (complete_quiet free (writePlaces_quiet (quiet_refl s) _ _ _ _) _)

theorem writeIdent_quiet (buf : Buf) : s.quiet (s.writeIdent a buf) := by
  unfold State.writeIdent
  exact quiet_ite (refused_quiet free _) (complete_quiet free (emit_quiet (quiet_refl s) _) _)

theorem jumpTo_quiet (target : Nat) : s.quiet (s.jumpTo a target) := by
  unfold State.jumpTo
  exact quiet_ite (done_quiet free (quiet_modChain (by rfl) fun i => i) _) (refused_quiet free _)

theorem haltChain_quiet : s.quiet (s.haltChain a) := by
  have halted := idleChain_quiet free (done_quiet free (quiet_refl s) .none)
  unfold State.haltChain
  exact quiet_ite (notice_quiet halted _ _ _) halted

end

theorem beginRetrieval_stand (h : s.pinsStand H) (free : s.free (refOf a)) (buf : Buf) (source : Option Nat) (lo hi : Nat)
    (cursor : Option Cursor) : (s.beginRetrieval a buf source lo hi cursor).pinsStand H := by
  unfold State.beginRetrieval
  split
  · exact stand_of_quiet h (refused_quiet free _)
  · have active := quiet_ite (c := (s.roles a.port).audit = true) (quiet_refl s)
      (modPort_quiet (quiet_refl s) a.port (f := fun q => { q with active := q.pendingProj }) rfl)
    have begun := fun projection => setJob_quiet free active (j := .retrieval (Retrieval.begin source lo hi buf cursor projection))
      rfl
    dsimp only
    split
    · exact cursorTest_stand (stand_of_quiet h (begun _)) (free_of_quiet free (begun _)) _
    · exact search_stand (stand_of_quiet h (begun _)) (free_of_quiet free (begun _))

theorem beginVerify_stand (h : s.pinsStand H) (free : s.free (refOf a)) (held : ∃ d, (s.chain (refOf a)).desc = some d)
    (x : Nat) (journalPass : Bool) : (s.beginVerify a x journalPass).pinsStand H := by
  obtain ⟨d, hd⟩ := held
  have refused := fun st => stand_of_quiet h (refused_quiet free st)
  unfold State.beginVerify
  split
  · exact refused _
  · split
    · split
      · rename_i accepts
        exact reach_stand h free hd rfl accepts
      · exact refused _
    · exact refused _

theorem setScrub_stand (h : s.pinsStand H) (free : s.free (refOf a)) (on : Bool) (start : Nat) :
    (s.setScrub a on start).pinsStand H := by
  unfold State.setScrub
  split
  · exact stand_of_quiet h (refused_quiet free _)
  · obtain ⟨ended, idle⟩ := endScrub_stand h free
    exact stand_of_quiet ended (done_quiet idle
      (quiet_ite (setAudit_quiet (quiet_refl _) (by rfl)) (setAudit_quiet (quiet_refl _) (by rfl))) _)

theorem discardDamaged_stand (h : s.pinsStand H) (free : s.free (refOf a)) (x : Nat) : (s.discardDamaged a x).pinsStand H := by
  have refused := fun st => stand_of_quiet h (refused_quiet free st)
  unfold State.discardDamaged
  split
  · exact refused _
  · split
    · rename_i lawful
      unfold Entry.discardable at lawful
      simp only [Bool.and_eq_true, decide_eq_true_eq] at lawful
      obtain ⟨⟨⟨state, -⟩, pins⟩, -⟩ := lawful
      split
      · rename_i v hv
        split
        · exact refused _
        · have appended := appendRaw_quiet (quiet_refl s)
            (.discarded x v.source v.serial v.cls v.count v.minDay v.maxDay a.port)
          have entry := entry_of_catalogue ((appendRaw_frame s
            (.discarded x v.source v.serial v.cls v.count v.minDay v.maxDay a.port)).catalogue (by decide)) x
          unfold State.discard
          dsimp only
          generalize s.appendRaw (.discarded x v.source v.serial v.cls v.count v.minDay v.maxDay a.port) = u at appended entry ⊢
          have stood := stand_of_quiet h appended
          have retiring := retiring_kept stood (reserved_le_of_seg hv)
            (unoccupied_of_pins stood.law (by rw [entry]; exact pins))
            (no_alters stood.law (by rw [entry, state]; decide) (by rw [entry, state]; decide)) s.journal.next
          refine stand_of_quiet (stand_of_kept retiring (segJob_modEntry _ _ _)) (done_quiet ?_ (decideLow_quiet (quiet_refl _)) _)
          unfold State.free
          rw [segJob_modEntry]
          exact free_of_quiet free appended
      · exact refused _
    · exact refused _

end Sys2Proof.Machine
end

section
/-!
SUPPORT. The law of pins and hold counts through every command and every step (O57).
-/

namespace Sys2Proof.Machine

variable {H : Prop} {s t u : State} {a : At} {c : ChainRef}

/-- Every descriptor command keeps the laws of pins and hold counts. -/
theorem runDescriptor_stand (h : s.pinsStand H) (i : Instr) : (runDescriptor i s).pinsStand H := by
  unfold runDescriptor
  split
  · exact descriptor_quiet h _ _ fun free => openStream_quiet free _ _ _ _ _ _ _ _ _
  · exact descriptor_quiet h _ _ fun free => closeStream_quiet free _
  · exact descriptor_quiet h _ _ fun free => openFile_quiet free _ _ _
  · exact bufferDescriptor_quiet h _ _ _ fun free => takeFeed_quiet free _ _ _
  · exact descriptor_quiet h _ _ fun free => resumeFile_quiet free _ _
  · exact descriptor_quiet h _ _ fun free => abandonFile_quiet free _ _
  · exact descriptor_quiet h _ _ fun free => adoptFile_quiet free _ _
  · exact bufferDescriptor_quiet h _ _ _ fun free => snapshot_quiet free _ _
  · exact descriptor_quiet h _ _ fun free => maskStream_quiet free _ _ _
  · exact descriptor_quiet h _ _ fun free => setWidths_quiet free _ _ _
  · exact bufferDescriptor_quiet h _ _ _ fun free => readGaps_quiet free _ _
  · refine bufferDescriptor_quiet h _ _ _ fun free => ?_
    split
    · split
      · exact beginWalkOf_quiet free _ _ _ _
      · exact refused_quiet free _
    · exact beginWalkOf_quiet free _ _ _ _
  · exact bufferDescriptor_stand h _ _ _ fun stood free _ => beginRetrieval_stand stood free _ _ _ _ _
  · exact descriptor_quiet h _ _ fun free => setProjection_quiet free _
  · exact descriptor_quiet h _ _ fun free => proposePolicy_quiet free _ _
  · exact descriptor_quiet h _ _ fun free => endorsePolicy_quiet free _ _
  · exact descriptor_stand h _ _ fun stood free _ => takeHold_stand stood free _ _ _
  · exact descriptor_stand h _ _ fun stood free _ => releaseHolds_stand stood free _
  · exact descriptor_quiet h _ _ fun free => setClockValue_quiet free _
  · exact descriptor_stand h _ _ fun stood free held => beginVerify_stand stood free held _ _
  · exact descriptor_stand h _ _ fun stood free _ => setScrub_stand stood free _ _
  · exact descriptor_stand h _ _ fun stood free _ => discardDamaged_stand stood free _
  · exact bufferDescriptor_quiet h _ _ _ fun free => beginJournalRead_quiet free _ _
  · exact descriptor_quiet h _ _ fun free => takeRelease_quiet free _
  · exact descriptor_quiet h _ _ fun free => complete_quiet free (modPort_quiet (quiet_refl _) _ (by rfl)) _
  · exact bufferDescriptor_quiet h _ _ _ fun free => readStatus_quiet free _
  · exact bufferDescriptor_quiet h _ _ _ fun free => writeIdent_quiet free _
  · exact descriptor_quiet h _ _ fun free => jumpTo_quiet free _
  · exact descriptor_quiet h _ _ fun free => haltChain_quiet free
  · exact h

theorem descriptorFetch_stand (h : s.pinsStand H) (p : PortId) (c : ChainNo) (bytes : List Byte) :
    (descriptorFetch p c bytes s).pinsStand H := by
  unfold descriptorFetch
  split
  · exact runDescriptor_stand h _
  · exact descriptor_quiet h _ _ fun free => refused_quiet free _

/-! ## The cell commands (R158, R159, R162) -/

/-- A cell command takes effect where its test passes on the port, whose chains stand as they did. -/
theorem cellCommand_stand (h : s.pinsStand H) (p : PortId) (word : CellWord) (test : Port → Option CellResult)
    {effect : State → State}
    (he : ∀ {u : State} {q : Port}, u.pinsStand H → test q = none → q.chains = (u.port p).chains → (effect u).pinsStand H) :
    (s.cellCommand p word test effect).pinsStand H := by
  unfold State.cellCommand
  split
  · exact h
  · have written := modPort_quiet (quiet_refl s) p
      (f := fun q => { q with cell0 := word, cellCount := (q.cellCount + 1) % 256 }) rfl
    dsimp only
    split
    · exact stand_of_quiet h (modPort_quiet written p rfl)
    · rename_i result
      refine he (stand_of_quiet h (modPort_quiet written p rfl)) (q := (s.modPort p
        (fun q => { q with cell0 := word, cellCount := (q.cellCount + 1) % 256 })).port p) ?_ ?_
      · split at result
        · cases result
        · exact result
      · generalize s.modPort p _ = w
        rw [port_modPort, if_pos rfl]

theorem startChain_stand (h : s.pinsStand H) {p : PortId} {chain : Byte} {q : Port} (passes : startTest chain q = none)
    (chains : q.chains = (s.port p).chains) : (s.startChain p chain).pinsStand H := by
  unfold State.startChain
  split
  · rename_i c hc
    have idle : (s.chain ⟨p, c⟩).state = .idle := by
      unfold startTest at passes
      rw [hc] at passes
      dsimp only at passes
      split at passes
      · cases passes
      · split at passes
        · cases passes
        · rename_i idle
          rw [not_not, chains] at idle
          exact idle
    have free := free_of_desc (h.idle ⟨p, c⟩ idle)
    exact stand_of_ends (kept_of_stand h free) (endsJob_of_chains (c := ⟨p, c⟩)
      (sameBut_mono (modChain_frame s _ _) (by decide)) (fun d e => by rw [chain_modChain, if_neg e])
      (by rw [chain_modChain, if_pos rfl]))
  · exact h

theorem stopChain_stand (h : s.pinsStand H) (p : PortId) (chain : Byte) : (s.stopChain p chain).pinsStand H := by
  unfold State.stopChain
  split
  · split
    · rename_i fetches
      exact stand_of_quiet h (idleChain_quiet (free_of_fetching fetches) (quiet_refl s))
    · exact stopJob_stand h _
  · exact h

theorem drainPort_quiet (s : State) (p : PortId) : s.quiet (s.drainPort p) := by
  unfold State.drainPort
  refine settleDrain_quiet (quiet_trans (modPort_quiet (quiet_refl s) p rfl) (quiet_foldl (fun s c => ?_) four _)) p
  split
  · rename_i fetches; exact idleChain_quiet (free_of_fetching fetches) (quiet_refl s)
  · exact quiet_refl s

theorem chainStart_stand (h : s.pinsStand H) (p : PortId) (chain mask : Byte) : (chainStart p chain mask s).pinsStand H :=
  cellCommand_stand h p _ _ fun stood passes chains => startChain_stand stood passes chains

theorem chainStop_stand (h : s.pinsStand H) (p : PortId) (chain mask : Byte) : (chainStop p chain mask s).pinsStand H :=
  cellCommand_stand h p _ _ fun stood _ _ => stopChain_stand stood p chain

theorem portDrain_stand (h : s.pinsStand H) (p : PortId) (chain mask : Byte) : (portDrain p chain mask s).pinsStand H :=
  cellCommand_stand h p _ _ fun stood _ _ => stand_of_quiet stood (drainPort_quiet _ p)

theorem portOpen_stand (h : s.pinsStand H) (p : PortId) (chain mask : Byte) : (portOpen p chain mask s).pinsStand H :=
  cellCommand_stand h p _ _ fun stood _ _ => stand_of_quiet stood (modPort_quiet (quiet_refl _) p rfl)

theorem noticeArea_stand (h : s.pinsStand H) (p : PortId) (chain mask : Byte) : (noticeArea p chain mask s).pinsStand H :=
  cellCommand_stand h p _ _ fun stood _ _ => stand_of_quiet stood (modPort_quiet (quiet_refl _) p rfl)

theorem tornWrite_quiet (s : State) (p : PortId) (cmd chain mask : Byte) : s.quiet (tornWrite p cmd chain mask s) :=
  quiet_ite (quiet_refl s) (modPort_quiet (quiet_refl s) p rfl)

theorem cellWrite_stand (h : s.pinsStand H) (p : PortId) (cmd chain mask : Byte) :
    (cellWrite p cmd chain mask s).pinsStand H := by
  unfold cellWrite
  split
  · exact chainStart_stand h p chain mask
  · exact chainStop_stand h p chain mask
  · exact portDrain_stand h p chain mask
  · exact portOpen_stand h p chain mask
  · exact noticeArea_stand h p chain mask
  · exact cellCommand_stand h p _ _ fun stood _ _ => stood

theorem registerWrite_stand (h : s.pinsStand H) (p : PortId) (reg : WindowReg) (v : BitVec 64) :
    (registerWrite p reg v s).pinsStand H := by
  unfold registerWrite
  split
  · exact h
  · split
    · unfold writeCell0
      split
      · exact cellWrite_stand h p _ _ _
      · exact stand_of_quiet h (quiet_ite (modPort_quiet (quiet_refl s) p rfl) (tornWrite_quiet s p _ _ _))
    · exact stand_of_quiet h (modPort_quiet (quiet_refl s) p rfl)
    · exact h

/-! ## The link and the power -/

theorem linkReset_stand (h : s.pinsStand H) (p : PortId) {f : Port → Port} (hf : ∀ q, (f q).chains = q.chains) :
    ((s.portReset p).modPort p f).pinsStand H := stand_of_quiet (portReset_stand h p) (modPort_quiet (quiet_refl _) p (hf _))

theorem stand_ite {d : Prop} [Decidable d] (h : t.pinsStand H) (k : u.pinsStand H) : (if d then t else u).pinsStand H := by
  split
  · exact h
  · exact k

/-- A running part takes no power-on. -/
theorem powerUp_of_ready (ready : s.power = .ready) (pins : StrapPins) (damaged : List SettingsId) :
    s.powerUp pins damaged = s := by
  unfold State.powerUp
  rw [if_neg (by rw [ready]; decide)]

/-- A READ of the start-up scan completes nothing in a running part. -/
theorem completeScanRead_of_ready (ready : s.power = .ready) (o : PageOutcome) : s.completeScanRead o = s := by
  unfold State.completeScanRead
  split
  · rw [if_neg fun starts => by rw [ready] at starts; cases starts.1]
  · rfl

theorem completeHeaderRead_of_ready (ready : s.power = .ready) (ch : Channel) (o : ReadOutcome) :
    s.completeHeaderRead ch o = s := by
  unfold State.completeHeaderRead
  split
  · rw [if_neg fun starts => by rw [ready] at starts; cases starts.1]
  · rfl

/-! ## Every command, and every step -/

theorem next_stand (ht : (.next u : Host.Outcome State Fault Refusal) = .next t) (h : u.pinsStand H) : t.pinsStand H := by
  cases ht; exact h

/-- Every command keeps the laws of pins and hold counts while the part runs. -/
theorem exec_stand (h : s.pinsStand H) (ready : s.power = .ready) {i : Instr} (ht : exec i s = .next t)
    (runs : t.power = .ready) : t.pinsStand H := by
  cases i with
  | streamOpen => exact next_stand ht (runDescriptor_stand h (.streamOpen ..))
  | streamClose => exact next_stand ht (runDescriptor_stand h (.streamClose ..))
  | fileOpen => exact next_stand ht (runDescriptor_stand h (.fileOpen ..))
  | fileFeed => exact next_stand ht (runDescriptor_stand h (.fileFeed ..))
  | fileResume => exact next_stand ht (runDescriptor_stand h (.fileResume ..))
  | fileAbandon => exact next_stand ht (runDescriptor_stand h (.fileAbandon ..))
  | fileAdopt => exact next_stand ht (runDescriptor_stand h (.fileAdopt ..))
  | streamSnapshot => exact next_stand ht (runDescriptor_stand h (.streamSnapshot ..))
  | streamMask => exact next_stand ht (runDescriptor_stand h (.streamMask ..))
  | widthSet => exact next_stand ht (runDescriptor_stand h (.widthSet ..))
  | gapRead => exact next_stand ht (runDescriptor_stand h (.gapRead ..))
  | catalogueRead => exact next_stand ht (runDescriptor_stand h (.catalogueRead ..))
  | retrieve => exact next_stand ht (runDescriptor_stand h (.retrieve ..))
  | projectionSet => exact next_stand ht (runDescriptor_stand h (.projectionSet ..))
  | policyPropose => exact next_stand ht (runDescriptor_stand h (.policyPropose ..))
  | policyEndorse => exact next_stand ht (runDescriptor_stand h (.policyEndorse ..))
  | holdPlace => exact next_stand ht (runDescriptor_stand h (.holdPlace ..))
  | holdRelease => exact next_stand ht (runDescriptor_stand h (.holdRelease ..))
  | clockSet => exact next_stand ht (runDescriptor_stand h (.clockSet ..))
  | verify => exact next_stand ht (runDescriptor_stand h (.verify ..))
  | scrubSet => exact next_stand ht (runDescriptor_stand h (.scrubSet ..))
  | damagedDiscard => exact next_stand ht (runDescriptor_stand h (.damagedDiscard ..))
  | journalRead => exact next_stand ht (runDescriptor_stand h (.journalRead ..))
  | journalRelease => exact next_stand ht (runDescriptor_stand h (.journalRelease ..))
  | serviceSet => exact next_stand ht (runDescriptor_stand h (.serviceSet ..))
  | statusRead => exact next_stand ht (runDescriptor_stand h (.statusRead ..))
  | identify => exact next_stand ht (runDescriptor_stand h (.identify ..))
  | jump => exact next_stand ht (runDescriptor_stand h (.jump ..))
  | halt => exact next_stand ht (runDescriptor_stand h (.halt ..))
  | chainStart => exact next_stand ht (chainStart_stand h _ _ _)
  | chainStop => exact next_stand ht (chainStop_stand h _ _ _)
  | portDrain => exact next_stand ht (portDrain_stand h _ _ _)
  | portOpen => exact next_stand ht (portOpen_stand h _ _ _)
  | noticeArea => exact next_stand ht (noticeArea_stand h _ _ _)
  | torn => exact next_stand ht (stand_of_quiet h (tornWrite_quiet s _ _ _ _))
  | registerWrite => exact next_stand ht (registerWrite_stand h _ _ _)
  | descriptorFetch => exact next_stand ht (descriptorFetch_stand h _ _ _)
  | descriptorFetchTimeout => exact next_stand ht (fetchFails_stand h _)
  | bufferReadTimeout => exact next_stand ht (bufferReadFails_stand h _)
  | linkUp =>
    exact next_stand ht (stand_of_quiet h (quiet_ite (modPort_quiet (quiet_refl s) _ (by rfl)) (quiet_refl s)))
  | linkDown => exact next_stand ht (stand_ite h (linkReset_stand h _ fun _ => rfl))
  | functionLevelReset => exact next_stand ht (stand_ite h (linkReset_stand h _ fun _ => rfl))
  | functionLevelResetEnd =>
    exact next_stand ht (stand_of_quiet h (quiet_ite (modPort_quiet (quiet_refl s) _ (by rfl)) (quiet_refl s)))
  | laneGrant => exact next_stand ht (grantLane_stand h)
  | recordPlace => exact next_stand ht (stand_of_quiet h (recordPlace_quiet s _ _))
  | stagingBufferGiven =>
    exact next_stand ht (stand_of_quiet h (quiet_ite (giveTo_quiet _ (quiet_refl s)) (quiet_refl s)))
  | fileDeadlineExpiry => exact next_stand ht (stand_of_quiet h (expireDeadline_quiet s _))
  | powerOn => exact next_stand ht (by rw [powerUp_of_ready ready]; exact h)
  | powerOff =>
    refine next_stand ht ?_
    cases ht
    rw [if_neg (by rw [ready]; decide)] at runs
    cases runs
  | journalScanReadComplete => exact next_stand ht (by rw [completeScanRead_of_ready ready]; exact h)
  | headerReadComplete => exact next_stand ht (by rw [completeHeaderRead_of_ready ready]; exact h)
  | dividerSecond => exact next_stand ht (stand_of_quiet h (dividerSecond_quiet s))
  | pulse => exact next_stand ht (stand_of_quiet h (pulse_quiet s))
  | pulseWatchdogExpiry => exact next_stand ht (stand_of_quiet h (watchdogExpires_quiet s))
  | policyCommit => exact next_stand ht (stand_of_quiet h (commitReady_quiet s))
  | scanVisit => exact next_stand ht (scanVisit_stand h)
  | sealAllocation => exact next_stand ht (sealAllocation_stand h)
  | queuePlaceGiven => exact next_stand ht (givePlace_stand h _)
  | segmentWriteComplete => exact next_stand ht (completeWrite_stand h _ _)
  | segmentReadComplete => exact next_stand ht (completeSegRead_stand h _ _)
  | eraseComplete => exact next_stand ht (completeErase_stand h _ _)
  | journalPageWriteComplete => exact next_stand ht (completePage_stand h _)
  | pageTimerExpiry => exact next_stand ht (stand_of_quiet h (closePage_quiet s))
  | journalEraseComplete => exact next_stand ht (stand_of_quiet h (completeJournalErase_quiet s _))
  | journalPageReadComplete => exact next_stand ht (stand_of_quiet h (completePageRead_quiet s _))
  | appendWaitServed => exact next_stand ht (stand_of_quiet h (serveAppend_quiet s))
  | pinGrant => exact next_stand ht (grantPin_stand h _)
  | decodedRecord =>
    refine next_stand ht ?_
    split
    · exact decodeOne_stand h _
    · exact h
  | damageReport => exact next_stand ht (takeReport_stand h)
  | scrubConsider => exact next_stand ht (considerScrub_stand h)
  | errorCompletion => exact next_stand ht (stand_ite (fetchFails_stand h _) (bufferReadFails_stand h _))

/-- Every step keeps the laws of pins and hold counts while the part runs. -/
theorem step_stand (h : s.pinsStand H) (ready : s.power = .ready) (ht : step s = .next t) (runs : t.power = .ready) :
    t.pinsStand H := by
  unfold step at ht
  split at ht
  · exact next_stand ht (stand_of_quiet h (tick_quiet s))
  · rename_i rest _
    have taken : ({ s with pending := rest } : State).pinsStand H := ⟨h.law, h.idle, h.form, h.holds⟩
    exact exec_stand taken ready ht runs

/-- A canonical catalogue is in its form. -/
theorem catalogueForm_of_canonical (h : s.canonical) : s.catalogueForm :=
  ⟨h.catalogue, fun p hp => (h.listed p hp).1⟩

end Sys2Proof.Machine
end

section
open Sys2Proof Sys2Proof.Machine

/-- Settles O57: the law of pins is said of the segments of the jobs, the entries and the operations of the store, each
command is shown to change the three as the law allows or to leave them, and the hold counts go with the entries. -/
theorem stepKeepsHoldCountsExact : Obligations.StepKeepsHoldCountsExact := by
  unfold Obligations.StepKeepsHoldCountsExact
  intro s t ht ready runs canonical lawful
  have stands : s.pinsStand s.holdsExact := (pinsStand_iff (catalogueForm_of_canonical canonical)).mpr ⟨lawful, id⟩
  have after := step_stand stands ready ht runs
  exact (pinsStand_iff after.form).mp after
end

section
/-!
SUPPORT. SCRUB_SET: the scrub verification that it ends, and the pass that it starts or stops (R94, R143).
-/

namespace Sys2Proof.Machine

variable {s : State} {a : At} {x : Nat}

/-- A retest leaves the count of pins. -/
theorem retest_entry_pins (s : State) (x : Nat) : ((s.retest x).entry x).pins = (s.entry x).pins := by
  unfold State.retest
  split
  · rename_i v hv
    have hx := reserved_le_of_seg hv
    split
    · split
      · split
        · rfl
        · rw [retire_entry _ v hx, if_pos rfl]
      · rw [entry_modEntry _ x x _ hx, if_pos rfl]
    · rfl
  · rfl

/-- A pin released that no request waits for lowers the count. -/
theorem releasePin_entry_pins (h : (s.entry x).pinWait = []) : ((s.releasePin x).entry x).pins = (s.entry x).pins - 1 := by
  rw [releasePin_of_none h, retest_entry_pins, entry_lowered, if_pos rfl]

/-- A job that leaves its segment with no request waiting for its pin lowers the count. -/
theorem dropSeg_entry_pins {r : JobRef} {g : SegJob} (hg : s.segJob r = some g) (hp : g.phase ≠ .waitPin)
    (h : (s.entry g.extent).pinWait = []) : ((s.dropSeg r).entry g.extent).pins = (s.entry g.extent).pins - 1 := by
  have given := given_entry s r g.extent g.extent
  rw [if_pos rfl] at given
  rw [dropSeg_eq hg hp, releasePin_entry_pins (by rw [given]; exact h), given]

theorem dropSeg_audit (s : State) (r : JobRef) : (s.dropSeg r).audit = s.audit := by
  cases hg : s.segJob r with
  | none => rw [dropSeg_of_none hg]
  | some g =>
    by_cases hp : g.phase = .waitPin
    · rw [dropSeg_of_waitPin hg hp, (modEntry_frame _ _ _).audit (by decide), (left_frame s r).audit (by decide)]
    · exact (dropSeg_leave_frame hg hp).audit (by decide)

theorem endScrub_audit (s : State) : s.endScrub.audit = { s.audit with scrub := none } := by
  unfold State.endScrub
  dsimp only
  rw [State.setAudit_audit, dropSeg_audit]

theorem endScrub_of_none (h : s.segJob .scrub = none) : s.endScrub = s.setAudit { s.audit with scrub := none } := by
  unfold State.endScrub
  rw [dropSeg_of_none h]

/-- The Audit Unit after SCRUB_SET (R143). -/
def Audit.scrubSwitched (v : Audit) (enable : Bool) (start : Nat) : Audit :=
  if enable then { v with scrub := none, enable := true, pointer := start, passStart := start, counts := PassCounts.zero }
  else { v with scrub := none, enable := false }

theorem setScrub_eq (s : State) (a : At) (enable : Bool) {start : Nat} (h : start < extentCount) :
    s.setScrub a enable start = (s.endScrub.setAudit (s.audit.scrubSwitched enable start)).done a
      (.scrub s.audit.pointer s.audit.counts) := by
  unfold State.setScrub Audit.scrubSwitched
  rw [if_neg (Nat.not_le.mpr h)]
  dsimp only
  rw [endScrub_audit]
  cases enable <;> rfl

end Sys2Proof.Machine
end

section
open Sys2Proof Sys2Proof.Machine

/-- Settles O39: the scrub's segment is dropped, and the Audit Unit is written whole. -/
theorem scrubSetStartsOrStopsThePass : Obligations.ScrubSetStartsOrStopsThePass := by
  unfold Obligations.ScrubSetStartsOrStopsThePass
  intro s a enable start h below
  refine ⟨_, rfl, ?_⟩
  unfold scrubSet
  rw [descriptor_of_arrives h, setScrub_eq (s.holding a) a enable below, (holding_frame s a).audit (by decide)]
  have done := complete_frame ((s.holding a).endScrub.setAudit (s.audit.scrubSwitched enable start)) (refOf a)
    (Completion.doneWith (.scrub s.audit.pointer s.audit.counts))
  have audit := done.audit (by decide)
  rw [State.setAudit_audit] at audit
  change (State.done _ a _).audit = s.audit.scrubSwitched enable start at audit
  have entry := entry_of_catalogue (done.catalogue (by decide))
  change ∀ x, (State.done _ a _).entry x = ((s.holding a).dropSeg .scrub).entry x at entry
  refine ⟨?_, ?_, ?_, fun on => ?_, fun off => ?_, fun g hg hp waits => ?_, fun idle => ?_⟩
  · rw [audit]; unfold Audit.scrubSwitched; split <;> rfl
  · rw [audit]; unfold Audit.scrubSwitched; split
    · rename_i on; exact on.symm
    · rename_i off; exact ((Bool.not_eq_true _).mp off).symm
  · rw [audit]; unfold Audit.scrubSwitched; split <;> rfl
  · rw [audit, on]; exact ⟨rfl, rfl, rfl⟩
  · rw [audit, off]; exact ⟨rfl, rfl, rfl⟩
  · exact (congrArg Entry.pins (entry g.extent)).trans (dropSeg_entry_pins (s := s.holding a) (r := .scrub) hg hp waits)
  · rw [endScrub_of_none (s := s.holding a) idle]
    have written := sameBut_then (m := [.audit]) (setAudit_frame (s.holding a) { (s.holding a).audit with scrub := none })
      (setAudit_frame _ (s.audit.scrubSwitched enable start)) (by decide) (by decide)
    obtain ⟨ends, frame⟩ := done_finishes h written (by decide) (by decide) (.scrub s.audit.pointer s.audit.counts)
    exact ⟨ends, sameBut_then (sameBut_then (m := [.audit, .ports]) (holding_frame s a) written (by decide) (by decide)) frame
      (by decide) (by decide)⟩
end

section
/-!
SUPPORT. A segment pinned and read: the READ requested where its channel has room, for a chain's job and for the scrub (R76,
R93, R128, R139, R144).
-/

namespace Sys2Proof.Machine

variable {s u : State} {a : At} {c : ChainRef} {g : SegJob} {x : Nat}

theorem chain_setJob (s : State) (c d : ChainRef) (j : Job) : (s.setJob c j).chain d =
    if d = c then { s.chain c with desc := (s.chain c).desc.map (fun d => { d with job := some j }) } else s.chain d :=
  chain_modChain s c d _

/-! ## A READ requested where nothing waits -/

/-- A channel with room and no request waiting takes the READ at its queue's tail, and the job awaits it. -/
theorem startRead_of_open (room : (s.queue (channelOf x)).length < 16) (nobody : s.store.placeWait = []) (r : JobRef)
    (again : Bool) : ∃ u, s.startRead r x again = (u.setPhase r .reading).jobState r .running ∧ s.sameBut [.store] u
      ∧ u.queue (channelOf x) = s.queue (channelOf x) ++ [.segRead x (some r) again] := by
  obtain ⟨opened, asked⟩ := request_of_open room nobody (.segRead x (some r) again)
  refine ⟨s.setQueue (channelOf x) (s.queue (channelOf x) ++ [.segRead x (some r) again]), ?_, setQueue_frame s _ _, ?_⟩
  · unfold State.startRead
    dsimp only
    rw [if_pos opened, asked]
  · rw [queue_setQueue, if_pos rfl]

theorem startRead_queue (room : (s.queue (channelOf x)).length < 16) (nobody : s.store.placeWait = []) (r : JobRef)
    (again : Bool) : (s.startRead r x again).queue (channelOf x)
      = s.queue (channelOf x) ++ [.segRead x (some r) again] := by
  obtain ⟨u, begun, -, queue⟩ := startRead_of_open room nobody r again
  rw [begun, ← queue]
  refine queue_of_store ?_ _
  rw [(jobState_frame _ r .running).store (by decide), (setPhase_frame _ r .reading).store (by decide)]

/-- The chain of a job whose READ is requested. -/
theorem startRead_chain {j : Job} (hj : s.job c = some j) (hg : j.seg = some g)
    (room : (s.queue (channelOf x)).length < 16) (nobody : s.store.placeWait = []) (again : Bool) :
    (s.startRead (.chain c) x again).chain c =
      { s.chain c with state := .running, desc := (s.chain c).desc.map (fun d =>
          { d with job := some (j.withSeg { g with phase := .reading }) }) } := by
  obtain ⟨u, begun, frame, -⟩ := startRead_of_open room nobody (.chain c) again
  have chain := chain_of_ports (frame.ports (by decide)) c
  have job := (job_of_chain chain).trans hj
  rw [begun, setPhase_chain_eq job hg]
  unfold State.jobState State.setChainState
  dsimp only
  rw [chain_modChain, if_pos rfl, chain_setJob, if_pos rfl, chain]

theorem segJob_startRead (hg : s.segJob (.chain c) = some g) (room : (s.queue (channelOf x)).length < 16)
    (nobody : s.store.placeWait = []) (again : Bool) :
    (s.startRead (.chain c) x again).segJob (.chain c) = some { g with phase := .reading }
      ∧ ((s.startRead (.chain c) x again).chain c).state = .running := by
  obtain ⟨u, begun, frame, -⟩ := startRead_of_open room nobody (.chain c) again
  have own : u.segJob (.chain c) = some g :=
    (congrArg (Option.bind · Job.seg) (job_of_chain (chain_of_ports (frame.ports (by decide)) c))).trans hg
  rw [begun]
  exact ⟨(segJob_setChainState _ c c _).trans (segJob_setPhase own _), state_setChainState _ c _⟩

theorem startRead_scrub (hg : s.audit.scrub = some g) (room : (s.queue (channelOf x)).length < 16)
    (nobody : s.store.placeWait = []) (again : Bool) :
    (s.startRead .scrub x again).audit = { s.audit with scrub := some { g with phase := .reading } }
      ∧ s.sameBut [.store, .audit] (s.startRead .scrub x again) := by
  obtain ⟨u, begun, frame, -⟩ := startRead_of_open room nobody .scrub again
  have audit := frame.audit (by decide)
  rw [begun, setPhase_scrub (g := g) (by rw [audit]; exact hg), audit]
  exact ⟨rfl, sameBut_then frame (setAudit_frame u _) (by decide) (by decide)⟩

/-! ## A pin taken -/

/-- One entry is changed and its READ requested: the entries and the queue, in a state that is the first but for its chains
and its Audit Unit. -/
theorem modEntry_startRead {w : State} {f : Entry → Entry} (hx : reservedExtents ≤ x)
    (room : (s.queue (channelOf x)).length < 16) (nobody : s.store.placeWait = []) (before : s.sameBut [.ports, .audit] u)
    (after : (u.modEntry x f).sameBut [.ports, .audit] w) (r : JobRef) :
    ((w.queue (channelOf x)).length < 16 ∧ w.store.placeWait = [])
      ∧ (w.startRead r x false).entry x = f (s.entry x) ∧ (∀ y, y ≠ x → (w.startRead r x false).entry y = s.entry y)
      ∧ (w.startRead r x false).queue (channelOf x) = s.queue (channelOf x) ++ [.segRead x (some r) false] := by
  have store : w.store = s.store := (after.store (by decide)).trans
    (((modEntry_frame u x f).store (by decide)).trans (before.store (by decide)))
  have queue := queue_of_store store (channelOf x)
  have rooms : (w.queue (channelOf x)).length < 16 ∧ w.store.placeWait = [] := by
    rw [queue, store]
    exact ⟨room, nobody⟩
  have entries : ∀ y, (w.startRead r x false).entry y = if y = x then f (s.entry x) else s.entry y := fun y => by
    rw [entry_of_catalogue ((startRead_frame w r x false).catalogue (by decide)),
      entry_of_catalogue (after.catalogue (by decide)), entry_modEntry u x y f hx,
      entry_of_catalogue (before.catalogue (by decide)), entry_of_catalogue (before.catalogue (by decide))]
  refine ⟨rooms, (entries x).trans (if_pos rfl), fun y hy => (entries y).trans (if_neg hy), ?_⟩
  rw [startRead_queue rooms.1 rooms.2, queue]

/-- A job that holds its pin goes on to its READ, a retrieval with its count of DAMAGED segments set. -/
theorem goOnPinned_eq (s : State) (c : ChainRef) (x : Nat) : ∃ u, s.goOnPinned c x = u.startRead (.chain c) x false
    ∧ s.sameBut [.ports] u ∧ u.segJob (.chain c) = s.segJob (.chain c) := by
  unfold State.goOnPinned
  split
  · rename_i q hj
    split
    · refine ⟨_, rfl, setJob_frame s c _, ?_⟩
      show ((s.setJob c _).job c).bind Job.seg = (s.job c).bind Job.seg
      rw [job_setJob_of_job hj, hj]
      rfl
    · exact ⟨s, rfl, sameBut_refl _ s, rfl⟩
  · exact ⟨s, rfl, sameBut_refl _ s, rfl⟩

theorem goOnPinned_verify {v : Verify} (hj : s.job c = some (.verify v)) (x : Nat) :
    s.goOnPinned c x = s.startRead (.chain c) x false := by
  unfold State.goOnPinned
  rw [hj]

theorem beginVerify_eq {v : SegFields} (hv : (s.entry x).seg = some v) (below : x < extentCount)
    (accepts : (s.entry x).accepts v.serial = true) (journalPass : Bool) :
    s.beginVerify a x journalPass
      = (s.setJob (refOf a) (.verify { seg := ⟨x, v.serial, .pinned⟩, journalPass })).askPin (refOf a) x := by
  unfold State.beginVerify
  rw [if_neg (Nat.not_le.mpr below), hv]
  dsimp only
  rw [if_pos accepts]

theorem accepts_of_state {e : Entry} {v : SegFields} (hv : e.seg = some v)
    (state : e.state = .sealed ∨ e.state = .expiryWait ∨ e.state = .damaged) : e.accepts v.serial = true := by
  unfold Entry.accepts
  rw [hv]
  rcases state with st | st | st <;> simp [st]

/-- The enabled scrub begins on a SEALED or DAMAGED segment at its pointer that has a pin to spare. -/
theorem considerScrub_begins {v : SegFields} (ready : s.power = .ready) (on : s.audit.enable = true)
    (idle : s.audit.scrub = none) (places : s.freePlaces ≠ 0) (pointer : s.audit.pointer = x) (hv : (s.entry x).seg = some v)
    (pins : (s.entry x).pins < 4) (state : (s.entry x).state = .sealed ∨ (s.entry x).state = .damaged) :
    s.considerScrub = s.beginScrub x v.serial := by
  unfold State.considerScrub
  rw [if_pos ⟨ready, on, idle, places⟩]
  dsimp only
  rw [pointer, hv]
  dsimp only
  rw [if_pos state, if_pos pins]

/-- A request granted goes on, where a retrieval still selects the entry. -/
theorem grantPin_goesOn {rest : List ChainRef} (hx : reservedExtents ≤ x) (granted : (s.entry x).granted = c :: rest)
    (hg : s.segJob (.chain c) = some g)
    (selects : ∀ q, s.job c = some (.retrieval q) → q.selects (s.roles c.port).audit (s.entry x) = true) :
    s.grantPin x = (s.modEntry x (fun e => { e with granted := rest })).goOnPinned c x := by
  have frame := modEntry_frame s x (fun e => { e with granted := rest })
  have job : (s.modEntry x (fun e => { e with granted := rest })).job c = s.job c :=
    job_of_chain (chain_of_ports (frame.ports (by decide)) c)
  have entry := entry_modEntry s x x (fun e => { e with granted := rest }) hx
  rw [if_pos rfl] at entry
  have roles : (s.modEntry x (fun e => { e with granted := rest })).roles c.port = s.roles c.port := by
    unfold State.roles
    rw [frame.straps (by decide)]
  unfold State.grantPin
  rw [granted]
  dsimp only
  unfold State.pinGranted
  rw [job]
  obtain ⟨j, hj, hs⟩ := job_of_segJob hg
  rw [hj]
  cases j with
  | retrieval q =>
    dsimp only
    rw [roles, entry]
    exact if_pos (selects q hj)
  | verify v => rfl
  | feed f => cases hs
  | journalRead q => cases hs
  | catalogueRead w => cases hs

end Sys2Proof.Machine
end

section
open Sys2Proof Sys2Proof.Machine

/-- Settles O29: in each of the three cases one entry's pins or grants change, and the READ joins the channel's queue. -/
theorem pinnedSegmentIsRead : Obligations.PinnedSegmentIsRead := by
  unfold Obligations.PinnedSegmentIsRead
  intro s x v ch hv room nobody
  have hx := reserved_le_of_seg hv
  refine ⟨fun a journalPass h below pins state => ?_, fun ready on idle pointer places pins state => ?_,
    fun c rest g granted hg selects => ?_⟩
  · refine ⟨_, rfl, ?_⟩
    unfold verify
    rw [descriptor_of_arrives h, beginVerify_eq (s := s.holding a) hv below (accepts_of_state hv state)]
    have begun := sameBut_then (m := [.ports]) (holding_frame s a)
      (setJob_frame _ (refOf a) (.verify { seg := ⟨x, v.serial, .pinned⟩, journalPass })) (by decide) (by decide)
    have chain := chain_setJob_holding s a (.verify { seg := ⟨x, v.serial, .pinned⟩, journalPass })
    generalize (s.holding a).setJob (refOf a) (.verify { seg := ⟨x, v.serial, .pinned⟩, journalPass }) = u at begun chain ⊢
    unfold State.askPin
    rw [entry_of_catalogue (begun.catalogue (by decide)), if_pos pins]
    obtain ⟨rooms, own, others, queue⟩ := modEntry_startRead (f := fun e => { e with pins := e.pins + 1 }) hx room nobody
      (sameBut_mono begun (by decide)) (sameBut_refl _ _) (.chain (refOf a))
    have pinned := modEntry_frame u x (fun e => { e with pins := e.pins + 1 })
    have held := (chain_of_ports (pinned.ports (by decide)) (refOf a)).trans chain
    generalize u.modEntry x (fun e => { e with pins := e.pins + 1 }) = w at pinned held rooms own others queue ⊢
    have job : w.job (refOf a) = some (.verify { seg := ⟨x, v.serial, .pinned⟩, journalPass }) := by
      unfold State.job
      rw [held]
      rfl
    have whole := sameBut_then (m := [.ports, .catalogue, .store]) (sameBut_then (m := [.ports, .catalogue]) begun pinned
      (by decide) (by decide)) (startRead_chain_frame w (refOf a) x false) (by decide) (by decide)
    rw [goOnPinned_verify job]
    refine ⟨⟨?_, whole.out (by decide)⟩, own, others, queue, whole⟩
    rw [startRead_chain job rfl rooms.1 rooms.2, held]
    rfl
  · refine ⟨_, rfl, ?_⟩
    rw [considerScrub_begins ready on idle places pointer hv pins state]
    unfold State.beginScrub
    have pinned := modEntry_frame s x (fun e => { e with pins := e.pins + 1 })
    have marked := setAudit_frame (s.modEntry x (fun e => { e with pins := e.pins + 1 }))
      { s.audit with scrub := some ⟨x, v.serial, .pinned⟩ }
    obtain ⟨rooms, own, others, queue⟩ := modEntry_startRead hx room nobody (sameBut_refl _ s)
      (sameBut_mono marked (by decide)) .scrub
    dsimp only
    rw [pinned.audit (by decide)]
    obtain ⟨audit, read⟩ := startRead_scrub (g := ⟨x, v.serial, .pinned⟩) rfl rooms.1 rooms.2 false
    exact ⟨audit, own, others, queue, sameBut_then (m := [.audit, .catalogue, .store])
      (sameBut_then (m := [.audit, .catalogue]) pinned marked (by decide) (by decide)) read (by decide) (by decide)⟩
  · refine ⟨_, rfl, ?_⟩
    rw [grantPin_goesOn hx granted hg selects]
    have taken := modEntry_frame s x (fun e => { e with granted := rest })
    obtain ⟨w, goes, ports, own⟩ := goOnPinned_eq (s.modEntry x (fun e => { e with granted := rest })) c x
    rw [segJob_modEntry, hg] at own
    obtain ⟨rooms, entry, others, queue⟩ := modEntry_startRead hx room nobody (sameBut_refl _ s)
      (sameBut_mono ports (by decide)) (.chain c)
    obtain ⟨seg, running⟩ := segJob_startRead own rooms.1 rooms.2 false
    rw [goes]
    exact ⟨entry, others, seg, running, queue, sameBut_then (m := [.ports, .catalogue, .store])
      (sameBut_then (m := [.ports, .catalogue]) taken ports (by decide) (by decide)) (startRead_chain_frame w c x false)
      (by decide) (by decide)⟩
end

section

/-!
SUPPORT. A page WRITE that ends (R90, R122, R146, R149, R150): what the reports of durable entries leave of the Journal's
position, and what they make of the entry of an extent.
-/

namespace Sys2Proof.Machine

variable {s t u : State}

/-! ## The Journal's position -/

/-- The last durable serial, the write position, the last slot and the page map stay. -/
structure State.positionKept (s t : State) : Prop where
  durable : t.journal.durable = s.journal.durable
  writePos : t.journal.writePos = s.journal.writePos
  lastSlot : t.journal.lastSlot = s.journal.lastSlot
  pageMap : t.journal.pageMap = s.journal.pageMap

theorem positionKept_refl (s : State) : s.positionKept s := ⟨rfl, rfl, rfl, rfl⟩

theorem positionKept_trans (h : s.positionKept t) (k : t.positionKept u) : s.positionKept u :=
  ⟨k.durable.trans h.durable, k.writePos.trans h.writePos, k.lastSlot.trans h.lastSlot, k.pageMap.trans h.pageMap⟩

theorem positionKept_of_frame {l : List Part} (h : s.sameBut l t) (hl : Part.journal ∉ l) : s.positionKept t := by
  have same := h.journal hl
  exact ⟨by rw [same], by rw [same], by rw [same], by rw [same]⟩

theorem positionKept_of_rest (h : s.journal.sameRest t.journal) : s.positionKept t :=
  ⟨h.durable, h.writePos, h.lastSlot, h.pageMap⟩

theorem positionKept_decideLow (s : State) : s.positionKept s.decideLow := by
  constructor <;> rw [decideLow_journal]

theorem positionKept_reserveWait (s : State) : s.positionKept s.reserveWait := by
  unfold State.reserveWait
  split
  · exact positionKept_refl s
  · exact ⟨rfl, rfl, rfl, rfl⟩

theorem positionKept_appendRaw (s : State) (body : JBody) : s.positionKept (s.appendRaw body) := by
  obtain ⟨-, -, rest⟩ := appendRaw_spec s body
  exact ⟨rest.durable, rest.writePos, rest.lastSlot, rest.pageMap⟩

theorem positionKept_joinAppend (s : State) (r : AppendReq) : s.positionKept (s.joinAppend r) := by
  unfold State.joinAppend
  refine positionKept_trans (positionKept_trans ?_ (positionKept_reserveWait _)) (positionKept_decideLow _)
  exact ⟨rfl, rfl, rfl, rfl⟩

theorem positionKept_ask_fileClosed (s : State) (body : JBody) (k : Nat) : s.positionKept (s.ask body (.fileClosed k)) := by
  unfold State.ask
  split
  · refine positionKept_trans (positionKept_trans (positionKept_appendRaw s body) ?_) (positionKept_decideLow _)
    exact positionKept_of_frame (closeFile_frame _ k) (by decide)
  · exact positionKept_joinAppend s _

theorem positionKept_handOver (s : State) (k : Nat) : s.positionKept (s.handOver k) := by
  unfold State.handOver
  split
  · split
    · split
      · exact positionKept_trans (positionKept_of_frame (setRecons_frame s _) (by decide)) (positionKept_ask_fileClosed _ _ _)
      · exact positionKept_refl s
    · exact positionKept_refl s
  · exact positionKept_refl s

theorem positionKept_tellFile (s : State) (v : SegFields) : s.positionKept (s.tellFile v) := by
  unfold State.tellFile
  split
  · exact positionKept_trans (positionKept_of_frame (modFile_frame s _ _) (by decide)) (positionKept_handOver _ _)
  · exact positionKept_refl s

theorem positionKept_sealDurable (s : State) (x n : Nat) (b : Bool) : s.positionKept (s.sealDurable x n b) := by
  unfold State.sealDurable
  split
  · split
    · have counted : ∀ f, s.positionKept (s.modEntry x f).recomputeL := fun f =>
        positionKept_trans (positionKept_of_frame (modEntry_frame s x f) (by decide))
          (positionKept_of_frame (recomputeL_frame _) (by decide))
      dsimp only
      split
      · exact positionKept_trans (counted _) (positionKept_tellFile _ _)
      · exact counted _
    · exact positionKept_refl s
  · exact positionKept_refl s

theorem positionKept_reportDurable (s : State) (e : JEntry) : s.positionKept (s.reportDurable e) := by
  unfold State.reportDurable
  split
  · exact positionKept_sealDurable s _ _ _
  · exact positionKept_sealDurable s _ _ _
  · exact positionKept_of_frame (retireDurable_frame s _ _) (by decide)
  · exact positionKept_of_frame (retireDurable_frame s _ _) (by decide)
  · exact positionKept_refl s

theorem positionKept_foldl_reportDurable (l : List JEntry) (s : State) : s.positionKept (l.foldl State.reportDurable s) := by
  induction l generalizing s with
  | nil => exact positionKept_refl s
  | cons e l ih => exact positionKept_trans (positionKept_reportDurable s e) (ih _)

/-! ## The parts that a report can change -/

/-- What the report of a durable entry can change: a file that it closes holds no staging buffer and no lane. -/
def reportParts : List Part := [.journal, .store, .catalogue, .settings, .streams, .files, .recons, .scanner, .ports, .out]

theorem tellFile_closed_frame (s : State) (v : SegFields) :
    s.sameBut [.files, .streams, .recons, .ports, .journal, .store, .scanner, .out] (s.tellFile v) := by
  unfold State.tellFile
  split
  · exact sameBut_then (modFile_frame s _ _) (handOver_closed_frame _ _) (by decide) (by decide)
  · exact sameBut_refl _ s

theorem sealDurable_closed_frame (s : State) (x n : Nat) (b : Bool) : s.sameBut reportParts (s.sealDurable x n b) := by
  unfold State.sealDurable
  split
  · refine sameBut_ite ?_ (sameBut_refl _ s)
    have counted : ∀ f, s.sameBut reportParts (s.modEntry x f).recomputeL := fun f =>
      sameBut_then (modEntry_frame s _ _) (recomputeL_frame _) (by decide) (by decide)
    exact sameBut_ite (sameBut_trans (counted _) (sameBut_mono (tellFile_closed_frame _ _) (by decide))) (counted _)
  · exact sameBut_refl _ s

theorem reportDurable_closed_frame (s : State) (e : JEntry) : s.sameBut reportParts (s.reportDurable e) := by
  unfold State.reportDurable
  split
  · exact sealDurable_closed_frame s _ _ _
  · exact sealDurable_closed_frame s _ _ _
  · exact sameBut_mono (retireDurable_frame s _ _) (by decide)
  · exact sameBut_mono (retireDurable_frame s _ _) (by decide)
  · exact sameBut_refl _ s

/-! ## The entry of an extent under the reports -/

/-- An entry once the seal entry of a serial is durable (R90). -/
def State.afterSeal (s : State) (n : Nat) (e : Entry) : Entry :=
  match e.seg with
  | some v =>
    if e.state = .journaling ∧ e.sealJournal = some n then
      { e with state := .sealed, sealJournal := none, holds := s.coverCount v }
    else e
  | none => e

/-- An entry once the EXPIRED or DISCARDED entry of a serial is durable (R122). -/
def Entry.afterRetire (n : Nat) (e : Entry) : Entry :=
  if e.state = .retiring ∧ e.retireJournal = some n then { e with state := .erasing, retireJournal := none } else e

/-- The entry of an extent once a journal entry is durable. -/
def State.afterReport (s : State) (x : Nat) (e : Entry) (j : JEntry) : Entry :=
  match j.body with
  | .sealed f => if x = f.extent then s.afterSeal j.serial e else e
  | .recoveredSeal f => if x = f.extent then s.afterSeal j.serial e else e
  | .expired y _ _ _ _ _ _ => if x = y then e.afterRetire j.serial else e
  | .discarded y _ _ _ _ _ _ _ => if x = y then e.afterRetire j.serial else e
  | _ => e

theorem afterSeal_of_due {n : Nat} {e : Entry} {v : SegFields} (hv : e.seg = some v) (state : e.state = .journaling)
    (due : e.sealJournal = some n) :
    s.afterSeal n e = { e with state := .sealed, sealJournal := none, holds := s.coverCount v } := by
  unfold State.afterSeal
  rw [hv]
  exact if_pos ⟨state, due⟩

theorem afterSeal_of_not_due {n : Nat} {e : Entry} (h : ¬ (e.state = .journaling ∧ e.sealJournal = some n)) :
    s.afterSeal n e = e := by
  unfold State.afterSeal
  split
  · exact if_neg h
  · rfl

theorem afterRetire_of_not_due {n : Nat} {e : Entry} (h : ¬ (e.state = .retiring ∧ e.retireJournal = some n)) :
    e.afterRetire n = e := if_neg h

theorem sealDurable_entry (s : State) (y n : Nat) (b : Bool) (x : Nat) :
    (s.sealDurable y n b).entry x = if x = y then s.afterSeal n (s.entry x) else s.entry x := by
  unfold State.sealDurable
  split
  · rename_i v hv
    split
    · rename_i due
      obtain ⟨state, serial⟩ := due
      have counted : ∀ f, (s.modEntry y f).recomputeL.entry x = if x = y then f (s.entry y) else s.entry x := fun f =>
        (entry_of_catalogue ((recomputeL_frame _).catalogue (by decide)) x).trans
          (entry_modEntry s y x f (reserved_le_of_seg hv))
      have becomes :
          (s.modEntry y (fun e => { e with state := .sealed, sealJournal := none, holds := s.coverCount v })).recomputeL.entry x
            = if x = y then s.afterSeal n (s.entry x) else s.entry x := by
        rw [counted]
        split
        · rename_i e
          rw [e, afterSeal_of_due hv state serial]
        · rfl
      cases b
      · exact becomes
      · exact (entry_of_catalogue ((tellFile_closed_frame _ v).catalogue (by decide)) x).trans becomes
    · rename_i not_due
      split
      · rename_i e
        rw [e, afterSeal_of_not_due not_due]
      · rfl
  · rename_i none
    split
    · rename_i e
      unfold State.afterSeal
      rw [e, none]
    · rfl

theorem retireDurable_entry (s : State) (y n x : Nat) :
    (s.retireDurable y n).entry x = if x = y then (s.entry x).afterRetire n else s.entry x := by
  unfold State.retireDurable
  split
  · rename_i due
    have data : reservedExtents ≤ y := reserved_le_of_state (by rw [due.1]; decide)
    rw [entry_of_catalogue ((request_frame _ _ _).catalogue (by decide)), entry_modEntry s y x _ data]
    split
    · rename_i e
      rw [e]
      exact (if_pos due).symm
    · rfl
  · rename_i not_due
    split
    · rename_i e
      rw [e, afterRetire_of_not_due not_due]
    · rfl

theorem reportDurable_entry (s : State) (j : JEntry) (x : Nat) :
    (s.reportDurable j).entry x = s.afterReport x (s.entry x) j := by
  obtain ⟨serial, time, body⟩ := j
  cases body
  case sealed f => exact sealDurable_entry s _ _ _ x
  case recoveredSeal f => exact sealDurable_entry s _ _ _ x
  case expired y _ _ _ _ _ _ => exact retireDurable_entry s _ _ x
  case discarded y _ _ _ _ _ _ _ => exact retireDurable_entry s _ _ x
  all_goals rfl

/-! ## The holds that a seal counts -/

theorem sealDurable_holds (s : State) (x n : Nat) (b : Bool) : (s.sealDurable x n b).settings.holds = s.settings.holds := by
  unfold State.sealDurable
  split
  · split
    · have counted : ∀ f, (s.modEntry x f).recomputeL.settings.holds = s.settings.holds := fun f => by
        obtain ⟨l, changed⟩ := recomputeL_settings (s := s.modEntry x f)
        rw [changed, ← (modEntry_frame s x f).settings (by decide)]
      cases b
      · exact counted _
      · exact (congrArg Settings.holds ((tellFile_closed_frame _ _).settings (by decide))).trans (counted _)
    · rfl
  · rfl

theorem reportDurable_holds (s : State) (j : JEntry) : (s.reportDurable j).settings.holds = s.settings.holds := by
  unfold State.reportDurable
  split
  · exact sealDurable_holds s _ _ _
  · exact sealDurable_holds s _ _ _
  · rw [(retireDurable_frame s _ _).settings (by decide)]
  · rw [(retireDurable_frame s _ _).settings (by decide)]
  · rfl

/-- What a report makes of an entry depends on the state by its holds alone. -/
theorem afterReport_of_holds (h : t.settings.holds = s.settings.holds) : t.afterReport = s.afterReport := by
  have counts : t.coverCount = s.coverCount := by
    unfold State.coverCount
    rw [h]
  unfold State.afterReport State.afterSeal
  rw [counts]

theorem foldl_reportDurable_entry (l : List JEntry) (s : State) (x : Nat) :
    (l.foldl State.reportDurable s).entry x = l.foldl (s.afterReport x) (s.entry x) := by
  induction l generalizing s with
  | nil => rfl
  | cons j l ih => rw [List.foldl_cons, List.foldl_cons, ih, reportDurable_entry, afterReport_of_holds (reportDurable_holds s j)]

/-! ## The entries that are due -/

/-- A fold that can only move from one value to another, which it then keeps, gets there when one item of the list does. -/
theorem foldl_moves {α β : Type} {f : β → α → β} {a b : β} {l : List α} {c : α} (moves : ∀ d, f a d = a ∨ f a d = b)
    (stays : ∀ d, f b d = b) (hit : f a c = b) (mem : c ∈ l) : l.foldl f a = b := by
  have still : ∀ l : List α, l.foldl f b = b := fun l => by
    induction l with
    | nil => rfl
    | cons d l ih => rw [List.foldl_cons, stays, ih]
  induction l with
  | nil => cases mem
  | cons d l ih =>
    rw [List.foldl_cons]
    rcases List.mem_cons.mp mem with rfl | later
    · rw [hit, still]
    · rcases moves d with same | moved
      · rw [same, ih later]
      · rw [moved, still]

/-- An entry that is neither JOURNALING nor RETIRING waits for no report. -/
theorem afterReport_of_settled {x : Nat} {e : Entry} (sealing : e.state ≠ .journaling) (retiring : e.state ≠ .retiring)
    (j : JEntry) : s.afterReport x e j = e := by
  have noSeal : s.afterSeal j.serial e = e := afterSeal_of_not_due fun h => sealing h.1
  have noRetire : e.afterRetire j.serial = e := afterRetire_of_not_due fun h => retiring h.1
  unfold State.afterReport
  split <;> simp only [noSeal, noRetire, ite_self]

theorem foldl_report_seals {x : Nat} {e : Entry} {v : SegFields} {l : List JEntry} {j : JEntry} (mem : j ∈ l) {f : SealFields}
    (body : j.body = .sealed f ∨ j.body = .recoveredSeal f) (extent : x = f.extent) (state : e.state = .journaling)
    (due : e.sealJournal = some j.serial) (hv : e.seg = some v) : l.foldl (s.afterReport x) e
      = { e with state := .sealed, sealJournal := none, holds := s.coverCount v } := by
  refine foldl_moves (c := j) (fun d => ?_) (fun d => afterReport_of_settled (by simp) (by simp) d) ?_ mem
  · have noRetire : e.afterRetire d.serial = e := afterRetire_of_not_due fun h => by rw [state] at h; cases h.1
    have seals : s.afterSeal d.serial e = e
        ∨ s.afterSeal d.serial e = { e with state := .sealed, sealJournal := none, holds := s.coverCount v } := by
      by_cases same : e.sealJournal = some d.serial
      · exact .inr (afterSeal_of_due hv state same)
      · exact .inl (afterSeal_of_not_due fun h => same h.2)
    unfold State.afterReport
    split
    · split
      · exact seals
      · exact .inl rfl
    · split
      · exact seals
      · exact .inl rfl
    all_goals simp only [noRetire, ite_self, true_or]
  · unfold State.afterReport
    rcases body with body | body
    all_goals
      rw [body]
      exact (if_pos extent).trans (afterSeal_of_due hv state due)

/-- A journal entry that tells of the retirement of an extent. -/
def retiresExtent (x : Nat) : JBody → Prop
  | .expired y _ _ _ _ _ _ => x = y
  | .discarded y _ _ _ _ _ _ _ => x = y
  | _ => False

theorem foldl_report_erases {x : Nat} {e : Entry} {l : List JEntry} {j : JEntry} (mem : j ∈ l) (body : retiresExtent x j.body)
    (state : e.state = .retiring) (due : e.retireJournal = some j.serial) :
    l.foldl (s.afterReport x) e = { e with state := .erasing, retireJournal := none } := by
  refine foldl_moves (c := j) (fun d => ?_) (fun d => afterReport_of_settled (by simp) (by simp) d) ?_ mem
  · have noSeal : s.afterSeal d.serial e = e := afterSeal_of_not_due fun h => by rw [state] at h; cases h.1
    have erases : e.afterRetire d.serial = e ∨ e.afterRetire d.serial = { e with state := .erasing, retireJournal := none } := by
      unfold Entry.afterRetire
      split
      · exact .inr rfl
      · exact .inl rfl
    unfold State.afterReport
    split
    · simp only [noSeal, ite_self, true_or]
    · simp only [noSeal, ite_self, true_or]
    · split
      · exact erases
      · exact .inl rfl
    · split
      · exact erases
      · exact .inl rfl
    · exact .inl rfl
  · have hit : e.afterRetire j.serial = { e with state := .erasing, retireJournal := none } := if_pos ⟨state, due⟩
    obtain ⟨serial, time, b⟩ := j
    cases b
    case expired => exact (if_pos body).trans hit
    case discarded => exact (if_pos body).trans hit
    all_goals exact absurd body id

end Sys2Proof.Machine
end

section

/-! SUPPORT. The two ends of a page WRITE (R149, R150). -/

namespace Sys2Proof.Machine

variable {s : State}

/-- The state in which the entries of a durable page are reported: the page stands at the write position, which has moved
on with the buffers. -/
structure State.pageStands (s : State) (entries : List JEntry) (u : State) : Prop where
  durable : u.journal.durable = (entries.getLast?.map (·.serial)).getD s.journal.durable
  lastSlot : u.journal.lastSlot = some s.journal.writePos
  writePos : u.journal.writePos = (s.journal.writePos + 1) % 32768
  pageMap : u.journal.pageMap = tput s.journal.pageMap s.journal.writePos (entries.map (·.serial))
  pages : u.flash.pages = tput s.flash.pages s.journal.writePos (entries.map (fun e => ⟨e, true⟩))
  rest : s.sameBut [.flash, .journal, .store] u

/-- The state in which a durable page is noted and the write position has moved on (R149). -/
def State.pageNoted (s : State) (i : Fin 2) : State :=
  ((s.setPage s.journal.writePos (s.journal.bufs[i.val].entries.map (fun e => ⟨e, true⟩))).setJournal { s.journal with
    durable := (s.journal.bufs[i.val].entries.getLast?.map (·.serial)).getD s.journal.durable,
    lastSlot := some s.journal.writePos,
    pageMap := tput s.journal.pageMap s.journal.writePos (s.journal.bufs[i.val].entries.map (·.serial)),
    bufs := vset s.journal.bufs i ⟨.free, []⟩ }).advanceWrite

theorem pageNoted_frame (s : State) (i : Fin 2) : s.sameBut [.flash, .journal] (s.pageNoted i) := by
  unfold State.pageNoted
  refine sameBut_trans ?_ (sameBut_mono (advanceWrite_frame _) (by decide))
  exact sameBut_then (setPage_frame s _ _) (setJournal_frame _ _) (by decide) (by decide)

theorem pageWritten_eq (s : State) (i : Fin 2) : ∃ u, s.pageStands s.journal.bufs[i.val].entries u
    ∧ s.pageWritten i = ((s.journal.bufs[i.val].entries.foldl State.reportDurable u).reserveWait).decideLow := by
  have kept : (s.pageNoted i).positionKept (State.pumpPages 6 (s.pageNoted i).startPageWrite) :=
    positionKept_trans (positionKept_of_rest (startPageWrite_rest _)) (positionKept_of_rest (pumpPages_rest 6 _))
  have pumped : (s.pageNoted i).sameBut [.journal, .store] (State.pumpPages 6 (s.pageNoted i).startPageWrite) :=
    sameBut_trans (startPageWrite_frame _) (pumpPages_frame 6 _)
  exact ⟨_, ⟨kept.durable, kept.lastSlot, kept.writePos, kept.pageMap, congrArg Flash.pages (pumped.flash (by decide)),
    sameBut_then (pageNoted_frame s i) pumped (by decide) (by decide)⟩, rfl⟩

/-- What a page WRITE that completes leaves: the page and the position, and each entry as the reports make it. -/
structure State.pageDurable (s : State) (entries : List JEntry) (t : State) : Prop where
  durable : t.journal.durable = (entries.getLast?.map (·.serial)).getD s.journal.durable
  lastSlot : t.journal.lastSlot = some s.journal.writePos
  writePos : t.journal.writePos = (s.journal.writePos + 1) % 32768
  pageMap : t.journal.pageMap = tput s.journal.pageMap s.journal.writePos (entries.map (·.serial))
  pages : t.flash.pages = tput s.flash.pages s.journal.writePos (entries.map (fun e => ⟨e, true⟩))
  entry : ∀ x, t.entry x = entries.foldl (s.afterReport x) (s.entry x)
  rest : s.sameBut (.flash :: reportParts) t

theorem pageDurable_pageWritten (s : State) (i : Fin 2) :
    s.pageDurable s.journal.bufs[i.val].entries (s.pageWritten i) := by
  obtain ⟨u, stands, eq⟩ := pageWritten_eq s i
  rw [eq]
  generalize s.journal.bufs[i.val].entries = l at stands
  have kept := positionKept_trans (positionKept_foldl_reportDurable l u)
    (positionKept_trans (positionKept_reserveWait _) (positionKept_decideLow _))
  have decided : (l.foldl State.reportDurable u).sameBut [.journal, .scanner, .ports, .out]
      (l.foldl State.reportDurable u).reserveWait.decideLow := nextAppend_frame _
  have told : u.sameBut reportParts (l.foldl State.reportDurable u).reserveWait.decideLow :=
    sameBut_trans (sameBut_foldl reportDurable_closed_frame l u) (sameBut_mono decided (by decide))
  refine ⟨kept.durable.trans stands.durable, kept.lastSlot.trans stands.lastSlot, kept.writePos.trans stands.writePos,
    kept.pageMap.trans stands.pageMap, (congrArg Flash.pages (told.flash (by decide))).trans stands.pages, fun x => ?_,
    sameBut_then stands.rest told (by decide) (by decide)⟩
  rw [entry_of_catalogue (decided.catalogue (by decide)), foldl_reportDurable_entry,
    afterReport_of_holds (congrArg Settings.holds (stands.rest.settings (by decide))),
    entry_of_catalogue (stands.rest.catalogue (by decide))]

/-- The state in which a page whose WRITE failed is ready again, for the next slot (R150). -/
def State.pageAgain (s : State) (i : Fin 2) : State :=
  (((s.setPage s.journal.writePos []).setJournal
    { s.journal with failures := s.journal.failures + 1 }).advanceWrite).setPageState i .ready

/-- A page buffer keeps its entries when the state of a buffer changes. -/
theorem vmod_entries (v : Vector PageBuf 2) (i k : Fin 2) (st : PageState) :
    (vmod v k (fun b => { b with state := st }))[i.val].entries = v[i.val].entries := by
  by_cases e : i = k
  · rw [e, vmod_get_self]
  · rw [vmod_get_of_ne v e]

/-- A page WRITE that fails leaves the durable entries, and its own entries in their buffer (R150). -/
theorem pageFailed_eq (s : State) (i : Fin 2) : (s.pageFailed i).journal.durable = s.journal.durable
    ∧ (s.pageFailed i).journal.failures = s.journal.failures + 1
    ∧ (s.pageFailed i).journal.writePos = (s.journal.writePos + 1) % 32768
    ∧ tget (s.pageFailed i).flash.pages s.journal.writePos = some []
    ∧ (s.pageFailed i).journal.bufs[i.val].entries = s.journal.bufs[i.val].entries := by
  have eq : s.pageFailed i = (s.pageAgain i).startPageWrite := rfl
  have rest := startPageWrite_rest (s.pageAgain i)
  have bufs : (s.pageAgain i).startPageWrite.journal.bufs[i.val].entries = (s.pageAgain i).journal.bufs[i.val].entries := by
    rcases startPageWrite_journal (s.pageAgain i) with same | ⟨k, writing⟩
    · rw [same]
    · rw [writing]
      exact vmod_entries _ _ _ _
  rw [eq]
  refine ⟨rest.durable, rest.failures, rest.writePos, ?_, bufs.trans (vmod_entries _ _ _ _)⟩
  rw [(startPageWrite_frame _).flash (by decide)]
  exact tget_tput_self _ _ _

end Sys2Proof.Machine
end

section
open Sys2Proof Sys2Proof.Machine

/-- Settles O43: each report of a durable entry acts on the entry of its extent alone, so the reports of a page are a fold
over that entry, which leaves JOURNALING or RETIRING at the report that it waits for and then stays. -/
theorem pageWriteMakesEntriesDurable : Obligations.PageWriteMakesEntriesDurable := by
  unfold Obligations.PageWriteMakesEntriesDurable
  intro s i flight writing
  have ends : ∀ ok, exec (.journalPageWriteComplete ok) s
      = .next (if ok then (s.popQueue 0).pageWritten i else (s.popQueue 0).pageFailed i) := fun ok => by
    show Host.Outcome.next (s.completePage ok) = _
    unfold State.completePage
    rw [flight, writing]
  have popped := popQueue_frame s 0
  refine ⟨fun last hl => ⟨_, ends true, ?_⟩, _, ends false, ?_⟩
  · obtain ⟨durable, lastSlot, writePos, pageMap, pages, entry, rest⟩ := pageDurable_pageWritten (s.popQueue 0) i
    refine ⟨?_, lastSlot, writePos, ?_, ?_, fun k hk => ?_, ?_, ?_, ?_, sameBut_then popped rest (by decide) (by decide)⟩
    · exact durable.trans (congrArg (fun l => (l.map JEntry.serial).getD s.journal.durable) hl)
    · exact (congrArg (tget · s.journal.writePos) pageMap).trans (tget_tput_self _ _ _)
    · exact (congrArg (tget · s.journal.writePos) pages).trans (tget_tput_self _ _ _)
    · exact (congrArg (tget · k) pages).trans (tget_tput_of_ne hk _ _)
    · intro e he f v body state due hv
      exact (entry _).trans (foldl_report_seals he body rfl state due hv)
    · intro e he x source serial cls days until_ today body state due
      exact (entry x).trans (foldl_report_erases he (by rw [body]; rfl) state due)
    · intro e he x source serial cls count minDay maxDay p body state due
      exact (entry x).trans (foldl_report_erases he (by rw [body]; rfl) state due)
  · obtain ⟨durable, failures, writePos, page, bufs⟩ := pageFailed_eq (s.popQueue 0) i
    exact ⟨durable, failures, writePos, page, bufs, sameBut_then popped (pageFailed_frame _ i) (by decide) (by decide)⟩

end

section

/-!
SUPPORT. The walk of a CATALOGUE_READ (R95): its beginning, the extent that a step examines, its endings, and its end by
CHAIN_STOP (R159); the places of STATUS_READ and IDENTIFY (R167).
-/

namespace Sys2Proof.Machine

variable {s : State} {c : ChainRef} {d : Desc} {w : CatalogueRead}

/-! ## The chain whose walk goes on -/

/-- In a list that rises by a key, the first element of a kind is the one of least key. -/
theorem find_of_least {α : Type} {key : α → Nat} {p : α → Bool} {l : List α} {a : α}
    (rising : l.Pairwise (fun x y => key x < key y)) (mem : a ∈ l) (ha : p a = true)
    (least : ∀ b, p b = true → key a ≤ key b) : l.find? p = some a := by
  induction rising with
  | nil => cases mem
  | @cons b l below rest ih =>
    rcases List.mem_cons.mp mem with rfl | later
    · exact List.find?_cons_of_pos ha
    · rw [List.find?_cons_of_neg fun hb => absurd (least b hb) (Nat.not_le.mpr (below a later))]
      exact ih later

theorem allChains_rising : allChains.Pairwise (fun a b => a.port.val * 4 + a.chain.val < b.port.val * 4 + b.chain.val) := by
  decide +kernel

theorem walk_eq_some : s.walk c = some w ↔ s.job c = some (.catalogueRead w) := by
  unfold State.walk
  split
  · rename_i v h
    rw [h]
    simp
  · rename_i h
    exact iff_of_false (fun e => by cases e) (h w)

/-- The walk of the lowest-numbered port's lowest-numbered chain goes on (log entry 17). -/
theorem tick_of_least (hj : s.job c = some (.catalogueRead w))
    (least : ∀ b : ChainRef, (∃ v, s.job b = some (.catalogueRead v)) →
      c.port.val * 4 + c.chain.val ≤ b.port.val * 4 + b.chain.val) : s.tick = s.walkOn c w := by
  have walks := walk_eq_some.mpr hj
  have found : allChains.find? (fun c => (s.walk c).isSome) = some c :=
    find_of_least allChains_rising (mem_allChains c) (by rw [walks]; rfl) fun b hb => by
      obtain ⟨v, hv⟩ := Option.isSome_iff_exists.mp hb
      exact least b ⟨v, walk_eq_some.mp hv⟩
  unfold State.tick
  rw [found]
  dsimp only
  rw [walks]

/-! ## The extent that is examined -/

theorem passesFilters_iff (source : Option Nat) (filter : Option EntryState) (e : EntryShown) :
    passesFilters source filter e = true
      ↔ (∀ n, source = some n → ∃ v, e.seg = some v ∧ v.source = n) ∧ (∀ q, filter = some q → e.state = q) := by
  unfold passesFilters
  rw [Bool.and_eq_true]
  refine and_congr ?_ ?_
  · cases source <;> simp [Option.any_eq_true]
  · cases filter <;> simp

/-- What a walk posts for the extent it examines. -/
def State.walkPosts (s : State) (c : ChainRef) (w : CatalogueRead) : List Output :=
  if passesFilters w.source w.filter (s.entryShown w.next) then
    [placeAt c.port w.buf.addr w.filled (.entry (s.entryShown w.next))]
  else []

theorem walkOn_eq (s : State) (c : ChainRef) (w : CatalogueRead) :
    s.walkOn c w =
      let t := s.setOut (s.out ++ s.walkPosts c w)
      let w' := w.examined (passesFilters w.source w.filter (s.entryShown w.next))
      if extentCount ≤ w'.next then t.complete c (w'.completion .done)
      else if countRead w.buf.count ≤ w'.filled then t.complete c (w'.completion .donePartial)
      else t.setJob c (.catalogueRead w') := by
  have posted : (if passesFilters w.source w.filter (s.entryShown w.next) then
      s.emit (.place c.port (w.buf.addr + 64 * w.filled) (.entry (s.entryShown w.next))) else s)
        = s.setOut (s.out ++ s.walkPosts c w) := by
    unfold State.walkPosts
    split
    · rfl
    · rw [List.append_nil]
      rfl
  unfold State.walkOn
  dsimp only
  rw [posted]
  rfl

/-! ## The ending of a walk -/

/-- A walk that ends with a completion after it has posted some places of its own. -/
theorem walk_ends {posted : List Output} (hd : (s.chain c).desc = some d) (opened : (s.port c.port).state = .opened)
    (v : Completion) :
    let t := (s.setOut (s.out ++ posted)).complete c v
    (∃ more, t.out = s.out ++ posted ++ .completion c.port (d.addr + 32) v :: more) ∧ t.job c = none
      ∧ s.sameBut [.ports, .out] t := by
  have hd' : ((s.setOut (s.out ++ posted)).chain c).desc = some d := hd
  exact ⟨complete_posts hd' v, complete_job_none hd' v, sameBut_then (setOut_frame s _)
    (complete_undrained_frame v (fun e => by cases opened.symm.trans e)) (by decide) (by decide)⟩

/-! ## CHAIN_STOP of a walk -/

/-- A STOPPED completion leaves the last result of a port's cell. -/
theorem lastResult_complete_stopped {v : Completion} (stopped : v.status = .stopped)
    (hp : (s.port c.port).state ≠ .draining) (q : PortId) :
    ((s.complete c v).port q).lastResult = (s.port q).lastResult := by
  have noticed : ∀ (u : State) (p : PortId) k o, ((u.notice p k o).port q).lastResult = (u.port q).lastResult := fun u p k o => by
    rw [port_notice]
    split
    · rename_i e
      rw [e]
      cases NoticeKind.cls k <;> rfl
    · rfl
  have idled : ∀ u : State, (u.port c.port).state ≠ .draining →
      ((u.idleChain c).port q).lastResult = (u.port q).lastResult := fun u hu => by
    rw [idleChain_of_not_draining hu]
    unfold State.modChain
    rw [port_modPort]
    split
    · rename_i e
      rw [e]
    · rfl
  unfold State.complete
  split
  · rfl
  · rename_i d _
    dsimp only
    rw [if_neg (fun e => by rw [stopped] at e; cases e), if_neg (fun e => e.2.2 stopped), if_pos (.inl stopped)]
    have still : ((s.emit (.completion c.port (d.addr + 32) v)).port c.port).state ≠ .draining := hp
    split
    · exact (idled _ (by rw [state_notice]; exact still)).trans (noticed _ _ _ _)
    · exact idled _ still

/-- The state in which the cell command of a port has been taken. -/
def State.cellTaken (s : State) (p : PortId) (word : CellWord) : State :=
  (s.modPort p (fun q => { q with cell0 := word, cellCount := (q.cellCount + 1) % 256 })).modPort p
    (fun q => { q with lastResult := .taken })

theorem cellCommand_taken {p : PortId} {word : CellWord} {test : Port → Option CellResult} {effect : State → State}
    (ready : s.power = .ready) (opened : (s.port p).state = .opened)
    (passes : test { s.port p with cell0 := word, cellCount := ((s.port p).cellCount + 1) % 256 } = none) :
    s.cellCommand p word test effect = effect (s.cellTaken p word) := by
  unfold State.cellCommand State.cellTaken
  rw [if_neg (by rw [ready, opened]; simp)]
  dsimp only
  have begun : (s.modPort p (fun q => { q with cell0 := word, cellCount := (q.cellCount + 1) % 256 })).power = .ready := ready
  rw [if_neg (by rw [begun]; simp), port_modPort, if_pos rfl, passes]

theorem port_cellTaken (s : State) (p : PortId) (word : CellWord) : (s.cellTaken p word).port p
    = { s.port p with cell0 := word, cellCount := ((s.port p).cellCount + 1) % 256, lastResult := .taken } := by
  unfold State.cellTaken
  rw [port_modPort, if_pos rfl, port_modPort, if_pos rfl]

theorem chain_cellTaken (s : State) (c : ChainRef) (word : CellWord) : (s.cellTaken c.port word).chain c = s.chain c := by
  unfold State.chain
  rw [port_cellTaken]

theorem cellTaken_frame (s : State) (p : PortId) (word : CellWord) : s.sameBut [.ports] (s.cellTaken p word) :=
  sameBut_trans (modPort_frame s _ _) (modPort_frame _ _ _)

theorem chainNumber_of_toNat {chain : Byte} {n : ChainNo} (h : chain.toNat = n.val) : chainNumber chain = some n := by
  unfold chainNumber
  rw [dif_pos (h ▸ n.isLt)]
  exact congrArg some (Fin.ext h)

theorem stopChain_walk {chain : Byte} (named : chain.toNat = c.chain.val) (hd : (s.chain c).desc = some d)
    (hj : d.job = some (.catalogueRead w)) : s.stopChain c.port chain = s.complete c (w.completion .stopped) := by
  have holds : s.fetching c = false := by
    unfold State.fetching
    rw [hd]
    simp
  unfold State.stopChain
  rw [chainNumber_of_toNat named]
  dsimp only
  rw [if_neg (by rw [holds]; decide)]
  unfold State.stopJob
  rw [(job_of_desc hd).trans hj]

/-- CHAIN_STOP of a walk: it ends STOPPED with its next extent, and its chain is IDLE. -/
theorem chainStop_walk {chain : Byte} (mask : Byte) (named : chain.toNat = c.chain.val) (ready : s.power = .ready)
    (opened : (s.port c.port).state = .opened) (busy : (s.chain c).state ≠ .idle) (hd : (s.chain c).desc = some d)
    (hj : d.job = some (.catalogueRead w)) :
    let t := chainStop c.port chain mask s
    ((∃ more, t.out = s.out ++ .completion c.port (d.addr + 32) (w.completion .stopped) :: more) ∧ t.job c = none
        ∧ s.sameBut [.ports, .out] t)
      ∧ (t.chain c).state = .idle ∧ (t.port c.port).lastResult = .taken := by
  have passes : stopTest chain
      { s.port c.port with cell0 := ⟨2, chain, mask⟩, cellCount := ((s.port c.port).cellCount + 1) % 256 } = none := by
    unfold stopTest
    rw [chainNumber_of_toNat named]
    exact if_neg busy
  have undrained : ((s.cellTaken c.port ⟨2, chain, mask⟩).port c.port).state ≠ .draining := by
    rw [port_cellTaken]
    exact fun e => by cases opened.symm.trans e
  have hd' := (congrArg Chain.desc (chain_cellTaken s c ⟨2, chain, mask⟩)).trans hd
  have eq : chainStop c.port chain mask s = (s.cellTaken c.port ⟨2, chain, mask⟩).complete c (w.completion .stopped) :=
    (cellCommand_taken ready opened passes).trans (stopChain_walk named hd' hj)
  obtain ⟨-, -, -, idles⟩ := complete_chain hd' (w.completion .stopped)
  dsimp only
  rw [eq]
  refine ⟨⟨complete_posts hd' _, complete_job_none hd' _, ?_⟩, idles (.inl rfl), ?_⟩
  · exact sameBut_then (cellTaken_frame s _ _) (complete_undrained_frame _ undrained) (by decide) (by decide)
  · rw [lastResult_complete_stopped rfl undrained, port_cellTaken]

end Sys2Proof.Machine
end

section

/-! SUPPORT. The descriptors that read: CATALOGUE_READ, STATUS_READ and IDENTIFY (R95, R167). -/

namespace Sys2Proof.Machine

variable {s : State} {a : At} {buf : Buf}

theorem ofCode_of_le {code : Nat} (h : code ≤ 9) : ∃ q, EntryState.ofCode code = some q := by
  interval_cases code <;> exact ⟨_, rfl⟩

theorem ofCode_of_lt {code : Nat} (h : 9 < code) : EntryState.ofCode code = none := by
  obtain ⟨n, rfl⟩ := Nat.exists_eq_add_of_le' h
  rfl

theorem beginWalkOf_refused {start : Nat} (h : extentCount ≤ start) (source : Option Nat) (filter : Option EntryState) :
    s.beginWalkOf a buf start source filter = s.refuse a .refusedArgument := if_pos h

theorem beginWalkOf_begins {start : Nat} (h : start < extentCount) (source : Option Nat) (filter : Option EntryState) :
    s.beginWalkOf a buf start source filter
      = s.setJob (refOf a) (.catalogueRead { buf, source, filter, next := start, filled := 0 }) :=
  if_neg (Nat.not_le.mpr h)

/-- CATALOGUE_READ refuses a start past the last extent, and a state code that names no state. -/
theorem catalogueRead_refuses {start : Nat} {source stateCode : Option Nat} (h : s.arrives a .retrievalOrAudit)
    (fits : buf.count ≤ 4096) (bad : extentCount ≤ start ∨ ∃ code, stateCode = some code ∧ 9 < code) :
    catalogueRead a buf start source stateCode s = (s.holding a).refuse a .refusedArgument := by
  unfold catalogueRead
  rw [bufferDescriptor_of_arrives h fits]
  cases stateCode with
  | none =>
    obtain past | ⟨code, named, _⟩ := bad
    · exact beginWalkOf_refused past source none
    · cases named
  | some code =>
    dsimp only
    rcases Nat.lt_or_ge 9 code with unknown | known
    · rw [ofCode_of_lt unknown]
    · obtain ⟨q, named⟩ := ofCode_of_le known
      rw [named]
      obtain past | ⟨code', same, unknown⟩ := bad
      · exact beginWalkOf_refused past source (some q)
      · cases same
        exact absurd known (Nat.not_le.mpr unknown)

/-- CATALOGUE_READ begins its walk at its start. -/
theorem catalogueRead_begins {start : Nat} {source stateCode : Option Nat} (h : s.arrives a .retrievalOrAudit)
    (fits : buf.count ≤ 4096) (below : start < extentCount) (known : ∀ code, stateCode = some code → code ≤ 9) :
    catalogueRead a buf start source stateCode s = (s.holding a).setJob (refOf a)
      (.catalogueRead { buf, source, filter := stateCode.bind EntryState.ofCode, next := start, filled := 0 }) := by
  unfold catalogueRead
  rw [bufferDescriptor_of_arrives h fits]
  cases stateCode with
  | none => exact beginWalkOf_begins below source none
  | some code =>
    obtain ⟨q, named⟩ := ofCode_of_le (known code rfl)
    rw [Option.bind_some]
    dsimp only
    rw [named]
    exact beginWalkOf_begins below source (some q)

theorem state_of_arrives {role : Role} (h : s.arrives a role) : (s.chain (refOf a)).state = .running := by
  have fetches := h.fetching
  unfold State.fetching at fetches
  simp only [Bool.and_eq_true, decide_eq_true_eq] at fetches
  exact fetches.1.2

theorem holdsJob_setJob_holding {role : Role} (h : s.arrives a role) (j : Job) :
    s.holdsJob a .running j ((s.holding a).setJob (refOf a) j) ∧ s.sameBut [.ports] ((s.holding a).setJob (refOf a) j) := by
  refine ⟨⟨?_, rfl⟩, sameBut_trans (holding_frame s a) (setJob_frame _ _ _)⟩
  rw [chain_setJob_holding]
  dsimp only
  rw [state_of_arrives h]

theorem map_state_vmod (v : Vector Chain 4) (i : Fin 4) {f : Chain → Chain} (hf : ∀ h, (f h).state = h.state) :
    (vmod v i f).map (·.state) = v.map (·.state) := by
  ext k hk
  rw [Vector.getElem_map, Vector.getElem_map]
  by_cases e : (⟨k, hk⟩ : Fin 4) = i
  · rw [← e]
    exact (congrArg Chain.state (vmod_get_self v ⟨k, hk⟩ f)).trans (hf _)
  · exact congrArg Chain.state (vmod_get_of_ne v e f)

theorem chainStates_holding (s : State) (a : At) :
    ((s.holding a).port a.port).chains.map (·.state) = (s.port a.port).chains.map (·.state) := by
  rw [port_holding, if_pos rfl]
  exact map_state_vmod _ _ fun _ => rfl

/-- The descriptor that reads the status does not show in it: of its chain only the state is shown. -/
theorem statusPlaces_holding (s : State) (a : At) : (s.holding a).statusPlaces a.port = s.statusPlaces a.port := by
  unfold State.statusPlaces
  dsimp only
  rw [chainStates_holding, port_holding, if_pos rfl]
  rfl

theorem statusRead_finishes (h : s.arrives a .anyPort) (fits : buf.count ≤ 4096) (enough : buf.count = 0 ∨ 6 ≤ buf.count) :
    s.finishes a (placesAt a.port buf.addr (s.statusPlaces a.port)) (Completion.plain .done 6) (statusRead a buf s)
      ∧ s.sameBut [.ports, .out] (statusRead a buf s) := by
  have written := writePlaces_frame a.port buf.addr (s.statusPlaces a.port) 0 (s.holding a)
  have eq : statusRead a buf s = ((s.holding a).writePlaces a.port buf.addr 0 (s.statusPlaces a.port)).complete (refOf a)
      (Completion.plain .done 6) := by
    unfold statusRead
    rw [bufferDescriptor_of_arrives h fits, State.readStatus, if_neg (Nat.not_lt.mpr (le_countRead enough (by decide))),
      statusPlaces_holding]
  obtain ⟨ends, frame⟩ := complete_finishes (w := Completion.plain .done 6) h (written.ports (by decide))
    (writePlaces_out a.port buf.addr (s.statusPlaces a.port) 0 (s.holding a)) rfl
  rw [eq]
  exact ⟨ends, sameBut_then (sameBut_then (m := [.out, .ports]) (holding_frame s a) written (by decide) (by decide)) frame
    (by decide) (by decide)⟩

theorem identify_finishes (h : s.arrives a .anyPort) (fits : buf.count ≤ 4096) :
    s.finishes a [placeAt a.port buf.addr 0 (.ident (s.identOf a.port))] (Completion.plain .done 1) (identify a buf s)
      ∧ s.sameBut [.ports, .out] (identify a buf s) := by
  have room : 1 ≤ countRead buf.count := le_countRead (by omega) (by decide)
  have eq : identify a buf s = ((s.holding a).emit (.place a.port buf.addr (.ident (s.identOf a.port)))).complete (refOf a)
      (Completion.plain .done 1) := by
    unfold identify
    rw [bufferDescriptor_of_arrives h fits, State.writeIdent, if_neg (Nat.not_lt.mpr room)]
    rfl
  have written := emit_frame (s.holding a) (.place a.port buf.addr (.ident (s.identOf a.port)))
  obtain ⟨ends, frame⟩ := complete_finishes (posted := [placeAt a.port buf.addr 0 (.ident (s.identOf a.port))])
    (w := Completion.plain .done 1) h (written.ports (by decide)) rfl rfl
  rw [eq]
  exact ⟨ends, sameBut_then (sameBut_then (m := [.out, .ports]) (holding_frame s a) written (by decide) (by decide)) frame
    (by decide) (by decide)⟩

end Sys2Proof.Machine
end

section
open Sys2Proof Sys2Proof.Machine

/-- Settles O28: the descriptors that read finish with their places; the step examines the extent of the least walking
chain, and each ending of a walk is a completion of its own. -/
theorem readsWritePlacesAndChangeNothing : Obligations.ReadsWritePlacesAndChangeNothing := by
  unfold Obligations.ReadsWritePlacesAndChangeNothing
  refine ⟨fun s a buf fits => ⟨fun start source stateCode h => ⟨_, rfl, fun bad => ?_, fun below known => ?_⟩,
    fun h enough => ⟨_, rfl, rfl, statusRead_finishes h fits enough⟩, fun h => ⟨_, rfl, identify_finishes h fits⟩⟩, ?_⟩
  · show s.refusedWith a .refusedArgument (catalogueRead a buf start source stateCode s)
    rw [catalogueRead_refuses h fits bad]
    exact refuse_refusedWith h _
  · show _ ∧ s.sameBut [.ports] (catalogueRead a buf start source stateCode s)
    rw [catalogueRead_begins h fits below known]
    exact holdsJob_setJob_holding h _
  · intro s c d w hd hdj opened
    have hj := (job_of_desc hd).trans hdj
    refine ⟨fun idle least posted n shown hidden => ⟨s.walkOn c w, ?_, ?_⟩, fun chain mask named ready busy => ⟨_, rfl, ?_⟩⟩
    · unfold step
      rw [idle]
      exact congrArg _ (tick_of_least hj least)
    · have examined : posted = s.walkPosts c w
          ∧ n = (w.examined (passesFilters w.source w.filter (s.entryShown w.next))).filled := by
        unfold State.walkPosts CatalogueRead.examined
        by_cases passes : passesFilters w.source w.filter (s.entryShown w.next) = true
        · rw [if_pos passes, if_pos passes]
          exact shown ((passesFilters_iff _ _ _).mp passes)
        · rw [if_neg passes, if_neg passes]
          exact hidden fun h => passes ((passesFilters_iff _ _ _).mpr h)
      obtain ⟨rfl, rfl⟩ := examined
      rw [walkOn_eq]
      refine ⟨fun last => ?_, fun more full => ?_, fun more room => ?_⟩
      · dsimp only
        rw [if_pos (show extentCount ≤ (w.examined _).next from Nat.succ_le_succ last)]
        exact walk_ends hd opened _
      · dsimp only
        rw [if_neg (Nat.not_le.mpr (show (w.examined _).next < extentCount from Nat.succ_lt_succ more)),
          if_pos (show countRead w.buf.count ≤ _ from full)]
        exact walk_ends hd opened _
      · dsimp only
        rw [if_neg (Nat.not_le.mpr (show (w.examined _).next < extentCount from Nat.succ_lt_succ more)),
          if_neg (Nat.not_le.mpr (show _ < countRead w.buf.count from room))]
        exact ⟨rfl, job_setJob_of_job (s := s.setOut _) hj _,
          sameBut_then (setOut_frame s _) (setJob_frame _ _ _) (by decide) (by decide)⟩
    · obtain ⟨⟨⟨more, out⟩, none, frame⟩, cell⟩ := chainStop_walk mask named ready opened busy hd hdj
      exact ⟨⟨⟨more, by rw [List.append_nil]; exact out⟩, none, frame⟩, cell⟩

end
